-- ==== Sys2Proof/Word.lean ====
section
/-! DEFINITION. Word types of the GT-9288 model: bytes, 32-bit words and the sparse table type. -/

namespace Sys2Proof

/-- A byte of a buffer, a frame or a flash slot. -/
abbrev Byte := BitVec 8

/-- A 32-bit word of a register, a header or an argument block (R22, R27). -/
abbrev W32 := BitVec 32

/-- A sparse table: (key, value) pairs with strictly rising keys and no pair whose value is what an
unlisted key reads as, so that equal tables are equal data. -/
abbrev Tab (α : Type) := List (Nat × α)

end Sys2Proof
end

