-- ==== Sys2Proof/Syntax.lean ====
section
/-! DEFINITION. The commands of the block: one constructor for each row of spec/opcode_table.json, with the
row's operands. A mailbox command names the mailbox whose buffer holds its header and argument block (R599)
and how many of its attempts fail inside the HC-8 (R612). An event row carries what the outside world
contributes to the step: what a sensor, a receiver or the technician presents. -/

namespace Sys2Proof

/-- The raw contacts of the front panel at one sample (R521): true is closed; bit n of a mask is bay n. -/
structure Contacts where
  find : Bool
  ask : BitVec 16
  trayLatch : Bool
  bayLatch : BitVec 16
  presence : BitVec 16
deriving DecidableEq, Repr

/-- A marker that a lane's capture logic has found (R112): its 40 bits, set upright, its offset from the framer, and
whether it came inverted. -/
structure Marker where
  word : BitVec 40
  offset : Nat
  inverted : Bool
deriving DecidableEq, Repr

/-- A number that a row names, with what the pool reads of the row find, in order (R384): 0 good, 1 corrected, 2 good at
the second read, else lasting; none named is good. -/
structure Reading where
  item : Nat
  reads : List Nat
deriving DecidableEq, Repr

/-- What a receiver in service meets on its lanes: silence on some lanes (R129), TRAIN markers (R129), or an IDLE block,
after which the lanes go silent without a fault (R123). -/
inductive SignalCause where
  | silent (lanes : List Nat)
  | train
  | idle
deriving DecidableEq, Repr

/-- What a receiver presents to its training step (R109): one entry per lane of the set where a list.
`signal` and `lock` answer steps 0 and 1, `aligned` says two consecutive valid markers at framer offset 0, `markers`
are the last markers captured, `skew` is in ticks, `prbs` says that the last 512 PRBS bits were correct (R115). -/
structure TrainObs where
  signal : List Bool
  lock : Bool
  aligned : Bool
  markers : List (Option Marker)
  skew : Nat
  prbs : List Bool
deriving DecidableEq, Repr

/-- The commands, in the order of the table. -/
inductive Instr where
  /-- NOP (R623): Command 0x0000 returns its argument block unchanged. -/
  | nop (mb : Nat) (fails : Nat)
  /-- IDENTITY_GET (R624): Command 0x0001 returns product, revisions, serial, image version, COMPAT and CONFIG_GEN. -/
  | identityGet (mb : Nat) (fails : Nat)
  /-- MAILBOX_CONFIG_SET (R624): Command 0x0002 sets or reports a mailbox's source and MSI-X vector. -/
  | mailboxConfigSet (mb : Nat) (fails : Nat)
  /-- MAILBOX_STATUS_GET (R624): Command 0x0003 returns CONFIG_GEN and the mailbox counters. -/
  | mailboxStatusGet (mb : Nat) (fails : Nat)
  /-- REMOTE_CALL (R610): Long command 0x0004 sends one mailbox request to a peer tray over the fabric or Crier and waits for its response. -/
  | remoteCall (mb : Nat) (fails : Nat)
  /-- SCHEDULED_GET (R624): Command 0x0005 lists the pending scheduled actions in order of application. -/
  | scheduledGet (mb : Nat) (fails : Nat)
  /-- SCHEDULED_CANCEL (R624): Command 0x0006 removes one pending scheduled action that the driver placed. -/
  | scheduledCancel (mb : Nat) (fails : Nat)
  /-- MAILBOX_READ (R624): Command 0x0007 returns bytes of a named mailbox buffer as they stand. -/
  | mailboxRead (mb : Nat) (fails : Nat)
  /-- PORT_LANE_SET (R137): Command 0x0100 sets a port's rate, width, lane selection and idle threshold, at once or at a named turn. -/
  | portLaneSet (mb : Nat) (fails : Nat)
  /-- PORT_TRAIN (R138): Command 0x0101 disables a port to DARK or starts AUTO or MANUAL training from DARK. -/
  | portTrain (mb : Nat) (fails : Nat)
  /-- LANE_BITSLIP (R139): Command 0x0102 slips a lane's framer and optionally sets its receive polarity in MANUAL training. -/
  | laneBitslip (mb : Nat) (fails : Nat)
  /-- LANE_ADAPT (R140): Command 0x0103 runs one-shot adaptation or turns background adaptation on or off. -/
  | laneAdapt (mb : Nat) (fails : Nat)
  /-- PORT_STATUS_GET (R141): Command 0x0104 returns a port's state, training step, stamp lag and per-lane counters. -/
  | portStatusGet (mb : Nat) (fails : Nat)
  /-- LANE_EQ_SET (R143): Command 0x0105 stores a lane's equalisation overlay in flash for one rate. -/
  | laneEqSet (mb : Nat) (fails : Nat)
  /-- LANE_EQ_GET (R144): Command 0x0106 returns factory, overlay, effective and adapted equalisation blocks. -/
  | laneEqGet (mb : Nat) (fails : Nat)
  /-- LANE_PATTERN_SET (R145): Command 0x0107 sets test patterns and PRBS checking on a DARK or PATTERN port. -/
  | lanePatternSet (mb : Nat) (fails : Nat)
  /-- EPT_WRITE (R211): Command 0x0200 writes endpoint-table entries to a writable bank of selected ASICs. -/
  | eptWrite (mb : Nat) (fails : Nat)
  /-- EPT_READ (R212): Command 0x0201 returns endpoint-table entries of one ASIC from either bank. -/
  | eptRead (mb : Nat) (fails : Nat)
  /-- TABLE_SWITCH (R213): Command 0x0202 schedules a table bank switch at a named turn with a grace. -/
  | tableSwitch (mb : Nat) (fails : Nat)
  /-- TABLE_STATUS_GET (R214): Command 0x0203 returns the bank in force, pending switch, grace and epoch counters. -/
  | tableStatusGet (mb : Nat) (fails : Nat)
  /-- QUEUE_CONFIG_SET (R215): Command 0x0204 sets queue limit, mark point, return point and mode for selected classes and ports. -/
  | queueConfigSet (mb : Nat) (fails : Nat)
  /-- QUEUE_CONFIG_GET (R216): Command 0x0205 returns a queue's settings, depth and peak. -/
  | queueConfigGet (mb : Nat) (fails : Nat)
  /-- FWD_CONFIG_SET (R217): Command 0x0206 sets or reports spill classes, deflection classes and DEFL_MAX. -/
  | fwdConfigSet (mb : Nat) (fails : Nat)
  /-- SPILL_CONFIG_SET (R218): Command 0x0207 sets spill quota and reservation for selected ASICs. -/
  | spillConfigSet (mb : Nat) (fails : Nat)
  /-- SPILL_STATUS_GET (R219): Command 0x0208 returns an ASIC's spill pages, held frames and drop counts. -/
  | spillStatusGet (mb : Nat) (fails : Nat)
  /-- LINK_STATUS_GET (R172): Command 0x0280 returns a port's link-layer replay and fault counters. -/
  | linkStatusGet (mb : Nat) (fails : Nat)
  /-- PLAN_HEADER_WRITE (R310): Command 0x0300 writes a plan header to a bank and resets its patterns and map. -/
  | planHeaderWrite (mb : Nat) (fails : Nat)
  /-- PLAN_PATTERN_WRITE (R311): Command 0x0301 writes pitch patterns into a plan bank. -/
  | planPatternWrite (mb : Nat) (fails : Nat)
  /-- PLAN_MAP_WRITE (R312): Command 0x0302 writes port-map entries of one ASIC into a plan bank. -/
  | planMapWrite (mb : Nat) (fails : Nat)
  /-- PLAN_SEAL (R313): Command 0x0303 checks and seals a plan bank, or unseals it. -/
  | planSeal (mb : Nat) (fails : Nat)
  /-- PLAN_SWAP (R314): Command 0x0304 schedules or cancels a swap to a sealed plan bank at a bolt boundary. -/
  | planSwap (mb : Nat) (fails : Nat)
  /-- PLAN_STATUS_GET (R315): Command 0x0305 returns the plan in force, pending swap and digests. -/
  | planStatusGet (mb : Nat) (fails : Nat)
  /-- PLAN_CONFORM_GET (R316): Command 0x0306 returns a port's conformance counters. -/
  | planConformGet (mb : Nat) (fails : Nat)
  /-- GROUP_SET (R354): Command 0x0400 writes, re-forms or removes a collective group entry. -/
  | groupSet (mb : Nat) (fails : Nat)
  /-- GROUP_GET (R356): Command 0x0401 returns a group entry. -/
  | groupGet (mb : Nat) (fails : Nat)
  /-- INSTANCE_GET (R357): Command 0x0402 returns the state of a collective instance context. -/
  | instanceGet (mb : Nat) (fails : Nat)
  /-- INSTANCE_ABANDON (R357): Command 0x0403 abandons an OPEN instance with cause DRIVER. -/
  | instanceAbandon (mb : Nat) (fails : Nat)
  /-- TALLY_READ (R358): Command 0x0404 returns tally entries of a chunk in arrival order. -/
  | tallyRead (mb : Nat) (fails : Reading)
  /-- COLL_STATUS_GET (R359): Command 0x0405 returns collective context, scratch and discard counts. -/
  | collStatusGet (mb : Nat) (fails : Nat)
  /-- STALL_OPEN (R394): Command 0x0500 opens an EMPTY stall with its compression, element type, stride and budget. -/
  | stallOpen (mb : Nat) (fails : Nat)
  /-- STALL_BUDGET_SET (R395): Command 0x0501 changes a stall's page budget and resumes halted packing. -/
  | stallBudgetSet (mb : Nat) (fails : Nat)
  /-- STALL_RECALL (R396): Command 0x0502 starts a recall of a stall's position range to up to 16 targets. -/
  | stallRecall (mb : Nat) (fails : Nat)
  /-- STALL_TRIM (R397): Command 0x0503 cuts a stall to fewer positions and frees pages above. -/
  | stallTrim (mb : Nat) (fails : Nat)
  /-- STALL_FREE (R398): Command 0x0504 frees a stall's pages and staging and makes it EMPTY. -/
  | stallFree (mb : Nat) (fails : Nat)
  /-- STALL_GET (R399): Command 0x0505 returns a stall's state and counts. -/
  | stallGet (mb : Nat) (fails : Nat)
  /-- STALL_MAP_READ (R400): Command 0x0506 returns entries of a stall's page list. -/
  | stallMapRead (mb : Nat) (fails : Nat)
  /-- POOL_REGIONS_SET (R401): Command 0x0507 resizes the spill and collective scratch regions. -/
  | poolRegionsSet (mb : Nat) (fails : Nat)
  /-- POOL_STATUS_GET (R402): Command 0x0508 returns pool region, stall, recall and fault counts. -/
  | poolStatusGet (mb : Nat) (fails : Nat)
  /-- ANNEAL_LOAD (R433): Command 0x0600 stores bytes of a problem image into a slot. -/
  | annealLoad (mb : Nat) (fails : Nat)
  /-- ANNEAL_SEAL (R434): Command 0x0601 checks a loaded image, counts conflicts and makes the slot READY. -/
  | annealSeal (mb : Nat) (fails : Nat)
  /-- ANNEAL_RUN (R435): Command 0x0602 queues a READY or DONE slot for a run with a fixed seed. -/
  | annealRun (mb : Nat) (fails : Nat)
  /-- ANNEAL_STOP (R436): Command 0x0603 asks a QUEUED or RUNNING slot to stop. -/
  | annealStop (mb : Nat) (fails : Nat)
  /-- ANNEAL_CLEAR (R436): Command 0x0604 empties a slot that is not queued or running. -/
  | annealClear (mb : Nat) (fails : Nat)
  /-- ANNEAL_STATUS_GET (R437): Command 0x0605 returns slot states, running phase and fault counts. -/
  | annealStatusGet (mb : Nat) (fails : Nat)
  /-- ANNEAL_RESULT_GET (R438): Command 0x0606 returns the outcome, energies and spins of a DONE slot. -/
  | annealResultGet (mb : Nat) (fails : Nat)
  /-- ANNEAL_STATE_READ (R439): Command 0x0607 returns final positions of a DONE slot. -/
  | annealStateRead (mb : Nat) (fails : Nat)
  /-- POWER_CONFIG_SET (R470): Command 0x0700 sets or reports the cap, bank, debt, recovery and migration settings. -/
  | powerConfigSet (mb : Nat) (fails : Nat)
  /-- POWER_STATUS_GET (R471): Command 0x0701 returns level, balance, deferrals, domain and energy figures. -/
  | powerStatusGet (mb : Nat) (fails : Nat)
  /-- POWER_DOMAIN_SET (R472): Command 0x0702 switches a power domain on or off. -/
  | powerDomainSet (mb : Nat) (fails : Nat)
  /-- POWER_FREQ_SET (R473): Command 0x0703 sets the driver's set level at a named turn. -/
  | powerFreqSet (mb : Nat) (fails : Nat)
  /-- POWER_IDLE_SET (R474): Command 0x0704 sets the idle mode of a port end or of all ports. -/
  | powerIdleSet (mb : Nat) (fails : Nat)
  /-- SENSOR_READ (R475): Command 0x0705 returns the 32 calibrated sensor values. -/
  | sensorRead (mb : Nat) (fails : Nat)
  /-- POWER_CAL_SET (R476): Command 0x0706 stores a calibration overlay. -/
  | powerCalSet (mb : Nat) (fails : Nat)
  /-- POWER_CAL_GET (R476): Command 0x0707 returns factory, overlay and effective values of an item. -/
  | powerCalGet (mb : Nat) (fails : Nat)
  /-- POWER_CAL_RUN (R478): Long command 0x0708 starts a thermal trim or a pool retrain. -/
  | powerCalRun (mb : Nat) (fails : Nat)
  /-- DOMAIN_ROLE_SET (R55): Command 0x0800 declares the tray's topology role, group and domain sizes. -/
  | domainRoleSet (mb : Nat) (fails : Nat)
  /-- DOMAIN_ROLE_GET (R57): Command 0x0801 returns the accepted role. -/
  | domainRoleGet (mb : Nat) (fails : Nat)
  /-- TRAY_INVENTORY_GET (R58): Command 0x0802 returns ASIC, stack, cartridge and pool inventory. -/
  | trayInventoryGet (mb : Nat) (fails : Nat)
  /-- REEL_CONFIG_SET (R97): Command 0x0810 sets the holdover limit. -/
  | reelConfigSet (mb : Nat) (fails : Nat)
  /-- REEL_STATUS_GET (R98): Command 0x0811 returns turn, tick, receiver state and master information. -/
  | reelStatusGet (mb : Nat) (fails : Nat)
  /-- REEL_BENCH_SET (R99): Command 0x0812 enters or leaves BENCH mode as reel master. -/
  | reelBenchSet (mb : Nat) (fails : Nat)
  /-- CRIER_CONFIG_SET (R514): Command 0x0820 sets or reports Crier enable and blanking. -/
  | crierConfigSet (mb : Nat) (fails : Nat)
  /-- CRIER_STATUS_GET (R515): Command 0x0821 returns Crier mode, queue and counters. -/
  | crierStatusGet (mb : Nat) (fails : Nat)
  /-- CRIER_TRIM (R516): Long command 0x0822 starts a Crier receiver trim. -/
  | crierTrim (mb : Nat) (fails : Nat)
  /-- LEDGER_PEERS_SET (R517): Command 0x0823 sets or reports the ledger peer set. -/
  | ledgerPeersSet (mb : Nat) (fails : Nat)
  /-- LEDGER_GET (R518): Command 0x0824 returns the latest ledger record held for a tray. -/
  | ledgerGet (mb : Nat) (fails : Nat)
  /-- LEDGER_STATUS_GET (R519): Command 0x0825 returns voters, quorum and minority flags. -/
  | ledgerStatusGet (mb : Nat) (fails : Nat)
  /-- UNIT_ADMIT (R263): Command 0x0900 schedules the admission of a unit at a bolt boundary. -/
  | unitAdmit (mb : Nat) (fails : Nat)
  /-- UNIT_WITHDRAW (R263): Command 0x0901 schedules the withdrawal of a unit at a bolt boundary. -/
  | unitWithdraw (mb : Nat) (fails : Nat)
  /-- UNIT_STATUS_GET (R264): Command 0x0902 returns a unit's state, pending actions and hold fields. -/
  | unitStatusGet (mb : Nat) (fails : Nat)
  /-- HOLD_CONFIG_SET (R265): Command 0x0903 sets a port's hold window. -/
  | holdConfigSet (mb : Nat) (fails : Nat)
  /-- RESEQ_STATUS_GET (R266): Command 0x0904 returns an ASIC's resequencer counts. -/
  | reseqStatusGet (mb : Nat) (fails : Nat)
  /-- PANEL_CONFIG_SET (R552): Command 0x0920 sets or reports SEAT_TRAIN, ASK_TIMEOUT and FIND_TIMEOUT. -/
  | panelConfigSet (mb : Nat) (fails : Nat)
  /-- PANEL_STATUS_GET (R553): Command 0x0921 returns buttons, sensors and lamp codes and clears the thermal-trip lamp condition. -/
  | panelStatusGet (mb : Nat) (fails : Nat)
  /-- CART_ANSWER (R554): Command 0x0922 grants or refuses a pending cartridge ask. -/
  | cartAnswer (mb : Nat) (fails : Nat)
  /-- PANEL_FIND_SET (R555): Command 0x0923 sets or clears tray and bay find indications. -/
  | panelFindSet (mb : Nat) (fails : Nat)
  /-- CART_INFO_GET (R556): Command 0x0924 returns a bay's presence, latch, state and identity record. -/
  | cartInfoGet (mb : Nat) (fails : Nat)
  /-- FW_WRITE (R582): Command 0x0A00 writes image bytes to the spare slot, erasing it at offset 0. -/
  | fwWrite (mb : Nat) (fails : Nat)
  /-- FW_VERIFY (R583): Long command 0x0A01 authenticates the spare slot's image. -/
  | fwVerify (mb : Nat) (fails : Nat)
  /-- FW_ACTIVATE (R584): Command 0x0A02 selects a slot for later boots. -/
  | fwActivate (mb : Nat) (fails : Nat)
  /-- FW_STATUS_GET (R585): Command 0x0A03 returns image slot information. -/
  | fwStatusGet (mb : Nat) (fails : Nat)
  /-- TRAY_STATE_GET (R586): Command 0x0A04 returns tray state, halt and wake information. -/
  | trayStateGet (mb : Nat) (fails : Nat)
  /-- TRAY_RESTART (R587): Command 0x0A05 starts a warm restart of the HC-8 or a cold restart of the tray. -/
  | trayRestart (mb : Nat) (fails : Nat)
  /-- TRAY_SERVICE (R588): Command 0x0A06 moves the tray between STANDBY and SERVICE. -/
  | trayService (mb : Nat) (fails : Nat)
  /-- TRAY_RESUME (R589): Command 0x0A07 schedules the exit from UNSCHEDULED at a bolt boundary. -/
  | trayResume (mb : Nat) (fails : Nat)
  /-- TRAY_POWER_DOWN (R590): Command 0x0A08 starts the controlled power-down sequence. -/
  | trayPowerDown (mb : Nat) (fails : Nat)
  /-- MB_DOORBELL (R594): A write to MB_DOORBELL queues the rung PCIE mailbox's command when acceptance holds. -/
  | mbDoorbell (v : W32)
  /-- MB_CTRL_CLAIM (R597): A write to MB_CTRL with FORCE and RELEASE clear claims an unclaimed mailbox. -/
  | mbCtrlClaim (n : Nat) (owner : Nat)
  /-- MB_CTRL_RELEASE (R597): A write to MB_CTRL with RELEASE set clears a matching OWNER. -/
  | mbCtrlRelease (n : Nat) (owner : Nat)
  /-- MB_CTRL_FORCE (R597): A write to MB_CTRL with FORCE set takes the mailbox and raises MB_FORCED. -/
  | mbCtrlForce (n : Nat) (owner : Nat)
  /-- EV_RING_ENABLE (R646): A write of ENABLE = 1 checks ring settings and starts writing events with counts reset. -/
  | evRingEnable (v : W32)
  /-- EV_RING_DISABLE (R646): A write of ENABLE = 0 stops ring writes after any record in progress and keeps the backlog. -/
  | evRingDisable (v : W32)
  /-- EV_READ (R647): A write to EV_READ records consumed records, or is ignored with CFG_ERROR when out of range. -/
  | evRead (v : W32)
  /-- CW_SELECT (R634): A write to CW_SELECT names a counter page, discards any frozen copy and sets CW_VALID. -/
  | cwSelect (v : W32)
  /-- CW_SNAP (R635): A write of SNAP = 1 freezes the selected page and records the snapshot turn. -/
  | cwSnap (v : W32)
  /-- CW_SNAP_DISCARD (R635): A write of SNAP = 0 discards the frozen copy so the window shows live counters. -/
  | cwSnapDiscard (v : W32)
  /-- CW_CLEAR (R636): A write of CLEAR = 1 zeroes the live counters of the page, after any snapshot in the same write. -/
  | cwClear (v : W32)
  /-- COUNT_LO_READ (R630): A read of the low word of a latching pair latches its high word into the BAR0 shadow. -/
  | countLoRead (off : Nat)
  /-- REGISTER_WRITE (R628): A write to any other BAR0 register applies RW and W1C fields or is ignored when malformed. -/
  | registerWrite (off : Nat) (data : List (Option Byte))
  /-- AON_POWER_UP (R566): AON power arrives; straps are read, sensors taken as found and the tray enters AON then boots. -/
  | aonPowerUp (straps : Nat) (found : Contacts) (jtag : Bool)
  /-- AON_POWER_LOST (R566): AON power is lost and the tray enters OFF, losing everything held. -/
  | aonPowerLost
  /-- PERST_RELEASE (R559): Release of PERST# after at least 100 us while in AON is a wake condition that starts boot. -/
  | perstRelease (us : Nat) (jtag : Bool)
  /-- PCIE_LINK_RESET (R616): Link loss or PERST# assertion from CORE on resets the PCIe endpoint, clears PCIE owners and disables the event ring. -/
  | pcieLinkReset (perst : Bool)
  /-- BUSBAR_SAG (R578): Busbar below 40 V for 10 ms switches off every switched domain and enters AON. -/
  | busbarSag (us : Nat)
  /-- BUSBAR_OVERVOLTAGE (R674): Busbar above 62 V for 1 ms switches off every switched domain and enters AON. -/
  | busbarOvervoltage (us : Nat)
  /-- BROWN_OUT_RECOVERY (R578): Busbar back within 40-60 V for 1 s gives a wake condition with LAST_WAKE BROWN_OUT. -/
  | brownOutRecovery (us : Nat) (jtag : Bool)
  /-- BOOT_STEP_COMPLETE (R563): A boot step's work completes and the tray moves to the next boot state. -/
  | bootStepComplete (readFails0 : Bool) (readFails1 : Bool) (flow : Nat)
  /-- BOOT_STEP_LIMIT (R576): A boot step passes its time limit and is retried or handled as a second failure. -/
  | bootStepLimit (item : Nat)
  /-- REEL_EDGES_PRESENT (R77): Reference edges appear and the receiver moves from ABSENT to ACQUIRING. -/
  | reelEdgesPresent
  /-- REFERENCE_LOSS (R79): Missing edges or an out-of-range reference take the receiver out of LOCKED or ACQUIRING. -/
  | referenceLoss (outOfRange : Bool)
  /-- REEL_MARKER (R78): A turn marker is detected and acquisition, count load and steps are judged at it. -/
  | reelMarker (pll : Bool) (phasePs : Int)
  /-- REEL_FRAME (R88): A 128-bit reel frame is read and checked, counted and compared with the local count. -/
  | reelFrame (bits : BitVec 128)
  /-- MARKER_ABSENT (R77): Markers absent in 2 consecutive turns move a LOCKED receiver to HOLDOVER. -/
  | markerAbsent
  /-- STEP_HOLD_ABANDON (R85): A turn held at tick 4,095 for 4,096 ticks without a marker abandons the step. -/
  | stepHoldAbandon (refLost : Bool)
  /-- STEP_CTRL_ONLY_END (R85): At tick 128 after a reel step egress returns from CTRL-only to normal. -/
  | stepCtrlOnlyEnd
  /-- HOLDOVER_EXPIRY (R81): Tick 0 of turn L + H + 1 without lock enters FREE and UNSCHEDULED. -/
  | holdoverExpiry
  /-- COUNT_UNVERIFIED (R90): 16 consecutive turns without a valid frame set COUNT_UNVERIFIED. -/
  | countUnverified
  /-- REEL_WAITING (R95): Every 131,072 turns unlocked in boot state REEL an event is raised. -/
  | reelWaiting
  /-- REEL_WRAP (R93): The turn count wraps to 0, cutting the bolt short. -/
  | reelWrap
  /-- FREQ_STEP (R92): A core-frequency step takes effect at tick 0 of its turn and pauses egress. -/
  | freqStep
  /-- FREQ_STEP_EGRESS_RESUME (R92): Egress resumes once the new core clock is stable, by tick 128. -/
  | freqStepEgressResume
  /-- TABLE_BANK_SWITCH (R503): At step 4 of the switch turn the other bank is put in force if the ledger agrees, else the switch is cancelled. -/
  | tableBankSwitch
  /-- TABLE_GRACE_END (R198): At tick 0 of turn T + G the grace ends and the old bank becomes writable. -/
  | tableGraceEnd
  /-- PLAN_BANK_SWAP (R287): At step 5 of its turn a pending swap is checked and the named plan bank put in force. -/
  | planBankSwap
  /-- UNIT_ADMISSION (R249): At its bolt-boundary turn an admission is checked and the unit made ADMITTED or left with ADMIT_FAILED. -/
  | unitAdmission (unit : Nat)
  /-- UNIT_WITHDRAWAL (R250): At its bolt-boundary turn a unit leaves route sets and starts draining. -/
  | unitWithdrawal (unit : Nat)
  /-- WITHDRAWAL_DRAINED (R250): A withdrawn unit holding no queued or spilled frame enters STANDBY at a turn boundary. -/
  | withdrawalDrained (unit : Nat)
  /-- WITHDRAWAL_DRAIN_LIMIT (R250): At turn T + 8 a withdrawn unit enters STANDBY and remaining frames are placed as at window end. -/
  | withdrawalDrainLimit (unit : Reading)
  /-- UNSCHEDULED_EXIT (R568): At step 6 of its turn a resume is checked and the tray takes its return state or raises RESUME_FAILED. -/
  | unscheduledExit
  /-- LANE_CHANGE (R126): At tick 0 of its turn a port rate, width or lane change idles the old lanes and retrains. -/
  | laneChange (unit : Nat)
  /-- RELOCK_DEADLINE (R127): At tick 1,024 a changing port returns to its prior state if READY, else enters TRAINING. -/
  | relockDeadline (unit : Nat)
  /-- CDR_LOCK_TIMEOUT (R109): No clock lock within 1 turn of SIGNAL fails the training attempt. -/
  | cdrLockTimeout (unit : Nat)
  /-- TRAINING_STEP_DONE (R109): A receiver training step completes or fails on its lanes. -/
  | trainingStepDone (unit : Nat) (obs : TrainObs)
  /-- BITSLIP_ROUND (R112): After its wait the AUTO FRAME step reads capture, toggles polarity and slips a lane. -/
  | bitslipRound (unit : Nat) (lane : Nat) (seen : Option Marker) (before : Bool) (now : Bool)
  /-- TRAINING_TIMEOUT (R113): READY not reached within TIMEOUT turns restarts the attempt at step 0. -/
  | trainingTimeout (unit : Nat)
  /-- END_RECEIVED (R111): The receiver sees END on every lane and the port enters PROBATION. -/
  | endReceived (unit : Nat)
  /-- SIGNAL_LOSS (R129): Loss of signal for 4 ticks without an IDLE block takes a port out of service to TRAINING. -/
  | signalLoss (unit : Nat) (cause : SignalCause)
  /-- IDLE_ENTRY (R123): After IDLE_AFTER ticks of fill under an allowing policy a transmitter sends IDLE and enters electrical idle. -/
  | idleEntry (unit : Nat)
  /-- PREWAKE (R282): Ahead of a PREWAKE pitch an idle transmitter starts its idle exit. -/
  | prewake (unit : Nat)
  /-- IDLE_EXIT_CHECK (R130): The receiver judges burst markers of blocks 4 and 5 on each lane of an idle exit. -/
  | idleExitCheck (unit : Nat) (verdicts : List (Nat × Int))
  /-- BACKGROUND_ADAPT (R119): Every 16 turns each lane makes one background adaptation step or counts a skip. -/
  | backgroundAdapt (unit : Nat)
  /-- LANE_ADAPT_DONE (R120): A one-shot adaptation ends, reverting or failing on FOM loss. -/
  | laneAdaptDone (asic : Nat) (port : Nat) (hc8 : Bool)
  /-- PROBATION_TURN (R244): At each turn end a port in PROBATION is judged clean or not and its count updated. -/
  | probationTurn (unit : Nat) (bitErrors : List Nat) (foms : List Nat)
  /-- PAIR_RECEIVE (R153): A codeword pair is decoded: its link control word and frames are checked, acknowledged or NAKed. -/
  | pairReceive (unit : Nat) (lcw : BitVec 40) (stream : List Byte) (bad : Bool) (holds : Bool) (corrected : List Nat)
  /-- ACK_TIMEOUT (R158): 256 ticks without acknowledgement advance resends from the oldest unacknowledged frame. -/
  | ackTimeout (unit : Nat)
  /-- FRAME_INGRESS (R173): An accepted frame passes an ASIC's decode, checks, lookup, spray and admission and is placed. -/
  | frameIngress (unit : Nat)
  /-- SPILL_RETURN (R191): Spilled frames return to their queue tail once it falls to UNSPILL_AT. -/
  | spillReturn (asic : Nat) (port : Nat) (cls : Nat) (reads : List Nat)
  /-- EGRESS_DECISION (R277): A port with no frame in progress decides by the pitch entry which head to send, or fill. -/
  | egressDecision (unit : Nat)
  /-- PLAN_NO_FIT (R297): A frame at a queue head through a whole bolt without fitting is discarded. -/
  | planNoFit (asic : Nat) (port : Nat) (cls : Nat)
  /-- HOLD_WINDOW_END (R241): At tick 0 of turn L + W + 1 held frames of a port not returned are placed again or discarded. -/
  | holdWindowEnd (asic : Nat) (port : Reading)
  /-- ASIC_ANSWER (R246): An ASIC with power on answers its management path and starts AUTO training of required ports. -/
  | asicAnswer (asic : Nat)
  /-- ASIC_TABLE_LOAD (R246): When every required port has passed probation the HC-8 loads and digest-compares the ASIC's tables. -/
  | asicTableLoad (asic : Nat) (mismatches : Nat)
  /-- LOSS_NOTICE (R235): Within 2 turns after a turn with losses the HC-8 sends one LOSS_NOTICE per flow. -/
  | lossNotice (flow : Reading)
  /-- LOSS_NOTICE_RECEIVE (R236): A LOSS_NOTICE naming frames the HC-8 originated is passed to the recall or collective that sent them. -/
  | lossNoticeReceive (ifc : Reading)
  /-- MAILBOX_REQ (R607): A fabric mailbox request is accepted into a FABRIC mailbox or answered with a transport refusal. -/
  | mailboxReq (ifc : Nat)
  /-- MAILBOX_RSP (R610): A mailbox response from the named peer ends a running REMOTE_CALL with OK. -/
  | mailboxRsp (ifc : Nat)
  /-- LONG_COMMAND_LIMIT (R601): A long command reaching its limit ends with TIMEOUT and its listed fallback. -/
  | longCommandLimit (mb : Nat)
  /-- CAL_DONE (R468): A power calibration run ends, retried once on failure. -/
  | calDone (ok : Bool) (inletHeld : Bool) (readings : List Int)
  /-- CRIER_TRIM_DONE (R510): A Crier trim ends and writes RX_GAIN and CARRIER_LEVEL overlays or fails. -/
  | crierTrimDone (ok : Bool) (energy : Int) (gain : Int) (noise : Nat)
  /-- FW_ERASE_DONE (R582): The spare slot's erase at offset 0 completes and the write proceeds. -/
  | fwEraseDone (ok : Bool)
  /-- FW_VERIFY_DONE (R583): Authentication of the spare slot completes with an ERROR code. -/
  | fwVerifyDone (readFails : Bool)
  /-- DOMAIN_RAMP_DONE (R441): A switched-on power domain becomes ready after its ramp. -/
  | domainRampDone (domain : Nat)
  /-- DOMAIN_FAIL (R464): A domain that fails while on is switched off whatever the tray state. -/
  | domainFail (domain : Nat)
  /-- LEDGER_TURN (R448): At tick 0 of every turn the power ledger updates the balance and grants or defers work. -/
  | ledgerTurn (raw : Option Nat)
  /-- THERMAL_THRESHOLD (R457): A junction or stack sensor crosses WARN, STEP or TRIP and the tray acts. -/
  | thermalThreshold (sensor : Nat) (raw : Int)
  /-- COOLANT_FAULT (R458): Flow below minimum for 2 s sets COOLANT_FAULT, 1.6 GHz and full deferral. -/
  | coolantFault (flow : Nat) (turns : Nat)
  /-- COOLANT_RECOVERY (R458): Flow at or above minimum for 8 s ends the coolant fault measures. -/
  | coolantRecovery (flow : Nat) (turns : Nat)
  /-- SENSOR_FAULT (R462): 16 turns without a valid busbar reading set SENSOR_FAULT and defer work. -/
  | sensorFault
  /-- AVS_UPDATE (R454): Every 1,024 turns the voltage loop adjusts each ASIC's core voltage. -/
  | avsUpdate (asic : Nat) (needed : Nat)
  /-- POOL_MIGRATION (R461): Every 2^20 turns pages of PARKED stalls move from an overread stack within its half. -/
  | poolMigration
  /-- PATROL_READ (R385): A patrol read of a page in use corrects and writes back, retrying once on error. -/
  | patrolRead (page : Nat) (result : Nat)
  /-- PAGE_COPY_DONE (R386): A page-copy engine finishes moving a page and the page list is updated. -/
  | pageCopyDone (page : Reading)
  /-- STALL_PUSH (R381): A PUSH or PUSH_END frame at the HC-8 is checked and its bytes staged. -/
  | stallPush (ifc : Nat)
  /-- BLOCK_COMPRESSED (R369): A plane packer finishes a block and complete positions are packed into pages. -/
  | blockCompressed (stall : Nat) (block : Reading)
  /-- STALL_PUSH_TIMEOUT (R382): A FILLING stall idle for PUSH_TIMEOUT turns drops staging and returns to PARKED. -/
  | stallPushTimeout (stall : Nat)
  /-- RECALL_PROGRESS (R376): A running recall reads a page, decompresses it and hands pieces to its shares when granted. -/
  | recallProgress (stall : Nat) (reads : List Nat)
  /-- STALL_RECALL_DONE (R378): LINGER turns after the last frame the recall ends, releases its sets and sets the stall state. -/
  | stallRecallDone (stall : Nat)
  /-- TWINE_ARRIVAL (R340): A TWINE frame at the HC-8 is checked, opens or joins a context and is accumulated. -/
  | twineArrival (ifc : Nat) (reads : List Nat)
  /-- ABANDONMENT_MARKER (R345): A received abandonment marker abandons the instance and is passed on. -/
  | abandonmentMarker (ifc : Nat)
  /-- COLL_TIMEOUT (R342): TIMEOUT turns without a frame declare missing local members failed. -/
  | collTimeout (key : Reading)
  /-- UPSTREAM_WAIT_END (R344): TIMEOUT x (h + 1) turns without upstream data complete the chunk or abandon. -/
  | upstreamWaitEnd (key : Nat) (chunk : Reading)
  /-- CONTEXT_FREE (R352): TIMEOUT turns in CLOSED or ABANDONED free the context, scratch and tally. -/
  | contextFree (key : Nat)
  /-- ANNEAL_RUN_START (R419): With the engine free the first QUEUED slot becomes RUNNING. -/
  | annealRunStart (parity : Nat) (atStep : Nat) (pass : Nat)
  /-- ANNEAL_DONE (R416): The last polish sweep ends and the slot becomes DONE with its final energy. -/
  | annealDone
  /-- ANNEAL_STOP_EFFECT (R425): A stop takes effect at the next step or class-pass boundary and ends the run. -/
  | annealStopEffect
  /-- LEDGER_EXCHANGE (R491): At every check-period turn the record is sampled, sent to peers and compared. -/
  | ledgerExchange
  /-- LEDGER_RECORD_RECEIVE (R507): A LEDGER frame's record is checked and kept for the vote. -/
  | ledgerRecordReceive (ifc : Nat)
  /-- LEDGER_PEER_SILENT (R506): A peer's record ceasing to be current after 262,144 turns raises the event. -/
  | ledgerPeerSilent (tray : Nat)
  /-- CRIER_SLOT_START (R486): At a slot's first tick its owner sends a queued frame if no carrier was heard. -/
  | crierSlotStart (energy : Int)
  /-- CRIER_BACKOFF_END (R487): After silence and a random backoff in backoff mode the tray starts a frame. -/
  | crierBackoffEnd (energy : Int)
  /-- CRIER_FRAME_RECEIVE (R509): A Crier frame is demodulated, checked and passed on by TYPE. -/
  | crierFrameReceive (tones : List Nat) (loud : List (Nat × Nat)) (slotTurn : Nat) (atStart : Bool)
  /-- PANEL_SAMPLE (R521): Every 128 turns buttons and sensors are sampled and recognitions counted. -/
  | panelSample (raw : Contacts)
  /-- TRAY_FIND_PRESSED (R523): A short press of the find button toggles the tray's find indication. -/
  | trayFindPressed
  /-- LAMP_TEST (R527): A hold of the find button starts a lamp test of every lamp. -/
  | lampTest
  /-- LAMP_TEST_END (R527): The lamp test ends after green and amber phases and lamps return to their patterns. -/
  | lampTestEnd
  /-- ASK_PRESS (R529): A short press of an ask button asks to remove, cancels, or releases a cartridge at once. -/
  | askPress (bay : Nat)
  /-- CART_LOCATE (R523): A hold of an ask button sets the bay's find indication. -/
  | cartLocate (bay : Nat)
  /-- BUTTON_STUCK (R522): A press held 8,388,608 turns is reported and ignored until released. -/
  | buttonStuck (button : Nat)
  /-- ASK_TIMEOUT (R532): An ask unanswered within ASK_TIMEOUT is treated as refused. -/
  | askTimeout (bay : Nat)
  /-- FIND_TIMEOUT (R528): A find indication ends after FIND_TIMEOUT units. -/
  | findTimeout (which : Nat)
  /-- BAY_LATCH_OPEN (R543): A recognised open latch of an unreleased cartridge takes its ports DARK as a surprise. -/
  | bayLatchOpen (bay : Nat)
  /-- BAY_LATCH_CLOSED (R536): Presence and latch recognised closed start the settle before the identity read. -/
  | bayLatchClosed (bay : Nat)
  /-- CART_ID_READ (R536): After the settle the identity record is read over I2C, once more on failure. -/
  | cartIdRead (bay : Nat) (record : Option (List Byte))
  /-- CART_REMOVED (R534): A presence contact recognised open empties the bay. -/
  | cartRemoved (bay : Nat)
  /-- TRAY_LATCH_OPEN (R538): The tray latch lever is recognised lifted. -/
  | trayLatchOpen
  /-- TRAY_LATCH_CLOSED (R538): The tray latch lever is recognised lowered. -/
  | trayLatchClosed
  /-- BAY_MGMT_OVERLOAD (R676): A bay's 3V3_MGMT reaching 0.4 A switches that bay's supply off. -/
  | bayMgmtOverload (bay : Nat)
  /-- WARM_RESTART_BEGIN (R615): Once running long commands end the warm restart of the HC-8 firmware begins. -/
  | warmRestartBegin
  /-- WARM_RESTART_DONE (R572): The firmware runs again and held work is resumed in order. -/
  | warmRestartDone
  /-- WARM_RESTART_LIMIT (R579): A restart not done within 131,072 turns is retried, then halts with WARM_OVERRUN. -/
  | warmRestartLimit
  /-- PUMP_RUN_ON_END (R573): 10 s after the HC-8 core goes off the AON controller switches the pump off. -/
  | pumpRunOnEnd
  /-- EVENT_BACKLOG_DRAIN (R643): Backlogged events are written to the ring as room appears. -/
  | eventBacklogDrain
  /-- EVENT_INTERRUPT (R639): The oldest unsignalled record waiting MOD_TURNS turns sends the ring's MSI-X. -/
  | eventInterrupt
  /-- BAD_OPCODE (R625): A command whose opcode no chapter lists reaches its execution point and completes with status BAD_OPCODE. -/
  | badOpcode (mb : Nat) (fails : Nat)
  /-- FAR_READY (R111): The far end's markers carry RX_READY = 1 twice in a row on every lane while the local receiver is READY, and the transmitter sends END and then codeword pairs. -/
  | farReady (unit : Nat)
  /-- THERMAL_RECOVERY (R451): After every ASIC junction sensor has stayed at or below JUNCTION_STEP minus 5 degrees C for RECOVER_TURNS consecutive turns, the thermal level steps up one level. -/
  | thermalRecovery
  /-- DENIED_DISPLAY_END (R531): 524,288 turns after an ask is refused, the bay lamp leaves AMBER_FAST and the bay's FAULT bit clears. -/
  | deniedDisplayEnd (bay : Nat)
  /-- CRIER_FRAME_ENDED (R487): A Crier frame in transmission ends, any pending change between slotted and backoff mode takes effect, and the transmit queue moves on. -/
  | crierFrameEnded
deriving DecidableEq, Repr

end Sys2Proof
end

