-- ==== Sys2Proof/Config.lean ====
section
/-! DEFINITION. What one tray fixes and the manual leaves open: identity values, factory calibration
values and the free values. None has a body, so no proof can see which value it is. -/

namespace Sys2Proof.Config

/-- HC-8 revision, IDENTITY_GET word 1 bits 31:16 (R624, R648 give no value). -/
opaque hc8Rev : BitVec 16
/-- ASIC revision, IDENTITY_GET word 1 bits 15:0 (R624, R648 give no value). -/
opaque asicRev : BitVec 16
/-- TRAY_SERIAL (R624, R648 give no value). -/
opaque traySerial : BitVec 64
/-- Header word n of the image found in flash slot s at AON power-up, before any FW_WRITE (R560, R580). -/
opaque factoryHeader : Nat → Nat → W32
/-- Byte i of the key hash held in one-time-programmable memory (R561 gives no value). -/
opaque keyHash : Nat → Byte
/-- Factory value of calibration item n where R477 lists CAL (held in one-time-programmable memory, R21). -/
opaque calFactory : Nat → Int
/-- Factory equalisation field f of lane l of port end u at rate r where R121 lists CAL. -/
opaque eqFactory : Nat → Nat → Nat → Nat → Int
/-- Receive coefficient after the n-th adaptation (R117 gives no algorithm): field f of lane key k. -/
opaque adapted : Nat → Nat → Nat → Int
/-- Factory value of Crier's RX_GAIN (item 0) and CARRIER_LEVEL (item 1) (R482, R510: CAL). -/
opaque crierFactory : Nat → Int
/-- The clamp of CARRIER_LEVEL (R21), whose limits R482 and R510 do not give. -/
opaque carrierClamp : Int → Int
/-- Factory voltage target and band of an ASIC's core in mV: part 0 target, 1 bottom, 2 top, at a level (R454, R455). -/
opaque vddFactory : Nat → Nat → Nat → Nat
/-- Factory idle rise of temperature sensor n in 1/8 degree C (R466). -/
opaque idleRise : Nat → Int
/-- The n-th free value: what a part leaves in a place whose value the manual does not state. -/
opaque freeValue : Nat → Nat

end Sys2Proof.Config
end

