-- ==== Sys2Proof/Machine/State.lean ====
section
/-! DEFINITION. The state of the GT-9288 as plain data, and the state right after reset. One structure per
chapter of the manual; INVENTORY.md lists every field with its rule. Numbers that the manual counts are Nat
(their widths stand in INVENTORY.md), words that it handles as bits are bit vectors. -/

namespace Sys2Proof.Machine

open Sys2Proof

/-! ### Time (02_reel_time.md) -/

/-- States of the reel receiver (R77), in the code order of R98. -/
inductive RState where
  | absent | acquiring | locked | holdover | free | bench
deriving DecidableEq, Repr

/-- A step decided and awaiting its marker (R85): its kind as REEL_STEP gives it (1 count step, 2 phase step), the turn
that begins at the marker, and the turn that the local count alone would have begun there. -/
structure RStep where
  kind : Nat
  turn : Nat
  before : Nat
deriving DecidableEq, Repr

/-- The reel receiver and the tray's counters. `clock` (ticks since AON power-up) and `bounds` (turn
boundaries passed, for the durations of R76) are the model's own counters. `slewFrom` and `slewLeft` are the phase
error a slew began with and the turns it has left (R84), `frameNow` and `framePrev` the counts of the valid frames of
this turn and the one before (R88), `frameValid` that the turn has had a valid frame (R90), `sinceMarker` the ticks since the last marker, `displaced` the period position of
the last displaced one (R89), `held` the ticks for which the count has been held (R85). -/
structure Reel where
  turn : Nat := 0
  tick : Nat := 0
  clock : Nat := 0
  bounds : Nat := 0
  st : RState := .absent
  seenAcq : Bool := false
  timeValid : Bool := false
  masterId : Nat := 0
  masterHoldover : Bool := false
  benchInput : Bool := false
  anyFrame : Bool := false
  unverified : Bool := false
  phaseErr : Int := 0
  slewFrom : Int := 0
  slewLeft : Nat := 0
  holdTurns : Nat := 0
  lossTurn : Nat := 0
  limit : Nat := 4096
  limitNext : Option Nat := none
  frameNow : Option Nat := none
  framePrev : Option Nat := none
  frameSeen : Bool := false
  frameValid : Bool := false
  noFrame : Nat := 0
  sinceMarker : Option Nat := none
  markerSeen : Bool := false
  noMarker : Nat := 0
  displaced : Option Nat := none
  step : Option RStep := none
  held : Nat := 0
  ctrlOnly : Bool := false
  freqPause : Bool := false
  benchId : Nat := 0
  waitFrom : Nat := 0
deriving DecidableEq, Repr

/-- The settings of a port's lanes (R137). -/
structure LaneSet where
  rate : Nat := 0
  width : Nat := 2
  sel : Nat := 0
  idleAfter : Nat := 256
deriving DecidableEq, Repr

/-- What a scheduled action carries beside its kind and unit (R71). -/
inductive SchedArg where
  | none
  | freq (level reason : Nat)
  | table (grace : Nat)
  | plan (bank : Bool)
  | lane (ls : LaneSet)
deriving DecidableEq, Repr

/-- Kinds of scheduled action, in the code order of R624. -/
inductive SKind where
  | freqStep | tableSwitch | planSwap | admission | withdraw | resume | laneChange
deriving DecidableEq, Repr

/-- A pending scheduled action (R71, R624). -/
structure Sched where
  kind : SKind
  unit : Nat
  turn : Nat
  opcode : Nat
  trayPlaced : Bool
  arg : SchedArg
deriving DecidableEq, Repr

/-! ### Frames and links (04_frames_and_link.md) -/

/-- A frame: the header of R169 field by field with its reserved bits, which are carried (R154), its class words and its
payload. -/
structure Frame where
  dst : Nat := 0
  src : Nat := 0
  cls : Nat := 0
  chan : Nat := 0
  fmt : Nat := 1
  flowSeq : Nat := 0
  pathSeq : Nat := 0
  epoch : Bool := false
  mark : Bool := false
  defl : Nat := 0
  len32 : Nat := 0
  stamped : Bool := false
  w3 : W32 := 0
  w4 : W32 := 0
  w5 : W32 := 0
  w6 : W32 := 0
  w7 : W32 := 0
  payload : List Byte := []
  rsv : Nat := 0
deriving DecidableEq, Repr

/-- A frame inside the tray: the class as which it is queued (its own, or WEFT under R82), its stamp (R65), the port it
came in by, and what the resequencer and the hold rules know of it (R227, R228, R237). `headSince` is the turn from which
it has stood at its queue's head without fitting (R297), `mode` the queue's mode at the time where a later change does
not apply to it (R206), `shared` the copies that share its payload (R196), `unordered` that no context orders it (R256,
R257). -/
structure QFrame where
  f : Frame := {}
  cls : Nat := 0
  stampTurn : Nat := 0
  stampTick : Nat := 0
  stampClock : Nat := 0
  inUnit : Nat := 0
  diverted : Bool := false
  parked : Bool := false
  released : Bool := false
  headSince : Option Nat := none
  mode : Option Nat := none
  shared : Option Nat := none
  unordered : Bool := false
deriving DecidableEq, Repr

/-- A frame in a transmitter's replay buffer (R152) with its LSEQ. -/
structure Unacked where
  seq : Nat
  q : QFrame
  stomped : Bool
deriving DecidableEq, Repr

/-- The moment at which a frame's head left the deskew buffer (R65). -/
structure Moment where
  turn : Nat := 0
  tick : Nat := 0
  clock : Nat := 0
deriving DecidableEq, Repr

/-- A frame that an ASIC end has accepted: the moment of its head, and the PATH_SEQ that its stomped copy took (R163). -/
structure Arrival where
  f : Frame := {}
  at_ : Moment := {}
  path : Option Nat := none
deriving DecidableEq, Repr

/-- What the link control word of the pair being sent holds from the pair's start on (R153, R156, R157, R168). -/
structure TxPair where
  ackSeq : Nat := 0
  ackValid : Bool := false
  nak : Bool := false
  restart : Bool := false
deriving DecidableEq, Repr

/-- One end of a link: replay, acknowledgement and the frame streams of both directions (R148 to R163).
`stream` holds the frame bytes not yet sent from byte 0 of the pair being sent on, `heads` the places of the frame
heads among them, `limit` how many of them that pair still takes; `now` is its link control word, `nakNext` and
`restartNext` belong to the next one. `waiting` is a committed frame that waits for room in the replay buffer (R152, R299). `partialBytes` is
the received frame in progress, with the moment of its head and whether that head lay in a RESTART pair; `path` is the
PATH_SEQ of a stomped copy. `arrived` are the frames an ASIC end has accepted, `rxq` those an HC-8 end keeps. -/
structure Link where
  txSeq : Nat := 0
  rxSeq : Nat := 0
  unacked : List Unacked := []
  ackValid : Bool := false
  stream : List Byte := []
  heads : List Nat := []
  limit : Nat := 1280
  now : TxPair := {}
  nakNext : Bool := false
  restartNext : Bool := false
  waiting : Option QFrame := none
  discarding : Bool := false
  lastNak : Option (Nat × Nat) := none
  lastAdvance : Nat := 0
  errors : Nat := 0
  lostPlace : Bool := false
  partialBytes : List Byte := []
  partialAt : Moment := {}
  partialRestart : Bool := false
  path : Option Nat := none
  arrived : List Arrival := []
  rxq : List Frame := []
deriving DecidableEq, Repr

/-! ### Lanes (03_lanes.md) -/

/-- Port states, in the code order of R141. -/
inductive PState where
  | dark | training | probation | standby | admitted | relock | pattern
deriving DecidableEq, Repr

/-- An equalisation block (R142): TX_MAIN, TX_PRE2, TX_PRE1, TX_POST1, RX_CTLE, RX_VGA, FOM_THRESHOLD. -/
structure EqBlock where
  main : Int := 0
  pre2 : Int := 0
  pre1 : Int := 0
  post1 : Int := 0
  ctle : Int := 0
  vga : Int := 0
  fom : Int := 0
deriving DecidableEq, Repr

/-- The test pattern of a lane (R145). -/
structure Pattern where
  tx : Nat := 0
  check : Nat := 0
  level : Nat := 0
  precode : Bool := false
deriving DecidableEq, Repr

/-- One logical lane of a port end (R141). `eff` is the effective block in force since the last entry to TRAINING or
RELOCK (R122), `run` the PRBS bits received correctly in a row, up to 512 (R115), `adapts` numbers the coefficients;
`txPre` and `txPrbs` are the transmitter's last precoded symbol and its generator (R102, R107, R145). -/
structure Lane where
  fom : Nat := 0
  foms : List Nat := []
  fomVar : Nat := 0
  eff : EqBlock := { fom := 96 }
  fillAt : Nat := 0
  slip : Nat := 0
  invert : Bool := false
  suspect : Bool := false
  run : Nat := 0
  signal : Bool := false
  capture : Nat := 0xFFFF
  lastBlock : Nat := 0
  mkWidth : Nat := 0
  mkRate : Nat := 0
  mkLane : Nat := 0
  captureInv : Bool := false
  farReady : Bool := false
  mismatch : Bool := false
  exitRun : Nat := 0
  rounds : Nat := 0
  adapts : Nat := 0
  pattern : Pattern := {}
  patErrors : Nat := 0
  txPre : Nat := 0
  txPrbs : Nat := 0x7FFFFFFF
deriving DecidableEq, Repr

/-- The first CTRL frame a front port received (R46). -/
structure FirstCtrl where
  src : Nat
  dst : Nat
  ctype : Nat
  len32 : Nat
  chan : Nat
  carg4 : W32
deriving DecidableEq, Repr

/-- A running hold (R237 to R240): the loss turn, the turn boundaries passed at the loss (R76), the window in effect and
the state left. -/
structure Hold where
  lossTurn : Nat
  bound : Nat
  window : Nat
  left : PState
deriving DecidableEq, Repr

/-- A one-shot adaptation in progress (R120): its mailbox, the lanes that adapt, the lanes still running, the number of
the run, the turn boundaries at its start, the steps it has made, and per running lane the sum and number of the FOM samples
before it and the coefficients it reverts to. -/
structure Adapt where
  mb : Nat
  lanes : List Nat
  retry : List Nat
  run : Nat
  start : Nat
  steps : Nat := 0
  before : List (Nat × Nat) := []
  saved : List Nat := []
deriving DecidableEq, Repr

/-- One port end (03_lanes.md, 06_ordering_ports_readmission.md). `sendAt` is the fifth of a tick at which the block or
pair being sent began, `blocks` the phases of the blocks that go before the next pair, `txPrbs` the fill generator,
`wakeAt` the clock tick at which an idle exit begins; `rxPrbs` and `rxSeen` are the fill checker's register and how many
of its bits are known. -/
structure Port where
  st : PState := .dark
  step : Nat := 0
  stepAt : Nat := 0
  manual : Bool := false
  timeout : Nat := 256
  attempts : Nat := 0
  attemptAt : Nat := 0
  set : LaneSet := {}
  txIdle : Bool := true
  rxIdle : Bool := true
  rxReady : Bool := false
  txEnded : Bool := false
  stampLag : Nat := 0
  exitFails : Nat := 0
  idleAt : Nat := 0
  busyUntil : Nat := 0
  sendAt : Nat := 0
  blocks : List Nat := []
  txPrbs : Nat := 0x7FFFFFFF
  wakeAt : Option Nat := none
  rxPrbs : Nat := 0
  rxSeen : Nat := 0
  fillFrom : Nat := 0
  runEnd : Nat := 0
  relockAt : Nat := 0
  prior : PState := .standby
  bgOff : Nat := 0
  adaptAt : Nat := 0
  adapt : Option Adapt := none
  l0 : Lane := {}
  l1 : Lane := {}
  l2 : Lane := {}
  l3 : Lane := {}
deriving DecidableEq, Repr

/-- What the unit rules keep for a port end beside its lanes (R46, R237 to R250). -/
structure PortUnit where
  first : Option FirstCtrl := none
  hold : Option Hold := none
  window : Nat := 8
  clean : Nat := 0
  passed : Bool := false
  probeMissing : Bool := false
  lasting : Bool := false
  resetAt : Option Nat := none
  disabled : Bool := false
  wiringHeld : Bool := false
  idleMode : Nat := 1
deriving DecidableEq, Repr

/-- What the tray keeps for every unit (R250, R264): the turn of a draining withdrawal and LAST_FAIL. -/
structure UnitAux where
  drainTurn : Option Nat := none
  lastFail : Nat := 0
deriving DecidableEq, Repr

/-- An ASIC as a unit (R246). `answered` says that it has answered the HC-8 since its power came up, `present` that no
power-up has found it silent (R58). -/
structure Asic where
  st : PState := .dark
  mismatches : Nat := 0
  answered : Bool := false
  present : Bool := true
deriving DecidableEq, Repr

/-! ### Forwarding (05_forwarding_core.md) -/

/-- An endpoint-table entry (R208): its four words. -/
structure EptEntry where
  w0 : W32 := 0
  w1 : W32 := 0
  w2 : W32 := 0
  w3 : W32 := 0
deriving DecidableEq, Repr

/-- Queue settings (R181, R215). -/
structure QCfg where
  limit : Nat
  unspill : Nat
  mark : Nat
  mode : Nat
deriving DecidableEq, Repr

/-- Table banks and the last or pending switch (R178, R198, R214). -/
structure Tables where
  inForce : Bool := false
  switchTurn : Nat := 0
  grace : Nat := 4
  inGrace : Bool := false
  switched : Bool := false
  late : Nat := 0
  foreign : Nat := 0
deriving DecidableEq, Repr

/-- A replication set of an ASIC (R209), with the copies that the ASIC has made of it (R197). -/
structure ReplSet where
  loaded : Bool := false
  chan : Nat := 0
  targets : List (Nat × Nat) := []
  copies : Nat := 0
deriving DecidableEq, Repr

/-- A spill page (R189): its pool page and the frames it still holds, each with its egress queue. -/
structure SpillPage where
  page : Nat
  used : Nat
  frames : List (Nat × QFrame)
deriving DecidableEq, Repr

/-- Spill of one ASIC (R190, R219, R460). -/
structure Spill where
  quota : Nat := 262144
  reserve : Nat := 196608
  pages : List SpillPage := []
  peak : Nat := 0
  dropsNoSpace : Nat := 0
  dropsLost : Nat := 0
  pointer : Nat := 0
deriving DecidableEq, Repr

/-- A resequencer context (R227): keyed by flow and origin. -/
structure Context where
  flow : Nat
  origin : Nat
  out : Nat
  oldest : Nat
  newest : Nat
deriving DecidableEq, Repr

/-- Resequencer counts of an ASIC (R266). -/
structure Reseq where
  contexts : List Context := []
  peak : Nat := 0
  full : Nat := 0
  span : Nat := 0
deriving DecidableEq, Repr

/-- A loss kept for a LOSS_NOTICE (R235): the turn of the drop, reason, class and FLOW_SEQ. -/
structure Loss where
  flow : Nat
  bound : Nat
  turn : Nat
  reason : Nat
  cls : Nat
  seq : Nat
deriving DecidableEq, Repr

/-- The forwarding core of the tray. Keys: endpoint table bank × 2^14 + asic × 2^12 + EID; queues
unit × 8 + class; path counters asic × 2^16 + index; replication sets asic × 2^10 + set; the HC-8's own flows by flow
number. `sending` are the frames whose egress is in progress, each with its port; `setHome` is the ASIC on which the HC-8
keeps a set (R197); `spillOut` are the pool halves that spill does not use (R204). -/
structure Fwd where
  ept : Tab EptEntry := []
  cache : Tab (List Nat) := []
  tables : Tables := {}
  queues : Tab (List QFrame) := []
  sending : List (Nat × QFrame) := []
  peaks : Tab Nat := []
  qcfg : Tab QCfg := []
  spray : Tab Nat := []
  spillClasses : Nat := 0x1F
  deflClasses : Nat := 0x1F
  deflMax : Nat := 2
  spill : Tab Spill := []
  repl : Tab ReplSet := []
  setHome : Tab (Option Nat) := []
  spillOut : List Nat := []
  pathSeq : Tab Nat := []
  hc8Path : Tab Nat := []
  hc8Flow : Tab Nat := []
  reseq : Tab Reseq := []
  losses : List Loss := []
  refCount : Nat := 0
  unstamped : Nat := 0
deriving DecidableEq, Repr

/-! ### The pitch plan (07_pitch_plan.md) -/

/-- One plan bank (R305 to R309). Patterns are keyed by pattern × 64 + pitch, the map by
asic × 2^15 + index and reads 0x3FF where nothing is listed. -/
structure Bank where
  header : List W32 := [0, 0, 0, 0, 0, 0, 0, 0]
  written : Bool := false
  sealed : Bool := false
  patterns : Tab W32 := []
  map : Tab Nat := []
deriving DecidableEq, Repr

/-- The plan banks and the plan in force (R286, R315). -/
structure Plan where
  a : Bank := {}
  b : Bank := {}
  inForce : Option Bool := none
  lastRefuse : Nat := 0
deriving DecidableEq, Repr

/-! ### Collectives (08_collectives.md) -/

/-- A group-table entry (R318, R354): words 0 to 4 of GROUP_SET, the tray list and the local members. -/
structure Group where
  valid : Bool := false
  gepoch : Nat := 0
  onFail : Bool := false
  tally : Bool := false
  requireChunk : Bool := false
  chunkLog : Nat := 0
  members : Nat := 0
  rootMember : Nat := 0
  quorum : Nat := 0
  rootEid : Nat := 0
  pos : Nat := 0
  rootPos : Nat := 0
  chan : Nat := 0
  timeout : Nat := 64
  trays : List Nat := []
  locals : List (Nat × Nat) := []
  sets : List Nat := []
deriving DecidableEq, Repr

/-- A kept output chunk of an instance (R347): its target, the frames as sent, the notices received for the chunk, and
whether the pool has lost it since. -/
structure Kept where
  chunk : Nat
  dst : Nat
  frames : List Frame
  notices : Nat
  gone : Bool := false
deriving DecidableEq, Repr

/-- A chunk of an instance at this tray: the (sender, part) pairs accepted, the senders added whole, the
accumulators and contributor counts by part, what is staged, its tally entries and its scratch pages, each with
its use. Senders are members, or 0x1000 + tray for another tray's HC-8. -/
structure Chunk where
  idx : Nat := 0
  last : Bool := false
  partsM1 : Nat := 0
  lastLen : Nat := 0
  got : List (Nat × Nat) := []
  whole : List Nat := []
  upFailed : Bool := false
  acc : Tab (List (BitVec 32)) := []
  contrib : Tab Nat := []
  staged : List (Nat × Frame) := []
  tally : List Nat := []
  scratch : List (Nat × Nat) := []
  done : Bool := false
deriving DecidableEq, Repr

/-- States of an instance context (R352), in the code order of R357. -/
inductive CState where
  | free | opened | closed | abandoned
deriving DecidableEq, Repr

/-- An instance context (R323, R352, R357) with the group entry in force when it was opened. -/
structure Coll where
  st : CState := .free
  grp : Group := {}
  cause : Nat := 0
  op : Nat := 0
  tfmt : Nat := 0
  prot : Bool := false
  source : Nat := 0
  home : Option Nat := none
  chunks : List Chunk := []
  count : Nat := 0
  failed : List Nat := []
  idleAt : Nat := 0
  stateAt : Nat := 0
  minContrib : Option Nat := none
  kept : List Kept := []
deriving DecidableEq, Repr

/-- The collective function of the HC-8. Instances are keyed by GROUP × 2^24 + GEPOCH × 2^16 + INSTANCE. -/
structure Twine where
  groups : Tab Group := []
  insts : Tab Coll := []
  peak : Nat := 0
  pointer : Nat := 0
  discards : Tab Nat := []
  abandoned : Nat := 0
deriving DecidableEq, Repr

/-! ### Stalls and the pool (09_session_stalls.md) -/

/-- States of a stall (R391), in the code order of R399. -/
inductive SState where
  | empty | filling | parked | recalling | damaged
deriving DecidableEq, Repr

/-- A compressed block (R373): KIND, NONFINITE and dictionary fields of its header, and its body. -/
structure CBlock where
  kind : Nat
  nonfinite : Bool
  hiD : Option Nat
  loD : Option Nat
  body : List Byte
deriving DecidableEq, Repr

/-- A page of a stall's page list with its contents (R375, R392). -/
structure StallPage where
  page : Nat
  first : Nat
  positions : Nat
  lost : Bool
  blocks : List CBlock
deriving DecidableEq, Repr

/-- A staged block (R368): the 32-byte units that have arrived by place, and its compressed form. -/
structure Staged where
  units : Tab (List Byte) := []
  packed : Option CBlock := none
deriving DecidableEq, Repr

/-- A stall-table entry (R363, R399). -/
structure Stall where
  st : SState := .empty
  gen : Nat := 0
  comp : Nat := 0
  elem : Nat := 0
  stride : Nat := 0
  budget : Nat := 0
  timeout : Nat := 0
  positions : Nat := 0
  endPos : Option Nat := none
  pages : List StallPage := []
  staged : Tab Staged := []
  stage : List (Nat × Nat) := []
  halt : Bool := false
  nonfinite : Bool := false
  discards : Nat := 0
  idleAt : Nat := 0
  source : Nat := 0
  chanPtr : Option Nat := none
deriving DecidableEq, Repr

/-- A recall frame as a target was sent it (R383): its bytes in the stall, and the flow and FLOW_SEQ that a notice names. -/
structure SentPiece where
  off : Nat
  len : Nat
  dst : Nat
  chan : Nat
  seq : Nat
deriving DecidableEq, Repr

/-- A running recall (R376 to R383). `carry` is what has been read and decompressed of pieces not yet whole, by offset. -/
structure Recall where
  stall : Nat
  tag : Nat
  first : Nat
  count : Nat
  targets : List Nat
  chan : Nat
  linger : Nat
  release : Bool
  pmax : Nat
  asics : List Nat
  sets : List Nat
  page : Nat := 0
  next : Nat := 0
  damaged : Bool := false
  carry : List (Nat × List Byte) := []
  sent : List SentPiece := []
  resent : List (Nat × Nat) := []
  lostTargets : List Nat := []
  firstLost : Option Nat := none
  lostCount : Nat := 0
  granted : Bool := true
  handedAt : Option Nat := none
deriving DecidableEq, Repr

/-- The pool (R361, R384 to R387, R402, R461). `replaced` names the page of the stall region that stands for each retired
page of another region (R362); `reads` is what the reads of the command that runs find, in order (R384): 0 good, 1
corrected, 2 good at the second read, else lasting; none named is good. -/
structure Pool where
  spillGib : Nat := 48
  scratchGib : Nat := 12
  stalls : Tab Stall := []
  recalls : List Recall := []
  retired : List Nat := []
  retiredNow : List Nat := []
  replaced : List (Nat × Nat) := []
  reads : List Nat := []
  corrections : Tab (List Nat) := []
  copying : List (Nat × Nat × Bool) := []
  corrected : Nat := 0
  transient : Nat := 0
  lasting : Nat := 0
  patrols : Nat := 0
  patrolAt : Option Nat := none
  patrolled : List Nat := []
  passDone : Bool := false
  pushDiscards : Tab Nat := []
  lateNotices : Nat := 0
  low : Bool := false
  stackRead : Tab Nat := []
  hot : List Nat := []
  retrain : Bool := false
deriving DecidableEq, Repr

/-! ### The annealing engine (10_annealing_engine.md) -/

/-- States of a problem slot (R419), in the code order of R437. -/
inductive NState where
  | empty | loading | ready | queued | running | done
deriving DecidableEq, Repr

/-- The result of a run (R438, R439). -/
structure AResult where
  outcome : Nat := 0
  steps : Nat := 0
  sweeps : Nat := 0
  flips : Nat := 0
  eStart : Int := 0
  eFinal : Int := 0
  bestStep : Nat := 0
  satCount : Nat := 0
  ns : Nat := 0
  spins : List Bool := []
  pos : List Int := []
deriving DecidableEq, Repr

/-- A problem slot (R418). -/
structure Slot where
  st : NState := .empty
  image : Tab Byte := []
  covered : List (Nat × Nat) := []
  conflicts : Nat := 0
  seed : Nat := 0
  result : AResult := {}
deriving DecidableEq, Repr

/-- The annealing engine (R418, R437). `ran` is the engine time in ns before the present stretch, `since` the clock
tick at which that stretch began, `stopAt` the engine time at which a stop was asked for, `faultAt` the step and the class
pass at which the run meets a lasting parity error (R426). -/
structure Anneal where
  slots : Tab Slot := []
  order : List Nat := []
  running : Option Nat := none
  paused : Bool := false
  ran : Nat := 0
  since : Nat := 0
  stopAt : Option Nat := none
  faultAt : Option (Nat × Nat) := none
  runs : Nat := 0
  transient : Nat := 0
  lasting : Nat := 0
deriving DecidableEq, Repr

/-! ### Power (11_power_ledger.md) -/

/-- Settings of POWER_CONFIG_SET (R470). -/
structure PowerCfg where
  cap : Nat := 4600
  bank : Nat := 64
  debt : Nat := 16
  recover : Nat := 1024
  imbalance : Nat := 25
  migrate : Nat := 4096
deriving DecidableEq, Repr

/-- The power ledger, the domains, the levels and the sensors (R441 to R478). `history` holds the measured energy of
the last 64 turns, newest first; `inlet` the readings of sensor 26 with their turn boundaries, newest first;
`packers` the deferred plane packers; `avsAt`, `avsTarget` and `avsMoved` the voltage loop's last reading, its target
and its last change. -/
structure Power where
  on : List Nat := []
  ramping : Option Nat := none
  cfg : PowerCfg := {}
  cfgNext : Option PowerCfg := none
  balance : Int := 0
  granted : Nat := 0
  forced : Nat := 0
  measured : Nat := 0
  history : List Nat := []
  avail : Int := 0
  deferred : Nat := 0
  deferTurns : Nat := 0
  setLevel : Nat := 0
  ledgerLevel : Nat := 0
  thermalLevel : Nat := 0
  level : Nat := 0
  ledgerStepAt : Option Nat := none
  thermalStepAt : Option Nat := none
  bankRun : Nat := 0
  coolRun : Nat := 0
  overCap : Bool := false
  overCapAt : Option Nat := none
  sensorFault : Bool := false
  badRun : Nat := 0
  goodRun : Nat := 0
  coolantFault : Bool := false
  hotDefer : List Nat := []
  sensors : Tab (Int × Bool) := []
  overlays : Tab Int := []
  overlaysNext : List (Nat × Int) := []
  vdd : Tab Nat := []
  avsAt : Tab Nat := []
  avsTarget : Tab Nat := []
  avsMoved : Tab Nat := []
  inlet : List (Nat × Int) := []
  freqAt : Option Nat := none
  energyRem : Tab Nat := []
  packers : List Nat := []
  copyGranted : Bool := true
  migrateGranted : Bool := true
  patrolGranted : Bool := true
deriving DecidableEq, Repr

/-! ### Crier and the domain ledger (12_crier_and_agreement.md) -/

/-- A Crier frame (R511) as queued for sending. -/
structure CFrame where
  dst : Nat
  typ : Nat
  bcast : Bool
  payload : List Byte
deriving DecidableEq, Repr

/-- The Crier channel (R485 to R488, R510, R514, R515). `sendEnd` is the clock tick at which the frame in transmission
ends, `slotSent` the first turn of the slot last used, `foreignAt` the boundary at which carrier from another tray was
last heard, `quietAt` the clock tick at which carrier was last present, `waitEnd` that at which a wait in backoff mode
ends, `ledgerAt` the boundary of the last LEDGER frame in backoff mode. -/
structure Crier where
  enable : Bool := true
  blankLevel : Nat := 64
  blankHold : Nat := 16
  slotted : Bool := false
  queue : List CFrame := []
  sending : Option CFrame := none
  sendEnd : Nat := 0
  slotSent : Option Nat := none
  lfsr : Nat := 1
  seq : Nat := 0
  tx : Nat := 0
  rx : Nat := 0
  crcFail : Nat := 0
  erased : Nat := 0
  discarded : Nat := 0
  slotsLost : Nat := 0
  gainOverlay : Int := 0
  carrierOverlay : Int := 0
  noise : Nat := 0
  foreignAt : Option Nat := none
  quietAt : Option Nat := none
  waitEnd : Option Nat := none
  ledgerAt : Option Nat := none
deriving DecidableEq, Repr

/-- A ledger record held (R493, R512, R518): its ten words, carrier, receipt and offset. -/
structure Record where
  words : List W32
  viaCrier : Bool
  rxTurn : Nat
  rxBound : Nat
  offset : Option Int
deriving DecidableEq, Repr

/-- The domain ledger (R489 to R507, R519). `peersNext` is a peer set stored and not yet in effect (R517); `older` are the
records that stood before the turn in which a peer's latest came (R495). -/
structure Ledger where
  peers : List Nat := []
  peersNext : Option (List Nat) := none
  own : Option Record := none
  records : Tab (Option Record) := []
  older : Tab (Option Record) := []
  voters : Nat := 1
  quorum : Bool := true
  tie : Bool := false
  timeMinority : Bool := false
  versionMinority : Bool := false
  planDiffer : Bool := false
  epochDiffer : Bool := false
  prevailing : Option Nat := none
  lastCheck : Nat := 0
  compared : Bool := false
  agrees : Bool := false
  discarded : Nat := 0
  ties : Nat := 0
  silent : List Nat := []
  stepBy : Option Int := none
deriving DecidableEq, Repr

/-! ### The front panel (13_front_panel_and_service.md) -/

/-- A contact (R521): its recognised state and the run of samples that differ from it. -/
structure Contact where
  closed : Bool := false
  run : Nat := 0
deriving DecidableEq, Repr

/-- A button (R522, R547): its contact, the boundary at which its press was recognised, whether it is not acted on
until released, whether the hold and the stuck press were acted on, and whether a short press awaits its action. -/
structure Button where
  contact : Contact := {}
  pressedAt : Option Nat := none
  ignore : Bool := false
  holdDone : Bool := false
  stuck : Bool := false
  shortDue : Bool := false
deriving DecidableEq, Repr

/-- A cartridge bay (R528 to R537, R543, R550, R676). `openDue`, `closeDue` and `goneDue` are recognitions that await
their action; `askEnd` is the boundary at which a pending ask expires, `find` that at which the find indication ends,
0 for none. -/
structure Bay where
  ask : Button := {}
  latch : Contact := {}
  presence : Contact := {}
  openDue : Bool := false
  closeDue : Bool := false
  goneDue : Bool := false
  supplied : Bool := true
  idOk : Bool := false
  idBad : Bool := false
  record : Option (List Byte) := none
  settleAt : Option Nat := none
  reads : Nat := 0
  seated : Bool := false
  released : Bool := false
  surprise : Bool := false
  askEnd : Option Nat := none
  deniedAt : Option Nat := none
  find : Option Nat := none
deriving DecidableEq, Repr

/-- The front panel (R521 to R539, R552, R553). `lampTest` is the boundary at which a lamp test began. -/
structure Panel where
  find : Button := {}
  latch : Contact := { closed := true }
  liftDue : Bool := false
  dropDue : Bool := false
  bays : Tab Bay := []
  trayFind : Option Nat := none
  lampTest : Option Nat := none
  safe : Bool := false
  tripped : Bool := false
  seatTrain : Bool := true
  askTimeout : Nat := 64
  findTimeout : Nat := 8
  ignored : Nat := 0
deriving DecidableEq, Repr

/-! ### Tray states and firmware (14_startup_and_states.md) -/

/-- Tray states, in the code order of R558. -/
inductive TState where
  | off | aon | auth | core | pool | switches | lanes | reel | join | standby | admitted | unscheduled | service
deriving DecidableEq, Repr

/-- What follows the running commands (R571, R573, R587): a warm restart once the long commands have ended, the restart
itself, or a power-down, for a cold restart with a wake condition at its end. -/
inductive Restart where
  | none | warm | warming | down | cold
deriving DecidableEq, Repr

/-- The declared role (R55). -/
structure Role where
  role : Nat
  gcount : Nat
  group : Nat
  position : Nat
  endpoints : Nat
  pods : Nat
  traysM1 : Nat
deriving DecidableEq, Repr

/-- The tray as a whole (R39, R52, R55, R558, R586, R649, R666). `strapsRead` is false until AON power-up has read the
straps; `booting` holds from a wake condition to STANDBY; `stepAt` and `stepFrom` are the clock tick and the turn
boundary at which the present boot step's attempt began, `stepTries` its failed attempts and `failed` the domains that
the boot gave up; `wakeAt` is the clock tick of the wake condition, `pumpOffAt` that at which the pump goes off. -/
structure Tray where
  st : TState := .aon
  number : Nat := 0
  strapsRead : Bool := false
  dup : Bool := false
  role : Option Role := none
  returnSt : TState := .off
  halted : Bool := false
  haltCause : Nat := 0
  recovery : Bool := false
  restart : Restart := .none
  restartAt : Nat := 0
  restartTry : Nat := 0
  powerDown : Bool := false
  booting : Bool := false
  stepAt : Nat := 0
  stepFrom : Nat := 0
  stepTries : Nat := 0
  failed : List Nat := []
  lastWake : Nat := 0
  wakeAt : Nat := 0
  bootMs : Nat := 0
  warmRestarts : Nat := 0
  stepFaults : Nat := 0
  sticky : BitVec 32 := 0
  jtag : Bool := false
  pumpOffAt : Option Nat := none
  brownOut : Bool := false
deriving DecidableEq, Repr

/-- One firmware image slot in flash (R560, R582): whether an erase has replaced what was found, the free number whose
bytes an erased slot shows where nothing is written, and the bytes written. -/
structure Image where
  erased : Bool := false
  fill : Nat := 0
  bytes : Tab (Option Byte) := []
  verified : Bool := false
deriving DecidableEq, Repr

/-- Firmware slots (R560 to R562, R582 to R585): `write` is the data of an FW_WRITE whose erase runs. -/
structure Fw where
  s0 : Image := {}
  s1 : Image := {}
  running : Bool := false
  selected : Bool := false
  fellBack : Bool := false
  write : List Byte := []
deriving DecidableEq, Repr

/-! ### Mailboxes (15_mailboxes.md) -/

/-- States of a mailbox (R595), in the code order of R619. -/
inductive MState where
  | idle | queued | executing | done
deriving DecidableEq, Repr

/-- Mailbox sources and carriers (R593). -/
inductive Via where
  | pcie | fabric | crier
deriving DecidableEq, Repr

/-- One mailbox (R592 to R597, R607, R608): its state, source, vector, owner, the origin of its command
and the response kept for repeats. -/
structure Mbox where
  st : MState := .idle
  source : Via := .pcie
  vector : Nat := 0
  owner : Nat := 0
  via : Via := .pcie
  origin : Nat := 0
  tag : Nat := 0
  chan : Nat := 0
  kept : Option (List Byte) := none
deriving DecidableEq, Repr

/-- A running long command (R601): its mailbox, opcode, subject and the clock tick of its limit. -/
structure Long where
  mb : Nat
  opcode : Nat
  subject : Nat
  limit : Nat
  attempts : Nat
deriving DecidableEq, Repr

/-- A running remote call (R610). -/
structure RCall where
  mb : Nat
  viaCrier : Bool
  tray : Nat
  tag : Nat
deriving DecidableEq, Repr

/-- The mailboxes. The buffers are one byte memory: mailbox n at address 0x1000 × n (R592). `writes` and
`wipe` collect what the step in progress does to that memory; the step's end commits them. -/
structure Mail where
  boxes : Tab Mbox := []
  mem : List Host.Cell := []
  writes : List (Nat × List Byte) := []
  wipe : Bool := false
  order : List Nat := []
  long : List Long := []
  calls : List RCall := []
  done : BitVec 32 := 0
  irqEn : BitVec 32 := 0
  rejects : Nat := 0
  gen : Nat := 0
  accepted : Nat := 0
  remoteBusy : Nat := 0
  remoteDup : Nat := 0
  remoteDisc : Nat := 0
  transient : Nat := 0
  faults : Nat := 0
deriving DecidableEq, Repr

/-! ### Registers, counters and events (16_registers_counters_events.md) -/

/-- An event raised in the step in progress (R640). -/
structure Raised where
  code : Nat
  detail : BitVec 128
deriving DecidableEq, Repr

/-- An event record (R653). -/
structure EvRec where
  code : Nat := 0
  lostBefore : Nat := 0
  seq : Nat := 0
  turn : Nat := 0
  tick : Nat := 0
  timeValid : Bool := false
  detail : BitVec 128 := 0
deriving DecidableEq, Repr

/-- Events: the ring registers, the host memory that the tray has written (`ring`, byte by byte), the backlog and the
records held in AON (R637 to R647, R650). `batch` collects what the step in progress raises. `msixOn`, `vecHush`, `vecMask` and `vecPend`
are the MSI-X enable, the function mask, and the mask and pending bits of the 32 vectors, which follow PCI Express 5.0
(R596; log entry 15). -/
structure Events where
  batch : List Raised := []
  enable : Bool := false
  sizeLog : Nat := 10
  vector : Nat := 0
  baseLo : W32 := 0
  baseHi : W32 := 0
  write : Nat := 0
  read : Nat := 0
  modCount : Nat := 1
  modTurns : Nat := 0
  rangeEn : BitVec 11 := 0x7FF
  lost : Nat := 0
  masked : Nat := 0
  nextSeq : Nat := 0
  cfgError : Bool := false
  overflow : Bool := false
  busMaster : Bool := false
  msixOn : Bool := false
  vecHush : Bool := false
  vecMask : BitVec 32 := 0xFFFFFFFF
  vecPend : BitVec 32 := 0
  lostRun : Nat := 0
  backlog : List EvRec := []
  held : List EvRec := []
  ring : Tab Byte := []
  unsignalled : Nat := 0
  oldestAt : Nat := 0
deriving DecidableEq, Repr

/-- Counters (R630 to R636, R651): 64-bit counters by page key, the additions of the last 64 turns for the
windowed status counters, the window registers, the frozen copy and the BAR0 shadow. -/
structure Counters where
  live : Tab Nat := []
  recent : List (Nat × Nat × Nat) := []
  select : W32 := 0
  snap : Bool := false
  frozen : List Nat := []
  snapTurn : Nat := 0
  snapTick : Nat := 0
  shadow : W32 := 0
  lastRead : W32 := 0
deriving DecidableEq, Repr

/-- What leaves the tray: the outside world's view of the steps taken, newest first (the model's own
record; nothing reads it). -/
inductive Out where
  | msix (vector : Nat)
  | frame (unit : Nat) (f : Frame) (stomped : Bool) (lseq : Nat)
  | crier (bytes : List Byte) (tones : List Nat)
  | nak (unit : Nat) (seq : Nat)
  | pair (unit lcw : Nat) (stream : List Byte)
  | block (unit : Nat) (markers : List Nat)
  | lane (unit lane : Nat) (levels : List Int)
  | reelMarker
  | reelFrame (bits : BitVec 128)
deriving DecidableEq, Repr

/-- The state of the tray. `pending` is the queue of commands that wait (the model's interface), `once`
holds the last boundary at which a rate-limited event was raised, `free` numbers the free values drawn. -/
structure State where
  pending : List Instr := []
  reel : Reel := {}
  sched : List Sched := []
  tray : Tray := {}
  ports : Tab Port := []
  links : Tab Link := []
  punits : Tab PortUnit := []
  units : Tab UnitAux := []
  asics : Tab Asic := []
  eq : Tab EqBlock := []
  fwd : Fwd := {}
  plan : Plan := {}
  twine : Twine := {}
  pool : Pool := {}
  anneal : Anneal := {}
  power : Power := {}
  crier : Crier := {}
  ledger : Ledger := {}
  panel : Panel := {}
  fw : Fw := {}
  mail : Mail := {}
  ev : Events := {}
  ctr : Counters := {}
  once : Tab Nat := []
  free : Nat := 0
  out : List Out := []
deriving DecidableEq, Repr

/-- Faults of the model. No command of the block ends in one: every row of the table answers a next
state, so this reason is raised by nobody (safe: it only names the type). -/
inductive Fault where
  /-- Raised by nobody; safe. -/
  | none
deriving DecidableEq, Repr

/-- Refusals of the model. -/
inductive Refusal where
  /-- A command whose meaning is not written yet: raised by an arm of exec; safe. -/
  | notModelled (mnemonic : String)
deriving DecidableEq, Repr

/-- Right after reset: AON power has just come up, the tray is in state AON, only the AON domain is
powered, and every register stands at the Reset column of its table (R25, R586). -/
def State.reset : State := {}

end Sys2Proof.Machine
end

