-- ==== Sys2Proof/Machine/Ops.lean ====
section
/-! DEFINITION. The named operations that every meaning is built from: numbers and fields, byte order and
checks, sparse tables and memories, unit addresses, counters, events, scheduled actions and the end of a step. -/

namespace Sys2Proof.Machine

open Sys2Proof

/-- What a command answers. -/
abbrev Result := Host.Outcome State Fault Refusal

/-! ### Numbers and fields (R22, R23) -/

/-- Bits hi down to lo of a word. -/
def fld (w hi lo : Nat) : Nat := w / 2 ^ lo % 2 ^ (hi + 1 - lo)

/-- A value placed at bits hi down to lo of a word, the other bits 0. -/
def put (hi lo v : Nat) : Nat := v % 2 ^ (hi + 1 - lo) * 2 ^ lo

/-- One bit as a truth value. -/
def bit (w n : Nat) : Bool := fld w n n == 1

/-- The two's complement value of an n-bit field. -/
def sgn (n v : Nat) : Int := if v % 2 ^ n < 2 ^ (n - 1) then (v % 2 ^ n : Nat) else (v % 2 ^ n : Nat) - (2 ^ n : Nat)

/-- The n-bit two's complement field of an integer. -/
def enc (n : Nat) (x : Int) : Nat := (x % (2 ^ n : Nat)).toNat

/-- Saturation of a count to n bits. -/
def sat (n v : Nat) : Nat := min v (2 ^ n - 1)

/-- Saturation of a signed value to n bits. -/
def satI (n : Nat) (x : Int) : Int := max (-(2 ^ (n - 1) : Nat)) (min x ((2 ^ (n - 1) : Nat) - 1))

/-- The clamp of R21. -/
def clampI (lo hi x : Int) : Int := max lo (min x hi)

/-- Division rounded up. -/
def ceilDiv (a b : Nat) : Nat := (a + b - 1) / b

/-- The mask of a list of bit numbers. -/
def maskOf (l : List Nat) : Nat := l.foldl (fun m n => if m.testBit n then m else m + 2 ^ n) 0

/-- The numbers below n that satisfy a test, ascending. -/
def numbers (n : Nat) (p : Nat → Bool) : List Nat := (List.range n).filter p

/-- (a − b) mod 2^48, the distance between two turns (R72). -/
def tsub (a b : Nat) : Nat := (a % 2 ^ 48 + 2 ^ 48 - b % 2 ^ 48) % 2 ^ 48

/-- A turn is reached once it does not lie ahead of the count (R72 reads turns modulo 2^48). -/
def reached (t now : Nat) : Bool := tsub now t < 2 ^ 47

/-- a is before b among sequence numbers of n bits (R226). -/
def seqBefore (n a b : Nat) : Bool :=
  let d := (b + 2 ^ n - a % 2 ^ n) % 2 ^ n
  decide (1 ≤ d) && decide (d ≤ 2 ^ (n - 1) - 1)

/-- Stable sorting by insertion. -/
def insertBy {α : Type} (le : α → α → Bool) (a : α) : List α → List α
  | [] => [a]
  | b :: t => if le a b then a :: b :: t else b :: insertBy le a t

/-- Stable sorting of a list by a relation "not after". -/
def sortBy {α : Type} (le : α → α → Bool) (l : List α) : List α := l.foldr (insertBy le) []

/-- The first element with the least key. -/
def leastBy {α : Type} (key : α → Nat) : List α → Option α
  | [] => none
  | a :: t => match leastBy key t with
    | none => some a
    | some b => if key a ≤ key b then some a else some b

/-- A list with one entry replaced. -/
def setAt {α : Type} (l : List α) (n : Nat) (a : α) : List α := l.set n a

/-! ### Byte order (R26, R27) -/

/-- The n low bytes of a number, least significant first. -/
def leBytes : Nat → Nat → List Byte
  | 0, _ => []
  | n + 1, v => BitVec.ofNat 8 v :: leBytes n (v / 256)

/-- The n low bytes of a number, most significant first. -/
def beBytes (n v : Nat) : List Byte := (leBytes n v).reverse

/-- The number that bytes spell, least significant first. -/
def ofLe : List Byte → Nat
  | [] => 0
  | b :: t => b.toNat + 256 * ofLe t

/-- The number that bytes spell, most significant first. -/
def ofBe (bs : List Byte) : Nat := bs.foldl (fun a b => a * 256 + b.toNat) 0

/-- Words as little-endian bytes. -/
def leWords (ws : List Nat) : List Byte := ws.flatMap (leBytes 4)

/-- Words as big-endian bytes. -/
def beWords (ws : List Nat) : List Byte := ws.flatMap (beBytes 4)

/-- Word i of a little-endian block. -/
def wordLe (bs : List Byte) (i : Nat) : Nat := ofLe ((bs.drop (4 * i)).take 4)

/-- Word i of a big-endian block. -/
def wordBe (bs : List Byte) (i : Nat) : Nat := ofBe ((bs.drop (4 * i)).take 4)

/-- A block of n zero bytes. -/
def zeros (n : Nat) : List Byte := List.replicate n 0

/-! ### Checks -/

/-- One bit of an unreflected CRC of width n. -/
def crcBit (n poly c : Nat) : Nat := if c.testBit (n - 1) then (c * 2 % 2 ^ n) ^^^ poly else c * 2 % 2 ^ n

/-- One byte of an unreflected CRC of width n. -/
def crcByte (n poly c : Nat) (b : Byte) : Nat := (crcBit n poly)^[8] (c ^^^ (b.toNat * 2 ^ (n - 8)))

/-- CRC-8, polynomial 0x07 (R134, R168). -/
def crc8 (bs : List Byte) : Nat := bs.foldl (crcByte 8 0x07) 0

/-- CRC-16, polynomial 0x1021, initial 0xFFFF (R96, R169, R225). -/
def crc16 (bs : List Byte) : Nat := bs.foldl (crcByte 16 0x1021) 0xFFFF

/-- CRC-64/ECMA-182 (R308). -/
def crc64 (bs : List Byte) : Nat := bs.foldl (crcByte 64 0x42F0E1EBA9EA3693) 0

/-- One bit of the reflected CRC-32C. -/
def crc32cBit (c : Nat) : Nat := if c.testBit 0 then (c / 2) ^^^ 0x82F63B78 else c / 2

/-- CRC-32C, reflected, initial and final XOR 0xFFFFFFFF (R171). -/
def crc32c (bs : List Byte) : Nat :=
  bs.foldl (fun c b => crc32cBit^[8] (c ^^^ b.toNat)) 0xFFFFFFFF ^^^ 0xFFFFFFFF

/-! ### Sparse tables -/

/-- What a table holds at a key; d where nothing is listed. -/
def tabGet {α : Type} (d : α) : Tab α → Nat → α
  | [], _ => d
  | (k', v) :: t, k => if k' = k then v else tabGet d t k

/-- A table with one key set, in canonical form: keys rising, no value equal to d. -/
def tabSet {α : Type} [DecidableEq α] (d : α) : Tab α → Nat → α → Tab α
  | [], k, v => if v = d then [] else [(k, v)]
  | (k', v') :: t, k, v =>
    if k < k' then (if v = d then (k', v') :: t else (k, v) :: (k', v') :: t)
    else if k = k' then (if v = d then t else (k, v) :: t)
    else (k', v') :: tabSet d t k v

/-- A table with one key changed. -/
def tabMod {α : Type} [DecidableEq α] (d : α) (t : Tab α) (k : Nat) (f : α → α) : Tab α :=
  tabSet d t k (f (tabGet d t k))

/-- The canonical form of a table. -/
def tabWf {α : Type} [DecidableEq α] (d : α) : Tab α → Bool
  | [] => true
  | [(_, v)] => decide (v ≠ d)
  | (k, v) :: (k', v') :: t => decide (v ≠ d) && decide (k < k') && tabWf d ((k', v') :: t)

/-- A table without the keys that a test names. -/
def tabDrop {α : Type} (p : Nat → Bool) (t : Tab α) : Tab α := t.filter fun e => !p e.1

/-- Bytes written from an address on. -/
def tabWrite (m : Tab Byte) : Nat → List Byte → Tab Byte
  | _, [] => m
  | a, b :: t => tabWrite (tabSet 0 m a b) (a + 1) t

/-- n bytes read from an address on. -/
def tabRead (m : Tab Byte) (a n : Nat) : List Byte := (List.range n).map fun i => tabGet 0 m (a + i)

/-! ### The mailbox buffers as memory (R592) -/

/-- One byte of the mailbox buffers; a byte that nothing has written reads 0. -/
def memGet (m : List Host.Cell) (a : Nat) : Byte := tabGet 0 m a

/-- The buffers with bytes written from an address on. -/
def memWrite (m : List Host.Cell) (a : Nat) (bs : List Byte) : List Host.Cell := tabWrite m a bs

/-- The canonical form of the buffers: addresses strictly rising, no zero byte listed. -/
def Memory.wf (m : List Host.Cell) : Bool := tabWf (0 : Byte) m

/-- The buffers after the writes that a step collected. -/
def memCommit (m : List Host.Cell) (ws : List (Nat × List Byte)) : List Host.Cell :=
  ws.foldl (fun m w => memWrite m w.1 w.2) m

/-- A write to the buffers, committed at the end of the step. -/
def bufWrite (a : Nat) (bs : List Byte) (s : State) : State :=
  { s with mail := { s.mail with writes := s.mail.writes ++ [(a, bs)] } }

/-! ### Parts of the state -/

def modReel (f : Reel → Reel) (s : State) : State := { s with reel := f s.reel }
def modTray (f : Tray → Tray) (s : State) : State := { s with tray := f s.tray }
def modFwd (f : Fwd → Fwd) (s : State) : State := { s with fwd := f s.fwd }
def modPlan (f : Plan → Plan) (s : State) : State := { s with plan := f s.plan }
def modTwine (f : Twine → Twine) (s : State) : State := { s with twine := f s.twine }
def modPool (f : Pool → Pool) (s : State) : State := { s with pool := f s.pool }
def modAnneal (f : Anneal → Anneal) (s : State) : State := { s with anneal := f s.anneal }
def modPower (f : Power → Power) (s : State) : State := { s with power := f s.power }
def modCrier (f : Crier → Crier) (s : State) : State := { s with crier := f s.crier }
def modLedger (f : Ledger → Ledger) (s : State) : State := { s with ledger := f s.ledger }
def modPanel (f : Panel → Panel) (s : State) : State := { s with panel := f s.panel }
def modFw (f : Fw → Fw) (s : State) : State := { s with fw := f s.fw }
def modMail (f : Mail → Mail) (s : State) : State := { s with mail := f s.mail }
def modEv (f : Events → Events) (s : State) : State := { s with ev := f s.ev }
def modCtr (f : Counters → Counters) (s : State) : State := { s with ctr := f s.ctr }

/-- Apply an operation to the state for each element of a list, in order. -/
def forAll {α : Type} (l : List α) (f : α → State → State) (s : State) : State :=
  l.foldl (fun s a => f a s) s

/-- Apply an operation where a condition holds. -/
def onlyIf (c : Bool) (f : State → State) (s : State) : State := if c then f s else s

/-! ### Unit addresses (R261, R29 to R33) -/

def unitOf (asic port : Nat) : Nat := asic * 128 + port
def hc8End (u : Nat) : Nat := 2 ^ 15 + u % 2 ^ 15
def asicEnd (u : Nat) : Nat := u % 2 ^ 15
def portEndOf (asic port : Nat) (hc8 : Bool) : Nat := if hc8 then hc8End (unitOf asic port) else unitOf asic port
def cartUnit (bay : Nat) : Nat := 2 ^ 13 + bay * 512
def asicUnit (asic : Nat) : Nat := 2 * 2 ^ 13 + asic * 128
def trayUnit : Nat := 3 * 2 ^ 13
def uSide (u : Nat) : Nat := fld u 15 15
def uKind (u : Nat) : Nat := fld u 14 13
def uBay (u : Nat) : Nat := fld u 12 9
def uAsic (u : Nat) : Nat := fld u 8 7
def uPort (u : Nat) : Nat := fld u 6 0

/-- HC-8 fabric interface n is the HC-8 end of controller port 72 + n mod 8 of ASIC n div 8 (R33). -/
def ifcUnit (n : Nat) : Nat := hc8End (unitOf (n / 8 % 4) (72 + n % 8))

/-- A port end: an ASIC end, or the HC-8 end of a controller port. -/
def isPortEnd (u : Nat) : Bool :=
  decide (u < 2 ^ 16) && uKind u == 0 && uBay u == 0 && decide (uPort u < 92) &&
    (uSide u == 0 || (decide (72 ≤ uPort u) && decide (uPort u < 80)))

def isFront (p : Nat) : Bool := decide (p < 72)
def isCtrl (p : Nat) : Bool := decide (72 ≤ p) && decide (p < 80)
def isSibling (p : Nat) : Bool := decide (80 ≤ p) && decide (p < 92)

/-- The bay of a front port (R31). -/
def bayOf (asic port : Nat) : Nat := 4 * asic + port / 18

/-- The front ports of a bay, as units (R31). -/
def bayPorts (bay : Nat) : List Nat := (List.range 18).map fun i => unitOf (bay / 4) (bay % 4 * 18 + i)

/-- The k-th other ASIC of an ASIC, ascending (R32). -/
def otherAsic (asic k : Nat) : Nat := if k < asic then k else k + 1

/-- The ASIC that a sibling port leads to (R32). -/
def siblingAsic (asic port : Nat) : Nat := otherAsic asic ((port - 80) / 4)

/-- The four sibling ports of an ASIC that lead to another (R32). -/
def siblingPorts (asic dst : Nat) : List Nat :=
  let k := if dst < asic then dst else dst - 1
  (List.range 4).map fun j => 80 + 4 * k + j

/-- The far end of a sibling port (R32). -/
def siblingFar (asic port : Nat) : Nat :=
  let b := siblingAsic asic port
  let k' := if asic < b then asic else asic - 1
  unitOf b (80 + 4 * k' + (port - 80) % 4)

/-- All ASIC ends of an ASIC. -/
def asicPorts (asic : Nat) : List Nat := (List.range 92).map (unitOf asic)

/-- Both ends of a controller port; a port alone otherwise. -/
def bothEnds (u : Nat) : List Nat := if isCtrl (uPort u) then [asicEnd u, hc8End u] else [u]

def port (s : State) (u : Nat) : Port := tabGet {} s.ports u
def setPort (u : Nat) (p : Port) (s : State) : State := { s with ports := tabSet {} s.ports u p }
def modPort (u : Nat) (f : Port → Port) (s : State) : State := { s with ports := tabMod {} s.ports u f }
def link (s : State) (u : Nat) : Link := tabGet {} s.links u
def modLink (u : Nat) (f : Link → Link) (s : State) : State := { s with links := tabMod {} s.links u f }
def punit (s : State) (u : Nat) : PortUnit := tabGet {} s.punits u
def modPunit (u : Nat) (f : PortUnit → PortUnit) (s : State) : State := { s with punits := tabMod {} s.punits u f }
def unitAux (s : State) (u : Nat) : UnitAux := tabGet {} s.units u
def modAux (u : Nat) (f : UnitAux → UnitAux) (s : State) : State := { s with units := tabMod {} s.units u f }
def asicSt (s : State) (a : Nat) : Asic := tabGet {} s.asics a
def modAsic (a : Nat) (f : Asic → Asic) (s : State) : State := { s with asics := tabMod {} s.asics a f }
def bay (s : State) (b : Nat) : Bay := tabGet {} s.panel.bays b
def modBay (b : Nat) (f : Bay → Bay) (s : State) : State :=
  modPanel (fun p => { p with bays := tabMod {} p.bays b f }) s

/-- Lane k of a port end. -/
def laneOf (p : Port) : Nat → Lane
  | 0 => p.l0
  | 1 => p.l1
  | 2 => p.l2
  | _ => p.l3

/-- A port end with one lane changed. -/
def modLaneOf (p : Port) (k : Nat) (f : Lane → Lane) : Port :=
  match k with
  | 0 => { p with l0 := f p.l0 }
  | 1 => { p with l1 := f p.l1 }
  | 2 => { p with l2 := f p.l2 }
  | _ => { p with l3 := f p.l3 }

/-- The number of lanes of a WIDTH code: x1, x2, x4 (R134). -/
def lanesOf (width : Nat) : Nat := if width = 0 then 1 else if width = 1 then 2 else 4

/-- Every lane of a port end changed alike. -/
def modLanes (p : Port) (f : Nat → Lane → Lane) : Port :=
  { p with l0 := f 0 p.l0, l1 := f 1 p.l1, l2 := f 2 p.l2, l3 := f 3 p.l3 }

/-- Bytes per tick of a port end (R43): 400 at x4 full rate, halved by each step of rate and width. -/
def bytesPerTick (ls : LaneSet) : Nat := 400 / 2 ^ ls.rate / (4 / lanesOf ls.width)

/-- The fifths of a tick that a lane block and a codeword pair take (R105, R106). -/
def blockLen (ls : LaneSet) : Nat := 16 * 2 ^ ls.rate
def pairLen (ls : LaneSet) : Nat := 6400 / bytesPerTick ls

/-- The first boundary of the lane-block grid some fifths of a tick after the present tick or later (R106). -/
def gridFrom (s : State) (ls : LaneSet) (ahead : Nat) : Nat :=
  let g := blockLen ls
  5 * s.reel.clock + ahead + (g - (5 * s.reel.tick + ahead) % g) % g

/-- The number of the lane block that began at a fifth of a tick, within its turn (R107). -/
def blockNumber (s : State) (ls : LaneSet) (began : Nat) : Nat :=
  (5 * s.reel.tick + 20480 - (5 * s.reel.clock - began)) % 20480 / blockLen ls

/-! ### Outputs, free values and limits per turn -/

/-- Something leaves the tray. -/
def emit (o : Out) (s : State) : State := { s with out := o :: s.out }

/-- A vector's messages wait as its pending bit: the vector or the whole function is masked (R596). -/
def hushed (vector : Nat) (s : State) : Bool := s.ev.vecHush || s.ev.vecMask.getLsbD vector

/-- An MSI-X message: only while the host has MSI-X enabled (R616), and pending while its vector is masked (R596). -/
def msix (vector : Nat) (s : State) : State :=
  if s.ev.msixOn then
    if hushed vector s then { s with ev := { s.ev with vecPend := s.ev.vecPend ||| (1#32 <<< vector) } }
    else emit (.msix vector) s
  else s

/-- Draw a free value: the next index of Config.freeValue. -/
def drawFree (s : State) : Nat × State := (Config.freeValue s.free, { s with free := s.free + 1 })

/-- The keys of a limit on how often an event (or an act) occurs, with room for what it is limited by: 2^40 for each
code. The codes 0x0B00 and above belong to acts that have no event. -/
def eventKey (code : Nat) : Nat := code * 0x10000000000

/-- True where the limit once per turn named by a key still allows a record this turn. -/
def firstThisTurn (key : Nat) (s : State) : Bool := tabGet 0 s.once key != s.reel.bounds + 1

/-- Use up the limit once per turn named by a key. -/
def useTurn (key : Nat) (s : State) : State := { s with once := tabSet 0 s.once key (s.reel.bounds + 1) }

/-! ### Counters (R633, R652) -/

/-- The key of counter k of a page: its CW_SELECT word without the reserved bits, and k. -/
def ctrKey (bank asic index side k : Nat) : Nat := (((bank * 4 + asic) * 1024 + index) * 2 + side) * 64 + k

/-- Add to a 64-bit counter of the counter window; it wraps (R633). -/
def count (key n : Nat) (s : State) : State :=
  modCtr (fun c => { c with live := tabMod 0 c.live key fun v => (v + n) % 2 ^ 64 }) s

/-- Add to a counter that a status command also reports over the last 64 turns (R141, R172, R316, R471). -/
def countWin (key n : Nat) (s : State) : State :=
  modCtr (fun c => { c with
    live := tabMod 0 c.live key fun v => (v + n) % 2 ^ 64
    recent := (key, s.reel.bounds, n) :: c.recent }) s

/-- The sum of a counter over the last 64 turns. -/
def windowed (s : State) (key : Nat) : Nat :=
  s.ctr.recent.foldl (fun a e => if e.1 = key ∧ s.reel.bounds < e.2.1 + 64 then a + e.2.2 else a) 0

def laneCtr (u lane k : Nat) : Nat := ctrKey 1 (uAsic u) (4 * uPort u + lane) (uSide u) k
def linkCtr (u k : Nat) : Nat := ctrKey 2 (uAsic u) (uPort u) (uSide u) k
def queueCtr (u cls k : Nat) : Nat := ctrKey 3 (uAsic u) (8 * uPort u + cls) 0 k
def planCtr (u k : Nat) : Nat := ctrKey 4 (uAsic u) (uPort u) 0 k
def fwdCtr (asic k : Nat) : Nat := ctrKey 5 asic 0 0 k
def hc8Ctr (k : Nat) : Nat := ctrKey 6 0 0 0 k
def collCtr (k : Nat) : Nat := ctrKey 7 0 0 0 k
def poolCtr (k : Nat) : Nat := ctrKey 8 0 0 0 k
def stackCtr (stack k : Nat) : Nat := ctrKey 8 0 (1 + stack) 0 k
def powerCtr (k : Nat) : Nat := ctrKey 9 0 0 0 k
def eventCtr (k : Nat) : Nat := ctrKey 10 0 0 0 k

/-! ### Tray state questions -/

/-- The code of a tray state (R558). -/
def stCode : TState → Nat
  | .off => 0 | .aon => 1 | .auth => 2 | .core => 3 | .pool => 4 | .switches => 5 | .lanes => 6
  | .reel => 7 | .join => 8 | .standby => 9 | .admitted => 10 | .unscheduled => 11 | .service => 12

/-- AON power is present. -/
def aonUp (s : State) : Bool := s.tray.st != .off

/-- The HC-8 core domain is on and past AUTH: mailboxes, engines and fabric interfaces hold their state (R563). -/
def coreUp (s : State) : Bool := decide (3 ≤ stCode s.tray.st) && s.power.on.contains 0

/-- The HC-8 runs its firmware: CORE or later, not restarting, not halted and with no recovery window (R563, R570). -/
def fwUp (s : State) : Bool := coreUp s && s.tray.restart != .warming && !s.tray.recovery && !s.tray.halted

/-- A switched domain is on and ready (R441). -/
def domainOn (s : State) (d : Nat) : Bool := s.power.on.contains d && s.power.ramping != some d

/-- The tray's own HC-8 EID (R40). -/
def ownEid (s : State) : Nat := 0xC00 + s.tray.number % 256

/-- The tray carries all classes: ADMITTED, or UNSCHEDULED with return state ADMITTED (R565). -/
def carriesAll (s : State) : Bool :=
  s.tray.st == .admitted || (s.tray.st == .unscheduled && s.tray.returnSt == .admitted)

/-- Set sticky bits of TRAY_STICKY (R649). -/
def stick (n : Nat) (s : State) : State := modTray (fun t => { t with sticky := t.sticky ||| (1#32 <<< n) }) s

/-! ### Events (R637 to R647, R653, R654) -/

/-- Detail items packed from bit 127 downward (R654). -/
def packItems : Nat → List (Nat × Nat) → Nat
  | _, [] => 0
  | pos, (w, v) :: t => v % 2 ^ w * 2 ^ (pos - w) + packItems (pos - w) t

/-- Raise an event with its detail items, each a width and a value. The step's end places it. -/
def raise (code : Nat) (items : List (Nat × Nat)) (s : State) : State :=
  modEv (fun e => { e with batch := e.batch ++ [{ code := code, detail := BitVec.ofNat 128 (packItems 128 items) }] }) s

/-- Raise an event at most once per turn for its key. -/
def raiseOnce (key code : Nat) (items : List (Nat × Nat)) (s : State) : State :=
  if firstThisTurn key s then useTurn key (raise code items s) else s

/-- A time stamped into a detail: a turn takes 48 bits, a count 32 (saturating), a cause 8, a unit 16. -/
def iTurn (t : Nat) : Nat × Nat := (48, t)
def iCount (n : Nat) : Nat × Nat := (32, sat 32 n)
def iCause (n : Nat) : Nat × Nat := (8, n)
def iUnit (u : Nat) : Nat × Nat := (16, u)
def iFlag (b : Bool) : Nat × Nat := (1, b.toNat)

/-- The ring size N (R637). -/
def ringSize (e : Events) : Nat := 2 ^ e.sizeLog

/-- Records in the ring not yet consumed (R638). -/
def ringUsed (e : Events) : Nat := (e.write + 2 ^ 32 - e.read % 2 ^ 32) % 2 ^ 32

/-- Records can be written to the ring now: enabled, Bus Master Enable set, not full, and no warm restart or
recovery window keeps events in the backlog (R643, R644). -/
def ringOpen (s : State) : Bool :=
  s.ev.enable && s.ev.busMaster && decide (ringUsed s.ev < ringSize s.ev) && fwUp s

/-- The 32 bytes of an event record (R653). -/
def recordBytes (r : EvRec) : List Byte :=
  let d := fun k => r.detail.toNat / 2 ^ (96 - 32 * k) % 2 ^ 32
  leWords ([put 31 16 r.code + put 15 8 r.lostBefore + put 3 0 1, r.seq % 2 ^ 32, r.turn % 2 ^ 32,
    put 31 20 r.tick + put 19 19 r.timeValid.toNat + put 15 0 (r.turn / 2 ^ 32), d 0, d 1, d 2, d 3])

/-- The 64 bytes of the status block (R637). -/
def statusBytes (write lost : Nat) : List Byte := leWords [write % 2 ^ 32, lost % 2 ^ 32] ++ zeros 56

/-- Write one record to the ring: slot, EV_WRITE, status block, and the message of R639. -/
def ringWrite (r : EvRec) (s : State) : State :=
  let e := s.ev
  let base := e.baseHi.toNat * 2 ^ 32 + e.baseLo.toNat
  let n := e.unsignalled + 1
  let due := decide (max 1 e.modCount ≤ n)
  let slot := tabWrite e.ring (base + 32 * (e.write % ringSize e)) (recordBytes r)
  let e' := { e with
    ring := tabWrite slot (base + 32 * ringSize e) (statusBytes (e.write + 1) e.lost)
    write := (e.write + 1) % 2 ^ 32
    unsignalled := if due then 0 else n
    oldestAt := if e.unsignalled = 0 then s.reel.bounds else e.oldestAt }
  let s := count (eventCtr 1) 1 { s with ev := e' }
  if due then msix e.vector s else s

/-- An event that finds no room is lost: EV_LOST, OVERFLOW and the count for the next record (R643). -/
def loseEvent (s : State) : State :=
  count (eventCtr 3) 1 (stick 30 (modEv (fun e => { e with
    lost := sat 32 (e.lost + 1), lostRun := e.lostRun + 1, overflow := true }) s))

/-- The record of an event raised now, numbered and with the losses before it (R653). In AON and AUTH the
tray has no time and the record carries turn and tick 0 (R644). -/
def evRecord (s : State) (r : Raised) : EvRec :=
  let timed := coreUp s
  { code := r.code, lostBefore := sat 8 s.ev.lostRun, seq := s.ev.nextSeq,
    turn := if timed then s.reel.turn else 0, tick := if timed then s.reel.tick else 0,
    timeValid := timed && s.reel.timeValid, detail := r.detail }

/-- Place one event (R640, R641, R643, R644): masked, held in AON, in the ring, in the backlog, or lost. -/
def placeEvent (r : Raised) (s : State) : State :=
  let s := count (eventCtr 0) 1 s
  if !(s.ev.rangeEn.toNat.testBit (r.code / 256)) then
    count (eventCtr 2) 1 (modEv (fun e => { e with masked := sat 32 (e.masked + 1) }) s)
  else
    let rec' := evRecord s r
    let s := modEv (fun e => { e with nextSeq := (e.nextSeq + 1) % 2 ^ 32 }) s
    if !coreUp s && !s.tray.recovery then
      if s.ev.held.length < 16 then modEv (fun e => { e with held := e.held ++ [rec'], lostRun := 0 }) s
      else loseEvent s
    else if ringOpen s && s.ev.backlog.isEmpty then
      ringWrite rec' (modEv (fun e => { e with lostRun := 0 }) s)
    else if s.ev.backlog.length < 1024 then
      modEv (fun e => { e with backlog := e.backlog ++ [rec'], lostRun := 0 }) s
    else loseEvent s

/-- The order of events of one step: ascending code, then ascending first detail item (R640). -/
def evLe (a b : Raised) : Bool :=
  decide (a.code < b.code) || (a.code == b.code && decide (a.detail.toNat ≤ b.detail.toNat))

/-- Place the events that the step raised. -/
def flushEvents (s : State) : State :=
  (sortBy evLe s.ev.batch).foldl (fun s r => placeEvent r s) (modEv (fun e => { e with batch := [] }) s)

/-- Write backlogged records to the ring while it has room (R643). -/
def drainBacklog (n : Nat) (s : State) : State :=
  match n, s.ev.backlog with
  | n + 1, r :: t => if ringOpen s then drainBacklog n (ringWrite r (modEv (fun e => { e with backlog := t }) s)) else s
  | _, _ => s

/-! ### The end of a step -/

/-- The end of every step: the waiting commands and the tray number are as they were (a step's own meaning
changes neither: R39), the writes to the mailbox buffers are committed, what its pool reads found is spent, and the events
raised are placed. -/
def finish (s t : State) : State :=
  let t := { t with
    pending := s.pending
    tray := { t.tray with number := s.tray.number }
    mail := { t.mail with
      mem := memCommit (if t.mail.wipe then [] else s.mail.mem) t.mail.writes, writes := [], wipe := false } }
  let u := flushEvents t
  { u with ev := { u.ev with batch := [] }, pool := { u.pool with reads := [] } }

/-- A step whose effect is f: the next state, with the step's end done. -/
def act (f : State → State) (s : State) : Result := .next (finish s (f s))

/-! ### Scheduled actions (R71 to R75, R83, R624) -/

/-- The receiver states in which no turn can be named (R83). -/
def untimed (s : State) : Bool := s.reel.st == .absent || s.reel.st == .acquiring || s.reel.st == .free

/-- A named turn too far ahead (R72). -/
def turnTooFar (turn : Nat) (s : State) : Bool :=
  decide (2 ^ 32 < tsub turn s.reel.turn) && decide (tsub turn s.reel.turn < 2 ^ 47)

/-- A named turn too near or past (R72). -/
def turnTooNear (turn : Nat) (s : State) : Bool :=
  decide (tsub turn s.reel.turn < 4) || decide (2 ^ 47 ≤ tsub turn s.reel.turn)

/-- An action of the kind is already pending for the unit and turn (R74). -/
def schedTaken (kind : SKind) (unit turn : Nat) (s : State) : Bool :=
  s.sched.any fun a => a.kind == kind && a.unit == unit && a.turn == turn

/-- No place is left among the 64 pending actions (R73); frequency steps that the tray places are not counted (R452). -/
def schedFull (s : State) : Bool := decide (64 ≤ (s.sched.filter fun a => !(a.kind == .freqStep && a.trayPlaced)).length)

/-- Place an action. -/
def schedAdd (a : Sched) (s : State) : State := { s with sched := s.sched ++ [a] }

/-- The code of a kind (R624). -/
def kindCode : SKind → Nat
  | .freqStep => 0 | .tableSwitch => 1 | .planSwap => 2 | .admission => 3 | .withdraw => 4 | .resume => 5 | .laneChange => 6

/-- The place of an action among those of one turn: the step of R75, within step 6 the order of R251. -/
def schedRank (a : Sched) : Nat :=
  let unitRank := match uKind a.unit with | 3 => 0 | 2 => 1 | 1 => 2 | _ => 3
  match a.kind with
  | .freqStep => 30 | .tableSwitch => 40 | .planSwap => 50
  | .resume => 60 | .withdraw => 61 + unitRank | .admission => 65 + unitRank | .laneChange => 70

/-- The order in which pending actions are applied: by turn from now, then by R75. -/
def schedLe (now : Nat) (a b : Sched) : Bool :=
  let ka := tsub a.turn now
  let kb := tsub b.turn now
  decide (ka < kb) || (decide (ka = kb) && decide (schedRank a ≤ schedRank b))

/-- The turn of an action is reached. -/
def schedDue (s : State) (a : Sched) : Bool := reached a.turn s.reel.turn

/-- HOLDOVER_EXPIRY is due: the holdover limit has passed (R81). -/
def holdoverOver (s : State) : Bool := s.reel.st == .holdover && decide (s.reel.limit < s.reel.holdTurns)

/-- Steps 2 to 7 of R75 are done for this boundary: step 8 and the egress decisions of pitch 0 may follow. -/
def stepsDone (s : State) : Bool := !holdoverOver s && s.sched.all fun b => !schedDue s b

/-- The due action of a kind (and unit) that no due step of R75 comes before. -/
def dueAction (kind : SKind) (unit : Option Nat) (s : State) : Option Sched :=
  match s.sched.find? (fun a => a.kind == kind && (unit.isNone || unit == some a.unit) && schedDue s a) with
  | none => none
  | some a => if !holdoverOver s && s.sched.all (fun b => !schedDue s b || decide (schedRank a ≤ schedRank b)) then some a
    else none

/-- Remove an action. -/
def schedRemove (a : Sched) (s : State) : State := { s with sched := s.sched.erase a }

/-- The 96-bit entry of an action (R624). -/
def schedEntry (a : Sched) : List Nat :=
  let unit := match a.kind with | .admission | .withdraw | .laneChange => a.unit | _ => 0
  [put 31 28 (kindCode a.kind) + put 27 27 a.trayPlaced.toNat + put 15 0 unit,
   a.turn % 2 ^ 32,
   put 31 16 (if a.trayPlaced then 0 else a.opcode) + put 15 0 (a.turn / 2 ^ 32)]

/-- SCHEDULED_CANCELLED for an action (R618). -/
def raiseCancelled (a : Sched) (s : State) : State := raise 0x0003 ((schedEntry a).map fun w => (32, w)) s

/-- SCHEDULED_LATE for an action applied at a turn (R626): words 0 and 1, TURN bits 47:32, then the turn. -/
def raiseLate (a : Sched) (turn : Nat) (s : State) : State :=
  raise 0x0004 ((((schedEntry a).take 2).map fun w => (32, w)) ++ [(16, a.turn / 2 ^ 32), iTurn turn]) s

/-- Cancel one action with its event; a cancelled swap in FREE is recorded by its caller. -/
def schedCancel (a : Sched) (s : State) : State := raiseCancelled a (schedRemove a s)

/-- The reel receiver's state code (R98). -/
def reelCode : RState → Nat
  | .absent => 0 | .acquiring => 1 | .locked => 2 | .holdover => 3 | .free => 4 | .bench => 5

/-- The port state code (R141). -/
def pCode : PState → Nat
  | .dark => 0 | .training => 1 | .probation => 2 | .standby => 3 | .admitted => 4 | .relock => 5 | .pattern => 6

end Sys2Proof.Machine
end

