-- ==== Sys2Proof/Machine/Operands.lean ====
section
/-! DEFINITION. Operand forms: frames as bytes and fields (R146, R168 to R171), transport words (R622), and the
argument blocks of mailbox commands with the addresses and turns they carry (R136, R261, R620). -/

namespace Sys2Proof.Machine

open Sys2Proof

/-! ### Frames -/

/-- The eight header words of a frame with a given HCRC (R169). -/
def headerWords (f : Frame) (hcrc : Nat) : List Nat :=
  [put 31 20 f.dst + put 19 8 f.src + put 7 5 f.cls + put 4 2 f.chan + put 1 0 f.fmt,
   put 31 16 f.flowSeq + put 15 4 f.pathSeq + put 3 3 f.epoch.toNat + put 2 2 f.mark.toNat + put 1 0 f.defl,
   put 31 24 f.len32 + put 23 23 f.stamped.toNat + put 22 16 f.rsv + put 15 0 hcrc,
   f.w3.toNat, f.w4.toNat, f.w5.toNat, f.w6.toNat, f.w7.toNat]

/-- HCRC: the CRC-16 of the header with its HCRC field 0 (R169). -/
def hcrcOf (f : Frame) : Nat := crc16 (beWords (headerWords f 0))

/-- The header's bytes in sending order. -/
def headerBytes (f : Frame) : List Byte := beWords (headerWords f (hcrcOf f))

/-- The frame that 32 header bytes and a payload spell. -/
def parseFrame (h payload : List Byte) : Frame :=
  let w := wordBe h
  { dst := fld (w 0) 31 20, src := fld (w 0) 19 8, cls := fld (w 0) 7 5, chan := fld (w 0) 4 2, fmt := fld (w 0) 1 0,
    flowSeq := fld (w 1) 31 16, pathSeq := fld (w 1) 15 4, epoch := bit (w 1) 3, mark := bit (w 1) 2,
    defl := fld (w 1) 1 0, len32 := fld (w 2) 31 24, stamped := bit (w 2) 23,
    w3 := BitVec.ofNat 32 (w 3), w4 := BitVec.ofNat 32 (w 4), w5 := BitVec.ofNat 32 (w 5),
    w6 := BitVec.ofNat 32 (w 6), w7 := BitVec.ofNat 32 (w 7), payload := payload, rsv := fld (w 2) 22 16 }

/-- The bytes of a frame on the wire (R146). -/
def frameBytes (f : Frame) : Nat := 40 + 32 * f.len32

/-- The cells of a frame (R182). -/
def frameCells (f : Frame) : Nat := ceilDiv (frameBytes f) 256

/-- The transmit ticks of a frame at a port's bytes per tick (R147). -/
def frameTicks (f : Frame) (b : Nat) : Nat := ceilDiv (frameBytes f) b

/-- The flow number: source EID, destination EID, channel (R222, R225). -/
def flowOf (src dst chan : Nat) : Nat := src * 2 ^ 15 + dst * 2 ^ 3 + chan

def flowKey (f : Frame) : Nat := flowOf f.src f.dst f.chan

/-- The index of a flow's PATH_SEQ counter (R225). -/
def pathIndex (flow : Nat) : Nat := crc16 (beBytes 4 flow)

/-- EIDs that no frame may carry (R42). -/
def badEid (e : Nat) : Bool := (decide (0x900 ≤ e) && decide (e ≤ 0xBFF)) || (decide (0xD00 ≤ e) && decide (e ≤ 0xFFF))

/-- A CTRL frame with its CTYPE, CTAG and CARG words (R170). -/
def ctrlFrame (src dst chan ctype ctag c4 c5 c6 c7 : Nat) (payload : List Byte) : Frame :=
  let n := ceilDiv payload.length 32
  { dst := dst, src := src, cls := 0, chan := chan, len32 := n,
    w3 := BitVec.ofNat 32 (put 31 16 ctype + put 15 0 ctag), w4 := BitVec.ofNat 32 c4, w5 := BitVec.ofNat 32 c5,
    w6 := BitVec.ofNat 32 c6, w7 := BitVec.ofNat 32 c7, payload := payload ++ zeros (32 * n - payload.length) }

def ctypeOf (f : Frame) : Nat := fld f.w3.toNat 31 16
def ctagOf (f : Frame) : Nat := fld f.w3.toNat 15 0

/-- The tray number that an HC-8 EID names (R40); 256 and above for an EID of no tray. -/
def trayOfEid (e : Nat) : Nat := if e < 0xC00 then 256 else e - 0xC00

/-- A tray PROBE, as far as the receiver reads one (R48). -/
def isTrayProbe (f : Frame) : Bool :=
  f.cls == 0 && ctypeOf f == 1 && decide (0xC00 ≤ f.src) && decide (f.src ≤ 0xCFF) && f.dst == f.src &&
    f.len32 == 0 && f.chan == 0

/-- A class word with a reserved encoding, as a frame for this tray's HC-8 is read (R170). -/
def reservedWords (f : Frame) : Bool :=
  let w3 := f.w3.toNat
  if f.cls = 0 then ctypeOf f == 0 || decide (6 ≤ ctypeOf f)
  else if f.cls = 1 then decide (6 ≤ fld w3 11 8) || decide (4 ≤ fld w3 7 4)
  else if f.cls = 4 then
    decide (3 ≤ fld w3 15 12) || decide (2 ≤ fld w3 11 8) || decide (3 ≤ fld w3 7 4) ||
      decide (524288 ≤ fld f.w6.toNat 19 0)
  else false

/-- The link control word with its LCRC (R168). -/
def lcwWord (ackSeq : Nat) (ackValid nak idleNext restart : Bool) (headOffset fillFrom : Nat) : Nat :=
  let hi := put 31 20 ackSeq + put 19 19 ackValid.toNat + put 18 18 nak.toNat + put 17 17 idleNext.toNat +
    put 16 16 restart.toNat + put 15 8 headOffset + put 7 0 fillFrom
  hi * 256 + crc8 (beBytes 4 hi)

/-- The bytes of a frame on a link (R146, R171): header, payload, FCRC, and LSEQ with STATUS GOOD or STOMPED. -/
def frameWire (f : Frame) (lseq : Nat) (stomped : Bool) : List Byte :=
  let body := headerBytes f ++ (f.payload ++ zeros (32 * f.len32 - f.payload.length)).take (32 * f.len32)
  body ++ beWords [crc32c body, put 31 20 lseq + put 19 18 stomped.toNat]

/-! ### Fill and markers -/

/-- One step of PRBS-31, x³¹ + x²⁸ + 1 (R107): the bit and the next register. -/
def prbsBit (r : Nat) : Bool × Nat :=
  let b := r.testBit 30 != r.testBit 27
  (b, (r * 2 + b.toNat) % 2 ^ 31)

/-- The next byte of PRBS-31, first bit most significant, and the register after it. -/
def prbsByte (r : Nat) : Byte × Nat :=
  (List.range 8).foldl (fun (a : Byte × Nat) _ =>
    let (b, r) := prbsBit a.2
    (a.1 * 2 + BitVec.ofNat 8 b.toNat, r)) (0, r)

/-- n bytes of fill from a register on, and the register after them (R114). -/
def prbsBytes : Nat → Nat → List Byte × Nat
  | 0, r => ([], r)
  | n + 1, r =>
    let (b, r) := prbsByte r
    let (t, r) := prbsBytes n r
    (b :: t, r)

/-- A lane marker (R134): PHASE 0 TRAIN, 1 BURST, 2 END, 3 IDLE. -/
def markerWord (lane width rate phase : Nat) (ready : Bool) (block : Nat) : Nat :=
  let hi := put 31 16 0x9B2E + put 15 14 lane + put 13 12 width + put 11 10 rate + put 9 8 phase + put 7 7 ready.toNat +
    put 6 0 (block % 128)
  hi * 256 + crc8 (beBytes 4 hi)

/-! ### Transport words (R622) -/

def transportWord (mailbox transport : Nat) (trunc : Bool) (tag : Nat) : Nat :=
  put 31 27 mailbox + put 26 24 transport + put 23 23 trunc.toNat + put 15 0 tag

/-! ### Argument blocks -/

/-- A command at its execution point (R598, R599): its mailbox, opcode, the number of its attempts that fail
(R612) and its argument block as the buffer holds it. -/
structure Cmd where
  mb : Nat
  opcode : Nat
  fails : Nat
  len : Nat
  args : List Byte
deriving DecidableEq, Repr

/-- Word i of the argument block. -/
def argW (c : Cmd) (i : Nat) : Nat := wordLe c.args i

/-- What a command's own rules answer. A refusal changes nothing; a command that is done names its status, its
result block and the state it leaves; a long command that starts names its subject and its limit in ticks. -/
inductive Verdict where
  | refuse (status argFault : Nat) (result : List Byte)
  | done (status : Nat) (result : List Byte) (next : State)
  | start (subject ticks : Nat) (next : State)
deriving DecidableEq, Repr

/-- Status codes (R621). -/
def stOk : Nat := 0
def stBusy : Nat := 1
def stBadOpcode : Nat := 2
def stBadArg : Nat := 3
def stNotNow : Nat := 4
def stNoRoom : Nat := 5
def stPrecondition : Nat := 6
def stTimeout : Nat := 7
def stFault : Nat := 8
def stStale : Nat := 9
def stBudget : Nat := 10

/-- BAD_ARG at the first word at fault of a list of checks; otherwise go on (R602, R620). -/
def argChecks : List (Nat × Bool) → Verdict → Verdict
  | [], v => v
  | (off, bad) :: t, v => if bad then .refuse stBadArg off [] else argChecks t v

/-- A status returned under a condition; otherwise go on (R602). -/
def check (status : Nat) (cond : Bool) (v : Verdict) : Verdict := if cond then .refuse status 0xFFF [] else v

/-- The length check of R603. -/
def lenIs (c : Cmd) (n : Nat) (v : Verdict) : Verdict := if c.len = n then v else .refuse stBadArg 0xFFF []

/-- OK with a result block of little-endian words and no change. -/
def report (ws : List Nat) (s : State) : Verdict := .done stOk (leWords ws) s

/-- OK with no result block. -/
def applied (s : State) : Verdict := .done stOk [] s

/-- A turn of an argument block: low word i, bits 47:32 in word i + 1. -/
def argTurn (c : Cmd) (i : Nat) : Nat := argW c i + fld (argW c (i + 1)) 15 0 * 2 ^ 32

/-- The port address of R136 in word 0: its unit. -/
def paUnit (c : Cmd) : Nat := put 15 15 (fld (argW c 0) 11 11) + put 8 7 (fld (argW c 0) 8 7) + put 6 0 (fld (argW c 0) 6 0)

/-- The port address with SIDE reserved: the ASIC end (R172, R215, R265, R316). -/
def paAsicEnd (c : Cmd) : Nat := asicEnd (paUnit c)

/-- A port address out of range (R136): PORT above 91, or SIDE outside 72 to 79. -/
def paBad (c : Cmd) : Bool :=
  let p := fld (argW c 0) 6 0
  decide (92 ≤ p) || (bit (argW c 0) 11 && !isCtrl p)

/-- A port address whose SIDE is reserved. -/
def paBadNoSide (c : Cmd) : Bool := decide (92 ≤ fld (argW c 0) 6 0)

def paLane (c : Cmd) : Nat := fld (argW c 0) 10 9
def paAllLanes (c : Cmd) : Bool := bit (argW c 0) 12

/-- The unit of a unit command (R261), with the fields that its KIND does not use read as 0. -/
def uaUnit (c : Cmd) : Nat :=
  let w := argW c 0
  match fld w 14 13 with
  | 0 => put 15 15 (fld w 15 15) + put 8 7 (fld w 8 7) + put 6 0 (fld w 6 0)
  | 1 => cartUnit (fld w 12 9)
  | 2 => asicUnit (fld w 8 7)
  | _ => trayUnit

/-- A unit address out of range (R261). -/
def uaBad (c : Cmd) : Bool :=
  let w := argW c 0
  (fld w 14 13 == 0 && decide (92 ≤ fld w 6 0)) || (bit w 15 && !(fld w 14 13 == 0 && isCtrl (fld w 6 0)))

end Sys2Proof.Machine
end

