-- ==== Sys2Proof/Machine/Pages.lean ====
section
/-! DEFINITION. Pool pages: the regions (R361, R401), the placement of new pages (R460) and what the power of a
pool half means for them (R51, R390). -/

namespace Sys2Proof.Machine

open Sys2Proof

/-- The first page of each region: firmware, spill, collective scratch, stall pages, in the order of R361. -/
def spillBase : Nat := 65536
def spillPages (s : State) : Nat := s.pool.spillGib * 16384
def scratchBase (s : State) : Nat := spillBase + spillPages s
def scratchPages (s : State) : Nat := s.pool.scratchGib * 16384
def stallBase (s : State) : Nat := scratchBase s + scratchPages s
def poolPages : Nat := 6291456

/-- The pseudo-channel of a page, its pool half and its stack. -/
def pageChannel (p : Nat) : Nat := p % 256
def pageHalf (p : Nat) : Nat := pageChannel p / 128
def pageStack (p : Nat) : Nat := pageChannel p / 32

/-- A pool half has power and is trained (R441: domain 2 is west, 3 is east). -/
def halfUp (s : State) (h : Nat) : Bool := domainOn s (2 + h)

/-- Retired pages are never used (R387). -/
def isRetired (s : State) (p : Nat) : Bool := s.pool.retired.contains p || s.pool.retiredNow.contains p

/-! ### Stall-table entries (R363) -/

def stallOf (s : State) (n : Nat) : Stall := tabGet {} s.pool.stalls n

def modStall (n : Nat) (f : Stall → Stall) (s : State) : State :=
  modPool (fun p => { p with stalls := tabMod {} p.stalls n f }) s

/-! ### Pages in use -/

/-- Spill pages, and stall pages with the targets of their copies. -/
def usedSpill (s : State) : List Nat := s.fwd.spill.flatMap fun e => e.2.pages.map fun p => p.page
def usedStall (s : State) : List Nat :=
  (s.pool.stalls.flatMap fun e => (e.2.pages.filter fun p => !p.lost).map fun p => p.page) ++
    s.pool.copying.map fun c => c.2.1

/-- The scratch pages in use (R348). -/
def usedScratch (s : State) : List Nat :=
  s.twine.insts.flatMap fun e => e.2.chunks.flatMap fun c => c.scratch.map (·.2)

/-- Staging pages in use. -/
def usedStaging (s : State) : List Nat := s.pool.stalls.flatMap fun e => e.2.stage.map (·.2)

/-- Pages of the stall region that cannot be given to a stall: in use, or in another region's service (R362). -/
def takenStall (s : State) : List Nat := usedStall s ++ s.pool.replaced.map (·.2)

/-- The pages that stand for the retired pages of a region (R362). -/
def standIns (s : State) (base n : Nat) : List Nat :=
  (s.pool.replaced.filter fun r => decide (base ≤ r.1) && decide (r.1 < base + n)).map (·.2)

/-- The lowest free page of a region on a pseudo-channel whose half is powered and whose stack is below
HBM_WARN (R460), or one that stands for a retired page of the region (R362). -/
def freePageOn (s : State) (base n : Nat) (used : List Nat) (pc : Nat) : Option Nat :=
  if !halfUp s (pc / 128) || s.pool.hot.contains (pc / 32) then none
  else
    let first := base + (pc + 256 - base % 256) % 256
    let own := (List.range (used.length + s.pool.retired.length + s.pool.retiredNow.length + 1)).findSome? fun j =>
      let p := first + 256 * j
      if p < base + n && !used.contains p && !isRetired s p then some p else none
    own <|> (standIns s base n).find? fun p => pageChannel p == pc && !used.contains p && !isRetired s p

/-- Place k of the alternating order (R460). -/
def altChannel (k : Nat) : Nat := k % 256 / 2 + 128 * (k % 2)

/-- The first page found along the alternating order from a place on, outside some halves, with the place after it. -/
def alternatePage (s : State) (base n : Nat) (used out : List Nat) (place : Nat) : Option (Nat × Nat) :=
  (List.range 256).findSome? fun j =>
    if out.contains (altChannel (place + j) / 128) then none
    else (freePageOn s base n used (altChannel (place + j))).map fun p => (p, (place + j + 1) % 256)

/-- Pages of a region in the halves that have power, without some halves: what the region can still hold. -/
def regionRoom (s : State) (n : Nat) (out : List Nat) : Nat :=
  (if halfUp s 0 && !out.contains 0 then n / 2 else 0) + (if halfUp s 1 && !out.contains 1 then n / 2 else 0)

/-- Free pages of the spill region (R190, R204). -/
def spillFree (s : State) : Nat := regionRoom s (spillPages s) s.fwd.spillOut - (usedSpill s).length

/-- The page of a new stall page (R460): the stall's half while it has a free stall page, else the other;
within a half the 128 pseudo-channels in turn from (37 × s) mod 128. -/
def stallPagePick (s : State) (stall place : Nat) : Option (Nat × Nat) :=
  let used := takenStall s
  let base := stallBase s
  let n := poolPages - base
  let inHalf := fun h => (List.range 128).findSome? fun j =>
    (freePageOn s base n used ((place + j) % 128 + 128 * h)).map fun p => (p, (place + j + 1) % 128)
  match inHalf (stall % 2) with
  | some r => some r
  | none => inHalf (1 - stall % 2)

/-- A page of the scratch region along the alternating order (R460). -/
def scratchPagePick (s : State) : Option (Nat × Nat) :=
  alternatePage s (scratchBase s) (scratchPages s) (usedScratch s) [] s.twine.pointer

/-! ### Free stall pages (R362, R402, R403) -/

/-- Pages of the stall-page region after retirement (R362, R402). -/
def stallRegion (s : State) : Nat := poolPages - stallBase s - (s.pool.retired.length + s.pool.retiredNow.length)

/-- The free pages of the stall-page region: those that hold nothing, whether or not their half has power (R390, R402;
DEDUCED, log 207). -/
def stallFree (s : State) : Nat := stallRegion s - (usedStall s).length

/-- POOL_LOW, once until the free pages exceed an eighth of the region (R403). -/
def poolLowCheck (s : State) : State :=
  if s.pool.low then
    (if stallRegion s < 8 * stallFree s then modPool (fun p => { p with low := false }) s else s)
  else if 16 * stallFree s < stallRegion s then raise 0x0508 [] (modPool (fun p => { p with low := true }) s)
  else s

/-! ### Pool faults (R384, R387) -/

/-- A transient pool fault. -/
def poolTransient (s : State) : State :=
  count (poolCtr 1) 1 (modPool (fun p => { p with transient := sat 32 (p.transient + 1) }) s)

/-- A lasting pool fault. -/
def poolLasting (s : State) : State :=
  count (poolCtr 2) 1 (modPool (fun p => { p with lasting := sat 32 (p.lasting + 1) }) s)

/-- A retired page of another region, or one that stands for such a page, gets a free page of the stall region in its
place (R362); the choice along the alternating order is the model's. -/
def replacePage (page : Nat) (s : State) : State :=
  let key := ((s.pool.replaced.find? fun r => r.2 == page).map (·.1)).getD page
  if key < stallBase s then
    let rest := s.pool.replaced.filter fun r => r.1 != key
    let base := stallBase s
    match alternatePage s base (poolPages - base) (takenStall s) [] 0 with
    | some (q, _) => modPool (fun p => { p with replaced := rest ++ [(key, q)] }) s
    | none => modPool (fun p => { p with replaced := rest }) s
  else s

/-- A page is retired: entered in the list in flash, or until the next AON power-up where the list is full (R387). -/
def retirePage (page : Nat) (moved : Bool) (s : State) : State :=
  if isRetired s page then s
  else
    let s := raise 0x0506 [(23, page), iFlag moved] (count (poolCtr 3) 1 s)
    poolLowCheck <| replacePage page
      (if s.pool.retired.length < 16384 then modPool (fun p => { p with retired := p.retired ++ [page] }) s
       else raise 0x0507 [] (modPool (fun p => { p with retiredNow := p.retiredNow ++ [page] }) s))

/-- The stall that holds a page. -/
def pageOwner (s : State) (page : Nat) : Option Nat :=
  (s.pool.stalls.find? fun e => e.2.pages.any fun g => g.page == page && !g.lost).map (·.1)

/-- A copy of a stall page to a free page of the same stall starts (R386). -/
def startCopy (n page : Nat) (retire : Bool) (s : State) : State :=
  if s.pool.copying.any fun c => c.1 == page then s
  else match stallPagePick s n ((stallOf s n).chanPtr.getD (37 * n % 128)) with
    | none => s
    | some (q, place) =>
      poolLowCheck <| modPool (fun p => { p with copying := p.copying ++ [(page, q, retire)] })
        (modStall n (fun x => { x with chanPtr := some place }) s)

end Sys2Proof.Machine
end

