-- ==== Sys2Proof/Machine/Switch.lean ====
section
/-! DEFINITION. The forwarding core as shared operations: queues and their limits (R181 to R184), spraying (R179),
placing, deflecting, crossing and spilling (R186 to R192), drop records and losses, the resequencer's contexts
(R227 to R230, R257) and what the HC-8 sends (R180). -/

namespace Sys2Proof.Machine

open Sys2Proof

/-! ### Energy and pool traffic (R450) -/

/-- Charge picojoules to a class of the per-class report; whole nanojoules reach the counters. -/
def chargePj (cls pj : Nat) (s : State) : State :=
  let t := tabGet 0 s.power.energyRem cls + pj
  countWin (powerCtr cls) (t / 1000) (modPower (fun p => { p with energyRem := tabSet 0 p.energyRem cls (t % 1000) }) s)

/-- An ASIC charge, scaled by 0.85 and 0.72 at the lower levels. -/
def chargeAsic (cls pj : Nat) (s : State) : State :=
  chargePj cls (pj * (if s.power.level = 0 then 100 else if s.power.level = 1 then 85 else 72) / 100) s

/-- Pool bytes read or written on the stack of a page, charged to a class at 24 pJ a byte. -/
def poolIo (isWrite : Bool) (page bytes cls : Nat) (s : State) : State :=
  let st := pageStack page
  let s := chargePj cls (24 * bytes) (count (stackCtr st isWrite.toNat) bytes s)
  if isWrite then s else modPool (fun p => { p with stackRead := tabMod 0 p.stackRead st (· + bytes) }) s

/-! ### Pages that need correction, and pool reads (R384, R386) -/

/-- A spill, scratch or staging page under another number. -/
def renamePage (old new : Nat) (s : State) : State :=
  let s := modFwd (fun w => { w with spill := w.spill.map fun e =>
    (e.1, { e.2 with pages := e.2.pages.map fun g => if g.page = old then { g with page := new } else g }) }) s
  let s := modTwine (fun t => { t with insts := t.insts.map fun e =>
    (e.1, { e.2 with chunks := e.2.chunks.map fun k =>
      { k with scratch := k.scratch.map fun x => if x.2 = old then (x.1, new) else x } }) }) s
  modPool (fun p => { p with stalls := p.stalls.map fun e =>
    (e.1, { e.2 with stage := e.2.stage.map fun x => if x.2 = old then (x.1, new) else x }) }) s

/-- The push staging area is the last GiB of the firmware region. -/
def stagingBase : Nat := 49152
def stagingPages : Nat := 16384

/-- A page of the staging area with power, outside a list. -/
def stagingPickFrom (s : State) (used : List Nat) : Option Nat :=
  let open' := fun (p : Nat) => !used.contains p && !isRetired s p && halfUp s (pageHalf p)
  ((List.range (min stagingPages (used.length + s.pool.retired.length + s.pool.retiredNow.length + 1))).map (stagingBase + ·)).find? open'
    <|> ((List.range stagingPages).map (stagingBase + ·)).find? open' <|> (standIns s stagingBase stagingPages).find? open'

/-- The lowest free staging page with power. -/
def stagingPick (s : State) : Option Nat :=
  if stagingPages ≤ (usedStaging s).length then none else stagingPickFrom s (usedStaging s)

/-- A free page of the region of a page of no stall. -/
def samePick (s : State) (page : Nat) : Option Nat :=
  if (usedSpill s).contains page then (alternatePage s spillBase (spillPages s) (usedSpill s) s.fwd.spillOut 0).map (·.1)
  else if (usedScratch s).contains page then (scratchPagePick s).map (·.1)
  else if (usedStaging s).contains page then stagingPick s
  else none

/-- A page of no stall is retired without loss (R386): what it holds moves to a free page of its region, the firmware
region's to the page that replaces it; with no free page it is used until it is freed. -/
def evacuate (page : Nat) (s : State) : State :=
  if isRetired s page then s
  else match samePick s page with
    | some q => retirePage page true (renamePage page q (poolIo true q 65536 4 (poolIo false page 65536 4 s)))
    | none => retirePage page (decide (page < stagingBase)) s

/-- A corrected read (R384, R386): counted; at the fourth turn within 65,536 the page is retired without loss. -/
def noteCorrection (page : Nat) (s : State) : State :=
  let now := s.reel.bounds
  let s := count (stackCtr (pageStack page) 2) 1 (count (poolCtr 0) 1 (modPool (fun p =>
    { p with
      corrected := sat 32 (p.corrected + 1)
      corrections := tabMod [] p.corrections page fun l => now :: (l.filter fun t => t != now && decide (now < t + 65536)) }) s))
  if (tabGet [] s.pool.corrections page).length < 4 then s
  else match pageOwner s page with
    | some n => startCopy n page true s
    | none => evacuate page s

/-- A pool read under R384, with what it finds: whether its data is good, and the state with its charge and its faults
but for what a lasting one does to the page. -/
def poolRead (page bytes cls : Nat) (s : State) : Bool × State :=
  let found := s.pool.reads.headD 0
  let s := poolIo false page bytes cls (modPool (fun p => { p with reads := p.reads.drop 1 }) s)
  if found = 0 then (true, s)
  else if found = 1 then (true, noteCorrection page s)
  else if found = 2 then (true, poolTransient s)
  else (false, poolLasting s)

/-- A command whose pool reads find what a list says; the step's end drops what is left of it. -/
def withReads (reads : List Nat) (f : State → State) (s : State) : State := f (modPool (fun p => { p with reads := reads }) s)

/-! ### Queues -/

/-- The frames of a queue, head first. -/
def queue (s : State) (u cls : Nat) : List QFrame := tabGet [] s.fwd.queues (u * 8 + cls)

def setQueue (u cls : Nat) (q : List QFrame) (s : State) : State :=
  modFwd (fun w => { w with queues := tabSet [] w.queues (u * 8 + cls) q }) s

/-- The default settings of a class (R183). -/
def qDefault (cls : Nat) : QCfg :=
  { limit := if cls = 0 then 64 else if cls = 2 then 2048 else 1024, unspill := 4,
    mark := if cls = 0 then 16 else 8, mode := 0 }

def queueCfg (s : State) (u cls : Nat) : QCfg := tabGet (qDefault cls) s.fwd.qcfg (u * 8 + cls)

/-- The cells charged to a queue; a parked frame stays charged (R182, R228). -/
def qCells (q : List QFrame) : Nat := q.foldl (fun n f => n + frameCells f.f) 0

/-- The frames of a port whose egress is in progress: they stay charged to their queue until it completes (R196,
R230). -/
def sendingAt (s : State) (u : Nat) : List QFrame := (s.fwd.sending.filter fun e => e.1 == u).map (·.2)

def depth (s : State) (u cls : Nat) : Nat := qCells (queue s u cls) + qCells ((sendingAt s u).filter fun q => q.cls == cls)

/-- Every frame queued on an ASIC. -/
def asicFrames (s : State) (asic : Nat) : List QFrame :=
  s.fwd.queues.flatMap fun e => if e.1 / 8 < 2 ^ 15 && uAsic (e.1 / 8) == asic then e.2 else []

/-- Every frame in an ASIC's cells: queued, or with its egress in progress. -/
def storedFrames (s : State) (asic : Nat) : List QFrame :=
  asicFrames s asic ++ (s.fwd.sending.filter fun e => uAsic e.1 == asic).map (·.2)

/-- The buffer cells in use on an ASIC; the copies of one replicated frame are charged once (R196). -/
def bufferCells (s : State) (asic : Nat) : Nat :=
  ((storedFrames s asic).foldl (fun (a : Nat × List Nat) f =>
    match f.shared with
    | none => (a.1 + frameCells f.f, a.2)
    | some r => if a.2.contains r then a else (a.1 + frameCells f.f, r :: a.2)) (0, [])).1

def freeCells (s : State) (asic : Nat) : Nat := 524288 - bufferCells s asic

/-- A frame fits a queue (R182); a further copy of a stored payload needs no further cells of the buffer. -/
def fits (s : State) (u : Nat) (q : QFrame) : Bool :=
  let c := frameCells q.f
  let stored := match q.shared with
    | none => false
    | some r => (storedFrames s (uAsic u)).any fun g => g.shared == some r
  decide (depth s u q.cls + c ≤ (queueCfg s u q.cls).limit) && (stored || decide (c ≤ freeCells s (uAsic u)))

/-- A port of an ASIC takes new frames of a class: ADMITTED and not draining (R176, R250). Before the tray is
admitted the CTRL frames of its HC-8 also use STANDBY ports (R164, R564). -/
def portServes (s : State) (u cls : Nat) : Bool :=
  let p := port s u
  (p.st == .admitted && (unitAux s u).drainTurn.isNone) || (p.st == .standby && cls == 0 && !carriesAll s)

/-- An ASIC takes new frames of a class over its own ports and its siblings' links (R50, R186): ADMITTED and not
draining; for the CTRL frames of the HC-8 before the tray is admitted, STANDBY (R564). -/
def asicServes (s : State) (asic cls : Nat) : Bool :=
  let a := asicSt s asic
  (a.st == .admitted && (unitAux s (asicUnit asic)).drainTurn.isNone) || (a.st == .standby && cls == 0 && !carriesAll s)

/-- Take a frame into a queue, marking it where the queue already stands at its mark point (R184). -/
def enqueue (u : Nat) (q : QFrame) (s : State) : State :=
  let cls := q.cls
  let cfg := queueCfg s u cls
  let old := queue s u cls
  let mk := decide (cfg.mark * cfg.limit ≤ 16 * depth s u cls) && decide (cfg.mark < 16)
  let q := { q with f := { q.f with mark := q.f.mark || mk }, headSince := none, mode := none }
  let s := setQueue u cls (old ++ [q]) s
  let s := modFwd (fun w => { w with peaks := tabMod 0 w.peaks (u * 8 + cls) (max (depth s u cls)) }) s
  onlyIf q.f.mark (count (queueCtr u cls 2) 1) (count (queueCtr u cls 0) 1 s)

/-- No queued frame has stood at its head for a turn any more: pitches of removed or suspended time do not count (R297,
R302, R679). -/
def forgetHeads (s : State) : State :=
  modFwd (fun w => { w with queues := w.queues.map fun e => (e.1, e.2.map fun q => { q with headSince := none }) }) s

/-! ### Drop records and losses (R192, R221, R235, R655) -/

/-- The names of the drop reasons (R221). -/
def dropNoRoute : Nat := 1
def dropNoSpace : Nat := 2
def dropSpillLost : Nat := 3
def dropReplSet : Nat := 4
def dropBadEid : Nat := 5
def dropContent : Nat := 6
def dropHoldExpired : Nat := 7

/-- The FWD_DROP detail (R655). -/
def dropDetail (reason u : Nat) (f : Frame) : List (Nat × Nat) :=
  [(8, reason), (3, f.cls), (16, u), (12, f.src), (12, f.dst), (3, f.chan), (16, f.flowSeq)]

/-- A notice of this tray that cannot be placed is counted and reported once per turn (R236). -/
def noticeLost (src : Nat) (s : State) : State := raiseOnce (eventKey 0x090A) 0x090A [(12, src)] (count (hc8Ctr 1) 1 s)

/-- Discard a frame: counted; reasons 2, 3 and 7 give one record per flow and turn and are kept for a notice
(R192, R235, R242), the others one record each. No notice is sent for a lost LOSS_NOTICE, one of the tray's own is
counted (R236). -/
def dropFrame (reason u : Nat) (f : Frame) (s : State) : State :=
  let a := uAsic u
  let s := count (fwdCtr a (reason - 1)) 1 s
  let s := onlyIf (reason == 2) (fun s => modFwd (fun w => { w with
    spill := tabMod {} w.spill a fun p => { p with dropsNoSpace := sat 32 (p.dropsNoSpace + 1) } })
    (count (queueCtr u (f.cls % 5) 7) 1 s)) s
  let s := onlyIf (reason == 3) (modFwd fun w => { w with
    spill := tabMod {} w.spill a fun p => { p with dropsLost := sat 32 (p.dropsLost + 1) } }) s
  let s := onlyIf (f.cls == 0 && ctypeOf f == 4 && f.src == ownEid s) (noticeLost f.dst) s
  if reason = 2 ∨ reason = 3 ∨ reason = 7 then
    let s := onlyIf (!(f.cls == 0 && ctypeOf f == 4)) (modFwd (fun w => { w with losses := w.losses ++
      [{ flow := flowKey f, bound := s.reel.bounds, turn := s.reel.turn, reason := reason, cls := f.cls, seq := f.flowSeq }] })) s
    raiseOnce (eventKey 0x0205 + flowKey f) 0x0205 (dropDetail reason u f) s
  else raise 0x0205 (dropDetail reason u f) s

/-! ### The resequencer (R224 to R230, R257) -/

/-- The origin stream of a frame on its ASIC: 0 front ports, 1 the HC-8; none for the bypass of R224. -/
def streamOf (q : QFrame) : Option Nat :=
  if q.f.cls = 0 then none
  else if isFront (uPort q.inUnit) then some 0
  else if isCtrl (uPort q.inUnit) then some 1
  else none

/-- The origin stream in which a context may order a frame; none for one that goes unordered (R256, R257). -/
def originOf (q : QFrame) : Option Nat := if q.unordered then none else streamOf q

/-- The frame passes the resequencer without a check at a port (R224). -/
def bypasses (u : Nat) (q : QFrame) : Bool := (originOf q).isNone || isCtrl (uPort u)

def reseqOf (s : State) (asic : Nat) : Reseq := tabGet {} s.fwd.reseq asic

def modReseq (asic : Nat) (f : Reseq → Reseq) (s : State) : State :=
  modFwd (fun w => { w with reseq := tabMod {} w.reseq asic f }) s

def isCtxOf (q : QFrame) (c : Context) : Bool := c.flow == flowKey q.f && some c.origin == originOf q

def contextOf (s : State) (asic : Nat) (q : QFrame) : Option Context :=
  (reseqOf s asic).contexts.find? (isCtxOf q)

/-- The earlier of two PATH_SEQ values (R226). -/
def earlier (a b : Nat) : Nat := if seqBefore 12 b a then b else a

/-- Every spilled frame of an ASIC with its queue key. -/
def spilledOf (s : State) (asic : Nat) : List (Nat × QFrame) :=
  (tabGet {} s.fwd.spill asic).pages.flatMap fun p => p.frames

/-- The diverted frames of a context on an ASIC, those not yet sent whole among them. -/
def divertedOf (s : State) (asic : Nat) (c : Context) : List QFrame :=
  (storedFrames s asic ++ (spilledOf s asic).map (·.2)).filter fun g => g.diverted && isCtxOf g c

/-- Change the queued frames of an ASIC that a test names. -/
def modQueued (asic : Nat) (p : QFrame → Bool) (f : QFrame → QFrame) (s : State) : State :=
  modFwd (fun w => { w with queues := w.queues.map fun e =>
    if e.1 / 8 < 2 ^ 15 && uAsic (e.1 / 8) == asic then (e.1, e.2.map fun q => if p q then f q else q) else e }) s

/-- The outstanding frames of a context go unordered: the queued, the spilled and those being sent (R257). -/
def loosen (asic : Nat) (c : Context) (s : State) : State :=
  let loose := fun (g : QFrame) => if g.diverted && isCtxOf g c then { g with unordered := true } else g
  modFwd (fun w => { w with
    queues := w.queues.map fun e => if e.1 / 8 < 2 ^ 15 && uAsic (e.1 / 8) == asic then (e.1, e.2.map loose) else e
    sending := w.sending.map fun e => if uAsic e.1 == asic then (e.1, loose e.2) else e
    spill := tabMod {} w.spill asic fun p => { p with pages := p.pages.map fun g =>
      { g with frames := g.frames.map fun e => (e.1, loose e.2) } } }) s

/-- The context closes and its parked frames are released (R228, R257). -/
def closeContext (asic : Nat) (c : Context) (s : State) : State :=
  modQueued asic (fun g => g.parked && isCtxOf g c) (fun g => { g with released := true })
    (modReseq asic (fun r => { r with contexts := r.contexts.filter fun d => !(d.flow == c.flow && d.origin == c.origin) }) s)

/-- The later of two PATH_SEQ values (R226). -/
def later (a b : Nat) : Nat := if seqBefore 12 a b then b else a

/-- The newest PATH_SEQ seen in a context moves on. -/
def noteNewest (asic : Nat) (c : Context) (q : QFrame) (s : State) : State :=
  modReseq asic (fun r => { r with contexts := r.contexts.map fun d =>
    if d.flow == c.flow && d.origin == c.origin then { d with newest := later d.newest q.f.pathSeq } else d }) s

/-- A context of which the newest frame seen is 2,048 or more past OLDEST closes, as a frame of its stream comes to its
queue's head (R257). A frame is past OLDEST where the context's newest PATH_SEQ tells so: taken by itself a frame behind
OLDEST lies as far (DEDUCED, log 67). -/
def spanCheck (asic : Nat) (q : QFrame) (s : State) : State :=
  match contextOf s asic q with
  | none => s
  | some c =>
    if 2048 ≤ (later c.newest q.f.pathSeq + 4096 - c.oldest % 4096) % 4096 then
      raiseOnce (eventKey 0x0909) 0x0909 [iUnit (asicUnit asic)]
        (count (fwdCtr asic 12) 1 (modReseq asic (fun r => { r with span := sat 32 (r.span + 1) })
          (loosen asic c (closeContext asic c s))))
    else noteNewest asic c q s

/-- A frame is diverted (R227): its context is opened or joined. -/
def divert (asic : Nat) (q : QFrame) (s : State) : State :=
  match originOf q with
  | none => s
  | some o =>
    match contextOf s asic q with
    | some c =>
      modReseq asic (fun r => { r with contexts := r.contexts.map fun d =>
        if d.flow == c.flow && d.origin == c.origin then
          { d with
            out := d.out + 1, oldest := earlier d.oldest q.f.pathSeq, newest := later d.newest q.f.pathSeq } else d }) s
    | none =>
      if (reseqOf s asic).contexts.length < 16384 then
        modReseq asic (fun r =>
          { r with contexts := r.contexts ++ [{ flow := flowKey q.f, origin := o, out := 1, oldest := q.f.pathSeq, newest := q.f.pathSeq }],
                   peak := max r.peak (r.contexts.length + 1) }) s
      else
        raiseOnce (eventKey 0x0908) 0x0908 [iUnit (asicUnit asic)]
          (count (fwdCtr asic 11) 1 (modReseq asic (fun r => { r with full := sat 32 (r.full + 1) }) s))

/-- A frame as it stands once it is diverted: without a context where none was free (R256). -/
def asDiverted (s : State) (asic : Nat) (q : QFrame) : QFrame :=
  if q.diverted then q else { q with diverted := true, unordered := q.unordered || (contextOf s asic q).isNone }

/-- A diverted frame was sent whole or discarded (R228, R230): OUT falls, OLDEST moves on, parked frames are released. -/
def retire (asic : Nat) (q : QFrame) (s : State) : State :=
  match contextOf s asic q with
  | none => s
  | some c =>
    let rest := divertedOf s asic c
    let out := c.out - 1
    let oldest := match rest with
      | [] => c.oldest
      | g :: t => t.foldl (fun o h => earlier o h.f.pathSeq) g.f.pathSeq
    let c' := { c with out := out, oldest := oldest }
    let parkedLeft := (asicFrames s asic).any fun g => g.parked && !g.released && isCtxOf g c &&
      !(out == 0 || seqBefore 12 g.f.pathSeq oldest || (g.diverted && g.f.pathSeq == oldest))
    let s := modQueued asic (fun g => g.parked && isCtxOf g c &&
        (out == 0 || seqBefore 12 g.f.pathSeq oldest || (g.diverted && g.f.pathSeq == oldest)))
      (fun g => { g with released := true }) s
    if out = 0 && !parkedLeft then closeContext asic c s
    else modReseq asic (fun r => { r with contexts := r.contexts.map fun d =>
      if d.flow == c.flow && d.origin == c.origin then c' else d }) s

/-! ### Spill (R189 to R191, R202) -/

def spillOf (s : State) (asic : Nat) : Spill := tabGet {} s.fwd.spill asic

def modSpill (asic : Nat) (f : Spill → Spill) (s : State) : State :=
  modFwd (fun w => { w with spill := tabMod {} w.spill asic f }) s

/-- Pages that an ASIC may still claim (R190). -/
def spillClaim (s : State) (asic : Nat) : Nat :=
  let me := spillOf s asic
  let others := ((List.range 4).filter (· != asic)).foldl
    (fun n b => n + ((spillOf s b).reserve - (spillOf s b).pages.length)) 0
  min (me.quota - me.pages.length) (spillFree s - others)

/-- The HC-8 is reachable through an ADMITTED controller port of the ASIC (R202). -/
def hc8Reach (s : State) (asic : Nat) : Bool :=
  coreUp s && (List.range 8).any fun i => (port s (unitOf asic (72 + i))).st == .admitted

/-- The last page of an ASIC takes the frame whole; with a quota lowered below the pages in use none does (R218). -/
def lastPageTakes (s : State) (asic bytes : Nat) : Bool :=
  match (spillOf s asic).pages.getLast? with
  | none => false
  | some p => decide ((spillOf s asic).pages.length ≤ (spillOf s asic).quota) && decide (p.used + bytes ≤ 65536)

/-- The next page that an ASIC would claim (R190, R460), in a half that spill uses (R204). -/
def nextSpillPage (s : State) (asic : Nat) : Option (Nat × Nat) :=
  alternatePage s spillBase (spillPages s) (usedSpill s) s.fwd.spillOut ((spillOf s asic).pointer + 64 * asic)

/-- Spill room for a frame (R190, R202). -/
def spillRoom (s : State) (asic : Nat) (f : Frame) : Bool :=
  hc8Reach s asic && (lastPageTakes s asic (frameBytes f) ||
    (decide (0 < spillClaim s asic) && (nextSpillPage s asic).isSome))

/-- Write a frame into the spill pages of its ASIC against a queue: last page or a new one (R189). -/
def spillWrite (asic key : Nat) (q : QFrame) (s : State) : State :=
  let b := frameBytes q.f
  if lastPageTakes s asic b then
    match (spillOf s asic).pages.getLast? with
    | none => s
    | some p => poolIo true p.page b q.cls (modSpill asic (fun sp => { sp with
        pages := sp.pages.dropLast ++ [{ p with used := p.used + b, frames := p.frames ++ [(key, q)] }] }) s)
  else
    match nextSpillPage s asic with
    | none => s
    | some (page, place) =>
      let s := modSpill asic (fun sp => { sp with
        pages := sp.pages ++ [{ page := page, used := b, frames := [(key, q)] }],
        pointer := (place + 256 - (64 * asic) % 256) % 256, peak := max sp.peak (sp.pages.length + 1) }) s
      let s := count (fwdCtr asic 14) 1 (poolIo true page b q.cls s)
      onlyIf (decide ((spillOf s asic).reserve < (spillOf s asic).pages.length))
        (raiseOnce (eventKey 0x0203) 0x0203 [iUnit (asicUnit asic)]) s

/-- Spill a frame against a queue: MARK set, diverted, written (R184, R189, R227). -/
def spillFrame (u : Nat) (q : QFrame) (s : State) : State :=
  let a := uAsic u
  let s := if q.diverted then s else divert a q s
  let q' := { asDiverted s a q with parked := false, released := false, shared := none, headSince := none, mode := none, f := { q.f with mark := true } }
  count (queueCtr u q.cls 5) 1 (spillWrite a (u * 8 + q.cls) q' s)

/-- Spill where the class may and there is room; a refusal for want of pages is reported (R202). -/
def canSpill (s : State) (u : Nat) (q : QFrame) : Bool :=
  s.fwd.spillClasses.testBit q.cls && spillRoom s (uAsic u) q.f

def noteQuotaFull (u : Nat) (q : QFrame) (s : State) : State :=
  onlyIf (s.fwd.spillClasses.testBit q.cls && hc8Reach s (uAsic u) && !spillRoom s (uAsic u) q.f)
    (raiseOnce (eventKey 0x0204) 0x0204 [iUnit (asicUnit (uAsic u))]) s

/-! ### Spraying and placing -/

/-- The choice of R179 among ports by cells queued, with the rotating pointer of a key. -/
def sprayPick (s : State) (key : Nat) (units : List Nat) (cells : Nat → Nat) : Option Nat :=
  let least := (leastBy cells units).map cells
  let cand := units.filter fun u => some (cells u) == least
  let ptr := tabGet 0 s.fwd.spray key
  match cand.find? (fun u => decide (ptr ≤ uPort u)) with
  | some u => some u
  | none => cand.head?

def sprayAdvance (key u : Nat) (s : State) : State :=
  modFwd (fun w => { w with spray := tabSet 0 w.spray key ((uPort u + 1) % 92) }) s

/-- The endpoint-table entry of a bank (R175). -/
def eptKey (bank : Bool) (asic eid : Nat) : Nat := bank.toNat * 2 ^ 14 + asic * 2 ^ 12 + eid
def eptEntry (s : State) (bank : Bool) (asic eid : Nat) : EptEntry := tabGet {} s.fwd.ept (eptKey bank asic eid)
def eptValid (e : EptEntry) : Bool := e.w3.getMsbD 0

/-- The ports that an entry lists (R208): front ports and controller ports. -/
def eptPorts (e : EptEntry) : List Nat :=
  numbers 32 (fun n => e.w0.toNat.testBit n) ++ (numbers 32 fun n => e.w1.toNat.testBit n).map (32 + ·) ++
    (numbers 8 fun n => e.w2.toNat.testBit n).map (64 + ·) ++ (numbers 8 fun n => e.w2.toNat.testBit (8 + n)).map (72 + ·)

/-- The siblings that also reach the EID, the ASIC's own bit ignored (R208). -/
def eptSiblings (e : EptEntry) (asic : Nat) : List Nat := numbers 4 fun n => e.w2.toNat.testBit (16 + n) && n != asic

/-- The route set of R176: the listed ports in service for the class. -/
def routeSet (s : State) (asic : Nat) (e : EptEntry) (cls : Nat) : List Nat :=
  if eptValid e then ((eptPorts e).map (unitOf asic)).filter fun u => portServes s u cls else []

/-- The links of an ASIC in service to siblings in service (R50, R186, R188). -/
def siblingLinks (s : State) (asic : Nat) (sibs : List Nat) (cls : Nat) : List Nat :=
  ((sibs.filter fun b => asicServes s b cls).flatMap fun b => (siblingPorts asic b).map (unitOf asic)).filter fun u =>
    portServes s u cls

/-- The link of R187: the most free cells below its limit, then the lower sibling, then the lower port. -/
def bestLink (s : State) (links : List Nat) (cls : Nat) : Option Nat :=
  leastBy (fun u => 65536 - ((queueCfg s u cls).limit - depth s u cls)) links

/-- The siblings a frame may go to: in SIB_REACH, not the one it came from. -/
def openSiblings (asic : Nat) (e : EptEntry) (q : QFrame) : List Nat :=
  (eptSiblings e asic).filter fun b => !(isSibling (uPort q.inUnit) && siblingAsic asic (uPort q.inUnit) == b)

/-- The deflection step of R186 where it applies (R200, R201). -/
def deflectTo (s : State) (asic : Nat) (e : EptEntry) (q : QFrame) : Option Nat :=
  if s.fwd.deflClasses.testBit q.cls && decide (q.f.defl < s.fwd.deflMax) then
    bestLink s ((siblingLinks s asic (openSiblings asic e q) q.cls).filter fun u => fits s u { q with shared := none }) q.cls
  else none

def deflect (u : Nat) (q : QFrame) (s : State) : State :=
  count (queueCtr u q.cls 3) 1 (enqueue u { q with f := { q.f with defl := q.f.defl + 1, mark := true }, shared := none } s)

/-- Crossing with an empty route set (R188); a crossing copy keeps its share of a replicated payload (R196). -/
def cross (asic : Nat) (e : EptEntry) (q : QFrame) (s : State) : State :=
  if isSibling (uPort q.inUnit) then
    match deflectTo s asic e q with
    | some u => deflect u q s
    | none => dropFrame dropNoRoute q.inUnit q.f s
  else
    let links := siblingLinks s asic (openSiblings asic e q) q.cls
    match bestLink s (links.filter fun u => fits s u q) q.cls with
    | some u => count (queueCtr u q.cls 4) 1 (enqueue u { q with f := { q.f with mark := true } } s)
    | none =>
      match sprayPick s (asic * 8 + q.cls) links (fun u => depth s u q.cls) with
      | none => dropFrame dropNoRoute q.inUnit q.f s
      | some u =>
        let s := sprayAdvance (asic * 8 + q.cls) u s
        if canSpill s u q then spillFrame u q s
        else dropFrame dropNoSpace u q.f (noteQuotaFull u q s)

/-- Place a frame on its ASIC by an entry: queue, sibling, pool or discard (R186). -/
def place (asic : Nat) (e : EptEntry) (q : QFrame) (s : State) : State :=
  if !eptValid e then dropFrame dropNoRoute q.inUnit q.f s
  else
    let key := asic * 8 + q.cls
    match sprayPick s key (routeSet s asic e q.cls) (fun u => depth s u q.cls) with
    | none => cross asic e q s
    | some u =>
      let s := sprayAdvance key u s
      if fits s u q then enqueue u q s
      else match deflectTo s asic e q with
        | some v => deflect v q s
        | none =>
          if canSpill s u q then spillFrame u q s
          else dropFrame dropNoSpace u q.f (noteQuotaFull u q s)

/-! ### Tables in force (R178) -/

/-- A stamp lies before the end of the grace of the last switch. -/
def inGraceAt (s : State) (stampTurn : Nat) : Bool :=
  !reached ((s.fwd.tables.switchTurn + s.fwd.tables.grace) % 2 ^ 48) stampTurn

/-- The bank that routes a frame: 0 no count, 1 LATE_EPOCH, 2 FOREIGN_EPOCH (R178). -/
def bankFor (s : State) (f : Frame) (stampTurn : Nat) : Bool × Nat :=
  let t := s.fwd.tables
  if !f.stamped || f.epoch == t.inForce then (t.inForce, 0)
  else if !t.switched then (t.inForce, 2)
  else if inGraceAt s stampTurn then (!t.inForce, 0)
  else (t.inForce, 1)

/-- Count a late or foreign frame (R178, R214, R220). -/
def countEpoch (how u : Nat) (s : State) : State :=
  if how = 1 then
    raiseOnce (eventKey 0x0201) 0x0201 [iUnit u] (count (fwdCtr (uAsic u) 7) 1
      (modFwd (fun w => { w with tables := { w.tables with late := sat 32 (w.tables.late + 1) } }) s))
  else if how = 2 then
    raiseOnce (eventKey 0x0202) 0x0202 [iUnit u] (count (fwdCtr (uAsic u) 8) 1
      (modFwd (fun w => { w with tables := { w.tables with foreign := sat 32 (w.tables.foreign + 1) } }) s))
  else s

/-- The lookup cache of an ASIC and bank: least recently used last (R174). -/
def cacheTouch (bank : Bool) (asic eid : Nat) (s : State) : State :=
  let key := bank.toNat * 4 + asic
  let l := tabGet [] s.fwd.cache key
  let s := onlyIf (!l.contains eid) (count (fwdCtr asic 9) 1) s
  modFwd (fun w => { w with cache := tabSet [] w.cache key ((eid :: l.erase eid).take 256) }) s

/-- A frame given its next PATH_SEQ of its ASIC's counters (R154, R225). -/
def nextPathSeq (asic : Nat) (f : Frame) (s : State) : Nat × State :=
  let k := asic * 65536 + pathIndex (flowKey f)
  let n := tabGet 0 s.fwd.pathSeq k
  (n, modFwd (fun w => { w with pathSeq := tabSet 0 w.pathSeq k ((n + 1) % 4096) }) s)

/-! ### What the HC-8 sends (R154, R180, R268) -/

/-- The ASICs over which the HC-8 may send to an EID: those whose entries in force list a port (R180). -/
def hc8Asics (s : State) (dst : Nat) : List Nat :=
  numbers 4 fun a =>
    let e := eptEntry s s.fwd.tables.inForce a dst
    eptValid e && !(eptPorts e).isEmpty

/-- The HC-8 ends of an ASIC's controller ports that can carry a class: both ends and the ASIC in service (R50, R681). -/
def hc8Ports (s : State) (asic cls : Nat) : List Nat :=
  ((List.range 8).map fun i => hc8End (unitOf asic (72 + i))).filter fun u =>
    asicServes s asic cls && portServes s (asicEnd u) cls && ((port s u).st == .admitted || ((port s u).st == .standby && cls == 0 && !carriesAll s))

/-- Queue a frame at an HC-8 transmitter of one of some ASICs; false where none can take it. -/
def hc8Queue (asics : List Nat) (f : Frame) (s : State) : Bool × State :=
  let units := asics.flatMap fun a => hc8Ports s a f.cls
  match sprayPick s (32 + f.cls) units (fun u => depth s u f.cls) with
  | none => (false, s)
  | some u =>
    let q : QFrame := { f := f, cls := f.cls, stampTurn := s.reel.turn, stampTick := s.reel.tick, stampClock := s.reel.clock, inUnit := u }
    (true, setQueue u f.cls (queue s u f.cls ++ [q]) (sprayAdvance (32 + f.cls) u s))

/-- The key of a replication set of an ASIC. -/
def setKey (asic n : Nat) : Nat := asic * 1024 + n

def replSet (s : State) (asic n : Nat) : ReplSet := tabGet {} s.fwd.repl (setKey asic n)

def modSet (asic n : Nat) (f : ReplSet → ReplSet) (s : State) : State :=
  modFwd (fun w => { w with repl := tabMod {} w.repl (setKey asic n) f }) s

/-- The ASIC on which the HC-8 keeps a set (R197); the first where it has not been used. -/
def homeOf (s : State) (n : Nat) : Nat := (tabGet none s.fwd.setHome n).getD 0

/-- The loaded set whose counter a flow of the HC-8 uses while it is loaded (R195, R197). -/
def setHolding (s : State) (dst chan : Nat) : Option Nat :=
  (s.fwd.repl.find? fun e => e.2.loaded && e.2.chan == chan && e.2.targets.any fun t => t.1 == dst).map (·.1 % 1024)

/-- The next FLOW_SEQ that a set holds for a target. -/
def setNext (r : ReplSet) (dst : Nat) : Nat := ((r.targets.find? fun t => t.1 == dst).map (·.2)).getD 0

/-- The next FLOW_SEQ of a flow that the HC-8 originates: the set's while one holds it, else the HC-8's own. -/
def flowNext (s : State) (dst chan : Nat) : Nat :=
  match setHolding s dst chan with
  | some n => setNext (replSet s (homeOf s n) n) dst
  | none => tabGet 0 s.fwd.hc8Flow (flowOf (ownEid s) dst chan)

/-- A flow's next FLOW_SEQ set to a value; in a set not yet used, on every ASIC. -/
def flowSet (dst chan n : Nat) (s : State) : State :=
  match setHolding s dst chan with
  | some k =>
    let at_ := match tabGet none s.fwd.setHome k with | some a => [a] | none => List.range 4
    forAll at_ (fun a => modSet a k fun r => { r with targets := r.targets.map fun t => if t.1 = dst then (t.1, n) else t }) s
  | none => modFwd (fun w => { w with hc8Flow := tabSet 0 w.hc8Flow (flowOf (ownEid s) dst chan) n }) s

/-- A frame as the HC-8 originates it: the flow's next FLOW_SEQ and PATH_SEQ. Its first ASIC gives it the stamp, at
ingress on a controller port (R154). -/
def hc8Frame (s : State) (f : Frame) : Frame :=
  { f with
    flowSeq := flowNext s f.dst f.chan, pathSeq := tabGet 0 s.fwd.hc8Path (flowKey f), stamped := false, epoch := false }

/-- The PATH_SEQ of a flow of the HC-8 moves on. -/
def pathStep (f : Frame) (s : State) : State :=
  modFwd (fun w => { w with hc8Path := tabMod 0 w.hc8Path (flowKey f) fun n => (n + 1) % 4096 }) s

/-- Originate a frame with the flow's next FLOW_SEQ and PATH_SEQ; false where no ASIC can take it. -/
def hc8Send (f : Frame) (s : State) : Bool × State :=
  let (ok, t) := hc8Queue (hc8Asics s f.dst) (hc8Frame s f) s
  if ok then (true, flowSet f.dst f.chan ((flowNext s f.dst f.chan + 1) % 65536) (pathStep f t)) else (false, s)

/-- Send a kept frame again with its original FLOW_SEQ (R347, R383). -/
def hc8Resend (f : Frame) (s : State) : State :=
  let (ok, t) := hc8Queue (hc8Asics s f.dst) { hc8Frame s f with flowSeq := f.flowSeq } s
  if ok then pathStep f t else s

/-! ### Replication sets (R193, R197, R330, R376) -/

/-- A set is loaded into all four ASICs with its targets, each with the next FLOW_SEQ of its flow (R193). -/
def loadSet (n chan : Nat) (eids : List Nat) (s : State) : State :=
  let r : ReplSet := { loaded := true, chan := chan, targets := eids.map fun e => (e, flowNext s e chan) }
  modFwd (fun w => { w with setHome := tabSet none w.setHome n none }) (forAll (List.range 4) (fun a => modSet a n fun _ => r) s)

/-- A set is released: each target's next FLOW_SEQ returns to the HC-8 from the ASIC that carried the most copies, the
lowest of several (R197). -/
def releaseSet (n : Nat) (s : State) : State :=
  let most := (leastBy (fun a => 2 ^ 64 - (replSet s a n).copies) (List.range 4)).getD 0
  let r := replSet s most n
  let s := forAll (List.range 4) (fun a => modSet a n fun _ => {}) s
  forAll r.targets (fun t => flowSet t.1 r.chan t.2) (modFwd (fun w => { w with setHome := tabSet none w.setHome n none }) s)

/-- The sets that groups and running recalls hold. -/
def heldSets (s : State) : List Nat :=
  (s.twine.groups.flatMap fun e => e.2.sets) ++ s.pool.recalls.flatMap fun r => r.sets

/-- The k lowest free sets of the 1,024, or none where fewer are free. -/
def freeSets (s : State) (k : Nat) : Option (List Nat) :=
  let l := (numbers 1024 fun n => !(heldSets s).contains n).take k
  if l.length = k then some l else none

/-- The ASIC of a set's first frame: the set is kept on it for the life of its use while it can be reached, and sets are
sprayed over the ASICs by their number (R197). -/
def setAsic (asics : List Nat) (n cls : Nat) (s : State) : Option Nat :=
  let up := asics.filter fun a => !(hc8Ports s a cls).isEmpty
  match tabGet none s.fwd.setHome n with
  | some a => if up.contains a then some a else up[n % max 1 up.length]?
  | none => up[n % max 1 up.length]?

/-- A replicated frame (R194) to a set, over its ASIC. -/
def sendReplicated (asics : List Nat) (n : Nat) (f : Frame) (s : State) : Bool × State :=
  match setAsic asics n f.cls s with
  | none => (false, s)
  | some a =>
    hc8Queue [a] { hc8Frame s f with dst := ownEid s, src := ownEid s, flowSeq := 0, pathSeq := n }
      (modFwd (fun w => { w with setHome := tabSet none w.setHome n (some a) }) s)

/-- Originate a frame; one that no ASIC can take is not sent. -/
def hc8Post (f : Frame) (s : State) : State := (hc8Send f s).2

end Sys2Proof.Machine
end

