-- ==== Sys2Proof/Machine/Calendar.lean ====
section
/-! DEFINITION. The plan as the other functions read it: headers, bolts, the entry in force for a port and what a
plan includes (R70, R271, R284, R285, R305 to R307), the declared role (R38, R53) and the ports that the tables
use (R677). -/

namespace Sys2Proof.Machine

open Sys2Proof

/-- Bank A or B. -/
def bankOf (s : State) (b : Bool) : Bank := if b then s.plan.b else s.plan.a

def modBank (b : Bool) (f : Bank → Bank) (s : State) : State :=
  modPlan (fun p => if b then { p with b := f p.b } else { p with a := f p.a }) s

/-- Header word i of a bank (R305). -/
def hdrW (k : Bank) (i : Nat) : Nat := (k.header.getD i 0).toNat

def boltTurns (k : Bank) : Nat := fld (hdrW k 0) 8 0
def asicMask (k : Bank) : Nat := fld (hdrW k 0) 23 20
def patternCount (k : Bank) : Nat := fld (hdrW k 0) 19 10
def ageBound (k : Bank) : Nat := fld (hdrW k 1) 31 16
def planId (k : Bank) : Nat := hdrW k 2
def domainDigest (k : Bank) : Nat := hdrW k 4 + hdrW k 5 * 2 ^ 32
def localDigest (k : Bank) : Nat := hdrW k 6 + hdrW k 7 * 2 ^ 32

/-- The bank in force. -/
def planNow (s : State) : Option Bank := s.plan.inForce.map (bankOf s)

/-- The pending swap. -/
def pendingSwap (s : State) : Option Sched := s.sched.find? fun a => a.kind == .planSwap

/-- The bank that a swap names. -/
def swapBank (a : Sched) : Bool := match a.arg with | .plan b => b | _ => false

/-- A turn is a bolt boundary of a bank (R70). -/
def boltAt (k : Bank) (turn : Nat) : Bool := decide (0 < boltTurns k) && turn % boltTurns k == 0

/-- The plan that is in force, or pending at a turn, when that turn comes. -/
def planAt (s : State) (turn : Nat) : Option Bank :=
  match pendingSwap s with
  | some a => if reached a.turn turn then some (bankOf s (swapBank a)) else planNow s
  | none => planNow s

/-- TURN is a bolt boundary of the plan in force or pending at TURN (R263). -/
def boltBoundary (s : State) (turn : Nat) : Bool :=
  match planAt s turn with
  | some k => boltAt k turn
  | none => false

/-- As above for TRAY_RESUME, where with no plan every turn is a boundary. -/
def resumeBoundary (s : State) (turn : Nat) : Bool :=
  match planAt s turn with
  | some k => boltAt k turn
  | none => true

/-- The port-map entry of a port in a turn of the bolt; 0x3FF excludes it (R307). -/
def mapEntry (k : Bank) (asic p turn : Nat) : Nat :=
  tabGet 0x3FF k.map (asic * 2 ^ 15 + p * boltTurns k + turn)

/-- A plan includes a port (R284). -/
def includesPort (k : Bank) (asic p : Nat) : Bool :=
  (asicMask k).testBit asic && decide (0 < boltTurns k) &&
    (List.range (boltTurns k)).all fun t => mapEntry k asic p t != 0x3FF

/-- A plan includes an ASIC (R284). -/
def includesAsic (k : Bank) (asic : Nat) : Bool :=
  (asicMask k).testBit asic && ((List.range 8).all fun i => includesPort k asic (72 + i)) &&
    (List.range 4).all fun b => b == asic || !(asicMask k).testBit b ||
      (siblingPorts asic b).all fun p => includesPort k asic p

/-- A VALID entry of either bank lists a port (R677). -/
def portListed (s : State) (asic p : Nat) : Bool :=
  s.fwd.ept.any fun e => e.1 / 2 ^ 12 % 4 == asic && eptValid e.2 && (eptPorts e.2).contains p

/-- The lowest EID of a VALID entry that lists a port. -/
def listedEid (s : State) (asic p : Nat) : Option Nat :=
  (s.fwd.ept.find? fun e => e.1 / 2 ^ 12 % 4 == asic && eptValid e.2 && (eptPorts e.2).contains p).map fun e => e.1 % 2 ^ 12

/-- The ports that R38 gives to links between trays: a leaf's up ports, a spine's ports below P. -/
def trayLinkPort (s : State) (p : Nat) : Bool :=
  match s.tray.role with
  | some r => (r.role == 1 && decide (36 ≤ p) && decide (p < 72)) || (r.role == 2 && decide (p < r.pods))
  | none => false

/-- Leaf up ports and spine ports, where R46 expects a tray PROBE and R155 stamps. -/
def upOrSpine (s : State) (p : Nat) : Bool :=
  match s.tray.role with
  | some r => isFront p && ((r.role == 1 && decide (36 ≤ p)) || r.role == 2)
  | none => false

/-- The front ports of a spine without a far end, which stay DARK (R38, R49). -/
def staysDark (s : State) (p : Nat) : Bool :=
  match s.tray.role with
  | some r => r.role == 2 && decide (r.pods ≤ p) && isFront p
  | none => false

/-- A front port that the tables or R38 use (R49, R247). -/
def portUsed (s : State) (asic p : Nat) : Bool := portListed s asic p || trayLinkPort s p

/-- The used ports of a bay. -/
def usedBayPorts (s : State) (b : Nat) : List Nat := (bayPorts b).filter fun u => portUsed s (uAsic u) (uPort u)

/-- A plan includes a unit (R284). -/
def includesUnit (s : State) (k : Bank) (u : Nat) : Bool :=
  match uKind u with
  | 0 => includesPort k (uAsic u) (uPort u)
  | 1 => (usedBayPorts s (uBay u)).all fun v => includesPort k (uAsic v) (uPort v)
  | 2 => includesAsic k (uAsic u)
  | _ => true

/-- The pitch entry in force for a port at a tick (R271, R285, R296); `none` where no plan is in force. A word
of a pattern, or CTRL at pitch 0 and OPEN elsewhere for an excluded port. -/
def pitchEntry (s : State) (asic p turn pitch : Nat) : Nat :=
  match planNow s with
  | none => 0
  | some k =>
    if includesPort k asic p then (tabGet 0 k.patterns (mapEntry k asic p (turn % boltTurns k) * 64 + pitch)).toNat
    else if pitch = 0 then 0 else 5

def kindOf (e : Nat) : Nat := fld e 2 0
def wgroupOf (e : Nat) : Nat := fld e 31 20
def borrowOf (e : Nat) : Bool := bit e 4
def prewakeOf (e : Nat) : Bool := bit e 5

/-- The owner of a pitch (R272). -/
def ownerOf (e : Nat) : Nat × Nat := (kindOf e, if kindOf e = 2 then wgroupOf e else 0)

/-- The pitches after k that continue its owner to the end of the turn (R275). -/
def runAfter (s : State) (asic p turn k : Nat) : Nat :=
  ((List.range (63 - k)).takeWhile fun j =>
    ownerOf (pitchEntry s asic p turn (k + 1 + j)) == ownerOf (pitchEntry s asic p turn k)).length

/-- Classes that may send in a pitch (R272). -/
def maySend (kind cls : Nat) : Bool :=
  match kind with
  | 0 => cls == 0
  | 1 => cls == 1
  | 2 => cls == 2
  | 3 => cls == 3
  | 4 => cls == 4
  | 5 => decide (cls < 5)
  | _ => false

/-- Classes that may straddle out of a pitch (R272). -/
def mayStraddle (kind cls : Nat) : Bool :=
  match kind with
  | 0 => cls == 0
  | 1 => cls == 1
  | 2 => cls == 2
  | 5 => decide (cls < 3)
  | _ => false

end Sys2Proof.Machine
end

