-- ==== Sys2Proof/Machine/Units.lean ====
section
/-! DEFINITION. Units and their states as shared operations: what a change of a port's, an ASIC's, a cartridge's or
the tray's state does (R243, R246, R247, R566, R681), holding frames (R237 to R242), the wiring check (R46 to
R48), probation (R244, R245), admission and withdrawal (R248 to R251). -/

namespace Sys2Proof.Machine

open Sys2Proof

/-! ### Tray states -/

/-- The tray's unit state code (R264): ADMITTED, or STANDBY in STANDBY, UNSCHEDULED and SERVICE, else DARK. -/
def trayUnitCode (st : TState) : Nat :=
  match st with
  | .admitted => 4
  | .standby | .unscheduled | .service => 3
  | _ => 0

/-- UNIT_STATE for a change of a unit's state code (R681). -/
def raiseUnitState (u old new : Nat) (s : State) : State :=
  onlyIf (old != new) (raise 0x0903 [iUnit u, (4, old), (4, new)]) s

/-- The tray enters a state (R566): TRAY_STATE, STATE_CHANGED and the unit state. As it leaves STANDBY, spill uses both
pool halves again (R204); a boot ends as it first enters STANDBY, whichever way, and BOOT_MS is taken (R586). -/
def trayTo (st : TState) (s : State) : State :=
  let old := s.tray.st
  if old = st then s
  else
    let ends := st == .standby && s.tray.booting
    let s := modTray (fun t =>
      { t with
        st := st, returnSt := if st = .unscheduled then t.returnSt else .off, booting := t.booting && !ends
        bootMs := if ends then sat 32 ((s.reel.clock - t.wakeAt) / 500000) else t.bootMs }) s
    let s := onlyIf (old == .standby) (modFwd fun w => { w with spillOut := [] }) s
    raiseUnitState trayUnit (trayUnitCode old) (trayUnitCode st)
      (stick 31 (raise 0x0A00 [(8, stCode old), (8, stCode st)] s))

/-- The ledger agrees with the domain (R497); before any comparison only an empty peer set does. -/
def ledgerAgrees (s : State) : Bool := s.ledger.agrees || (!s.ledger.compared && s.ledger.peers.isEmpty)

/-! ### Cartridges (R247) -/

/-- How far a port state is advanced; RELOCK ranks with TRAINING, PATTERN with DARK. -/
def advance : PState → Nat
  | .dark | .pattern => 0
  | .training | .relock => 1
  | .probation => 2
  | .standby => 3
  | .admitted => 4

/-- The unit state code of a cartridge: DARK while empty, unlatched or unidentified, else its least advanced used port. -/
def cartState (s : State) (b : Nat) : Nat :=
  let y := bay s b
  if y.presence.closed && y.latch.closed && y.idOk then
    match (usedBayPorts s b).map fun u => advance (port s u).st with
    | [] => 0
    | x :: t => t.foldl min x
  else 0

/-- Run an operation and raise UNIT_STATE where the cartridge of a front port changed its state. -/
def withCart (u : Nat) (f : State → State) (s : State) : State :=
  let b := bayOf (uAsic u) (uPort u)
  let t := f s
  if isFront (uPort u) && uSide u == 0 then raiseUnitState (cartUnit b) (cartState s b) (cartState t b) t else t

/-- Run an operation that changes which ports are used and raise UNIT_STATE for every cartridge that it changes the state
of (R247, R681). -/
def withCarts (f : State → State) (s : State) : State :=
  let t := f s
  forAll (List.range 16) (fun b v => raiseUnitState (cartUnit b) (cartState s b) (cartState t b) v) t

/-! ### Holding frames for a lost port (R237 to R242) -/

/-- The queue keys of a port. -/
def queueKeys (u : Nat) : List Nat := (List.range 5).map fun c => u * 8 + c

/-- The spilled frames against a port's queues. -/
def spilledFor (s : State) (u : Nat) : List (Nat × QFrame) :=
  (spilledOf s (uAsic u)).filter fun e => e.1 / 8 == u

def queuedFor (s : State) (u : Nat) : List QFrame := (List.range 5).flatMap fun c => queue s u c

/-- A unit holds frames: queued or in the pool against its queues. -/
def holdsFrames (s : State) (u : Nat) : Bool := !(queuedFor s u).isEmpty || !(spilledFor s u).isEmpty

/-- Every frame queued for a port becomes diverted (R237). -/
def divertQueued (u : Nat) (s : State) : State :=
  let s := forAll ((queuedFor s u).filter fun q => !q.diverted) (divert (uAsic u)) s
  modFwd (fun w => { w with queues := w.queues.map fun e =>
    if e.1 / 8 = u then (e.1, e.2.map fun q => { asDiverted s (uAsic u) q with headSince := none }) else e }) s

/-- The frames that a transmitter has sent without acknowledgement, or has committed, go back to the front of their
queues as its link ends: a sent frame is kept until an acknowledgement covers it (R152). DEDUCED: a frame that the far
end had accepted unseen goes twice. -/
def putBack (u : Nat) (s : State) : State :=
  let l := link s u
  let sent := (l.unacked.filter fun x => !x.stomped && !isTrayProbe x.q.f).map fun x =>
    ((sendingAt s u).find? fun g => g.f == x.q.f).getD x.q
  let back := sent ++ l.waiting.toList
  let s := modFwd (fun w => { w with sending := w.sending.filter fun e => e.1 != u }) s
  forAll (List.range 5) (fun c => setQueue u c ((back.filter fun q => q.cls == c) ++ queue s u c))
    (modLink u (fun l => { l with unacked := [], waiting := none }) s)

/-- A port goes down from a state (R237): the hold window starts, or a running one takes the frames in; PORT_HELD comes
with frames queued (R267). -/
def holdBegin (u : Nat) (left : PState) (s : State) : State :=
  let n := (queuedFor s u).length + (spilledFor s u).length
  let s := divertQueued u s
  let s := modPunit u (fun p => if p.hold.isSome then p else
    { p with hold := some { lossTurn := s.reel.turn, bound := s.reel.bounds, window := p.window, left := left } }) s
  onlyIf (n != 0) (fun s => count (fwdCtr (uAsic u) 15) n (raise 0x0900 [iUnit u, iCount n] s)) s

/-- A held port re-enters the state it left (R240). -/
def holdResume (u : Nat) (s : State) : State :=
  match (punit s u).hold with
  | some h =>
    if h.left = (port s u).st then
      raise 0x0901 [iUnit u] (modPunit u (fun p => { p with hold := none }) s)
    else s
  | none => s

/-- Take every spilled frame that a test names out of an ASIC's pages; empty pages are freed (R189). -/
def unspill (asic : Nat) (p : Nat × QFrame → Bool) (s : State) : State :=
  modSpill asic (fun sp => { sp with pages := (sp.pages.map fun g =>
    { g with frames := g.frames.filter fun e => !p e }).filter fun g => !g.frames.isEmpty }) s

/-- Take one frame out of a queue. -/
def dequeue (u : Nat) (q : QFrame) (s : State) : State := setQueue u q.cls ((queue s u q.cls).erase q) s

/-- A spill page that cannot be read: retired, its frames discarded with SPILL_LOST (R203). -/
def spillPageLost (asic : Nat) (g : SpillPage) (s : State) : State :=
  let s := modSpill asic (fun sp => { sp with pages := sp.pages.filter fun h => h.page != g.page }) s
  let s := forAll g.frames (fun e s => retire asic e.2 (dropFrame dropSpillLost (e.1 / 8) e.2.f s)) s
  raise 0x0206 [iUnit (asicUnit asic), (23, g.page)] (retirePage g.page false s)

/-- A spilled frame is read from its page and taken out of the pool (R203): whether it could be, and the state. -/
def readBack (asic key : Nat) (q : QFrame) (s : State) : Bool × State :=
  match (spillOf s asic).pages.find? fun g => g.frames.contains (key, q) with
  | none => (false, s)
  | some g =>
    let (ok, s) := poolRead g.page (frameBytes q.f) q.cls s
    if ok then (true, unspill asic (fun e => e == (key, q)) s) else (false, spillPageLost asic g s)

/-- Place one held frame against a new port (R241): its queue, else the pool, else HOLD_EXPIRED. A frame in the pool that
does not fit stays there against the new queue. -/
def moveHeld (u v : Nat) (mark spilled : Bool) (q : QFrame) (s : State) : State :=
  let a := uAsic u
  let q' := { q with parked := false, released := false, headSince := none, mode := none, f := { q.f with mark := q.f.mark || mark } }
  if fits s v q' then
    (if spilled then
      let (ok, s) := readBack a (u * 8 + q.cls) q s
      if ok then enqueue v q' s else s
    else enqueue v q' (dequeue u q s))
  else if spilled then
    modSpill a (fun sp => { sp with pages := sp.pages.map fun g =>
      { g with frames := g.frames.map fun e => if e = (u * 8 + q.cls, q) then (v * 8 + q.cls, q') else e } }) s
  else
    let s := dequeue u q s
    if canSpill s v q' then spillFrame v q' s
    else retire a q (dropFrame dropHoldExpired u q.f (noteQuotaFull v q' s))

/-- A held frame is discarded with HOLD_EXPIRED (R241). -/
def dropHeld (u : Nat) (spilled : Bool) (q : QFrame) (s : State) : State :=
  let s := if spilled then unspill (uAsic u) (fun e => e == (u * 8 + q.cls, q)) s else dequeue u q s
  retire (uAsic u) q (dropFrame dropHoldExpired u q.f s)

/-- The frames of a port, queued and in the pool, each with whether it is in the pool. -/
def portFrames (s : State) (u : Nat) : List (Bool × QFrame) :=
  ((queuedFor s u).map fun q => (false, q)) ++ ((spilledFor s u).map fun e => (true, e.2))

/-- Place the frames of a port again, flow by flow, in the order of each flow's oldest frame (R241). -/
def placeHeld (u : Nat) (s : State) : State :=
  let a := uAsic u
  let byAge := sortBy (fun (x y : Bool × QFrame) => decide (x.2.stampClock ≤ y.2.stampClock)) (portFrames s u)
  let flows := (byAge.map fun x => flowKey x.2.f).eraseDups
  forAll flows (fun k (acc : State) =>
    let mine := byAge.filter fun x => flowKey x.2.f == k
    match mine with
    | [] => acc
    | oldest :: _ =>
      let e := eptEntry acc acc.fwd.tables.inForce a oldest.2.f.dst
      let cls := oldest.2.cls
      let inOrder := sortBy (fun (x y : Bool × QFrame) => !(seqBefore 12 y.2.f.pathSeq x.2.f.pathSeq)) mine
      match sprayPick acc (a * 8 + cls) ((routeSet acc a e cls).filter (· != u)) (fun v => depth acc v cls) with
      | some v => forAll inOrder (fun x => moveHeld u v false x.1 x.2) (sprayAdvance (a * 8 + cls) v acc)
      | none =>
        match bestLink acc (siblingLinks acc a (if eptValid e then eptSiblings e a else []) cls) cls with
        | some v => forAll inOrder (fun x => moveHeld u v true x.1 x.2) acc
        | none => forAll inOrder (fun x => dropHeld u x.1 x.2) acc) s

/-- A hold window ends and the port has not returned (R241): HOLD_EXPIRED counts moved and discarded frames. -/
def holdExpire (u : Nat) (s : State) : State :=
  let n := (portFrames s u).length
  let run := placeHeld u s
  let lost := fun (t : State) => tabGet 0 t.ctr.live (fwdCtr (uAsic u) 6)
  let dropped := lost run - lost s
  raise 0x0902 [iUnit u, iCount (n - dropped), iCount dropped] (modPunit u (fun p => { p with hold := none }) run)

/-- Frames waiting at an HC-8 transmitter whose port leaves service go to another controller port of the ASIC. -/
def hc8Reroute (u : Nat) (s : State) : State :=
  forAll (List.range 5) (fun c s =>
    match leastBy (fun v => depth s v c) ((hc8Ports s (uAsic u) c).filter (· != u)) with
    | none => s
    | some v => setQueue u c [] (setQueue v c (queue s v c ++ queue s u c) s)) s

/-! ### Port states (R243) -/

/-- The key of a lane's overlay (R142, R143). -/
def eqKey (u lane rate : Nat) : Nat := u * 16 + lane * 4 + rate

/-- The factory block of a lane at a rate (R121). -/
def eqFactoryOf (u lane rate : Nat) : EqBlock :=
  let f := Config.eqFactory u lane rate
  { main := f 0, pre2 := f 1, pre1 := f 2, post1 := f 3, ctle := f 4, vga := f 5, fom := 96 }

def eqOverlay (s : State) (u lane rate : Nat) : EqBlock := tabGet {} s.eq (eqKey u lane rate)

/-- The effective block: the clamp of factory plus overlay, TX_MAIN limited by the other taps (R21, R121). -/
def eqEffective (s : State) (u lane rate : Nat) : EqBlock :=
  let f := eqFactoryOf u lane rate
  let o := eqOverlay s u lane rate
  let pre2 := clampI (-6) 0 (f.pre2 + o.pre2)
  let pre1 := clampI (-16) 0 (f.pre1 + o.pre1)
  let post1 := clampI (-16) 0 (f.post1 + o.post1)
  { main := min (clampI 26 64 (f.main + o.main)) (64 - pre2.natAbs - pre1.natAbs - post1.natAbs)
    pre2 := pre2, pre1 := pre1, post1 := post1, ctle := clampI 0 31 (f.ctle + o.ctle)
    vga := clampI 0 63 (f.vga + o.vga), fom := clampI 32 224 (f.fom + o.fom) }

/-- A training attempt starts at step 0 (R112, R113). DESIGN CHOICE: SLIP is counted from the start of the attempt
(log entry 190). -/
def startAttempt (s : State) (p : Port) : Port :=
  modLanes
    { p with
      step := 0, stepAt := s.reel.clock, attempts := p.attempts + 1, attemptAt := s.reel.bounds, rxReady := false
      txEnded := false }
    fun _ l => { l with slip := 0, rounds := 0, mismatch := false }

/-- The lanes on entry to TRAINING or RELOCK: the effective blocks of the rate in force (R122), no suspicion (R161), the
transmitter at the start of a training sequence (R102, R107). -/
def freshLanes (s : State) (u : Nat) (p : Port) : Port :=
  modLanes p fun k l =>
    { l with
      suspect := false, run := 0, exitRun := 0, rounds := 0, adapts := 0, eff := eqEffective s u k p.set.rate, txPre := 0
      txPrbs := 0x7FFFFFFF }

/-- The port end as it stands on entry to a state: what R111, R113, R122, R126, R141 and R243 reset. -/
def enterState (u : Nat) (st : PState) (s : State) (p : Port) : Port :=
  let p := { p with st := st, step := 0, stepAt := s.reel.clock, wakeAt := none, rxSeen := 0 }
  match st with
  | .dark => modLanes
      { p with
        attempts := 0, exitFails := 0, txIdle := true, rxIdle := true, rxReady := false, txEnded := false, adapt := none
        blocks := [] }
      fun _ _ => {}
  | .training => freshLanes s u (startAttempt s
      { p with txIdle := false, rxIdle := false, adapt := none, blocks := [], sendAt := gridFrom s p.set 0 })
  | .relock => freshLanes s u
      { p with
        rxReady := false, txEnded := false, txIdle := true, rxIdle := true, adapt := none, blocks := []
        relockAt := s.reel.clock }
  | .probation => { p with step := 6, fillFrom := max p.fillFrom s.reel.clock }
  | .standby | .admitted => { p with step := 6 }
  | .pattern => { p with txIdle := false, blocks := [], sendAt := gridFrom s p.set 0 }

/-- The link of a port end starts afresh (R151): sequences at 0, nothing unacknowledged. -/
def linkReset (u : Nat) (s : State) : State := { s with links := tabSet {} s.links u {} }

/-- The tray PROBE of a port (R48). -/
def trayProbe (s : State) (u : Nat) (r : Role) : Frame :=
  ctrlFrame (ownEid s) (ownEid s) 0 1 0
    (put 31 30 r.role + put 29 28 r.group + put 27 22 r.position + put 21 20 (uAsic u) + put 19 13 (uPort u)) 0 0 0 []

/-- The most cells that a queue has held (R216). -/
def notePeak (u cls : Nat) (s : State) : State :=
  modFwd (fun w => { w with peaks := tabMod 0 w.peaks (u * 8 + cls) (max (depth s u cls)) }) s

/-- On every entry to PROBATION a leaf up or spine port sends its tray PROBE first (R48). -/
def probeFirst (u : Nat) (s : State) : State :=
  match s.tray.role with
  | some r =>
    if uSide u = 0 && upOrSpine s (uPort u) then
      let q : QFrame := { f := trayProbe s u r, stampTurn := s.reel.turn, stampTick := s.reel.tick, stampClock := s.reel.clock, inUnit := u }
      notePeak u 0 (setQueue u 0 (q :: queue s u 0) s)
    else s
  | none => s

/-- Whether a change of state loses the port's service (R237). -/
def goesDown (old new : PState) : Bool :=
  (old == .standby || old == .admitted) && (new == .training || new == .relock || new == .dark)

/-- One port end enters a state: frames kept or held, fields reset, UNIT_STATE raised (R152, R243, R681). -/
def portEnter (u : Nat) (st : PState) (s : State) : State :=
  let old := (port s u).st
  let lost := st == .training || st == .dark || st == .relock
  if old = st then s
  else withCart u (fun s =>
    let s := onlyIf lost (putBack u) s
    let s := onlyIf (uSide u == 0 && goesDown old st) (holdBegin u old) s
    let s := setPort u (enterState u st s (port s u)) s
    let s := onlyIf (st == .training) (count (linkCtr u 13) 1) s
    let s := onlyIf (lost || st == .probation) (linkReset u) s
    let s := onlyIf (st == .training || st == .dark) (modPunit u fun p => { p with first := none, wiringHeld := false, passed := false, clean := 0 }) s
    let s := onlyIf (st == .probation) (modPunit u fun p => { p with clean := 0, probeMissing := false, lasting := false }) s
    let s := onlyIf (st == .probation) (probeFirst u) s
    let s := onlyIf (st != .admitted) (modAux u fun a => { a with drainTurn := none }) s
    let s := onlyIf (uSide u == 1 && (old == .admitted || goesDown old st)) (hc8Reroute u) s
    raiseUnitState u (pCode old) (pCode st) s) s

/-- A port end enters a state; the other end of a controller port leaves ADMITTED with it (R681). -/
def portTo (u : Nat) (st : PState) (s : State) : State :=
  let old := (port s u).st
  let t := portEnter u st s
  let v := if uSide u = 0 then hc8End u else asicEnd u
  if isCtrl (uPort u) && old == .admitted && st != .admitted && (port t v).st == .admitted then portEnter v .standby t else t

/-- A port end goes DARK and its frames are held under R237. -/
def portDark (u : Nat) (s : State) : State := portTo u .dark s

/-! ### The wiring check (R46, R47) -/

/-- The check of R46 for a recorded first CTRL frame. DESIGN CHOICE: a front port of a tray without an accepted role,
for which R46 names no check, takes the endpoint-table check of down and single-stage ports (log entry 191). -/
def wiringOk (s : State) (u : Nat) (f : FirstCtrl) : Bool :=
  let a := uAsic u
  let p := uPort u
  let listed := s.fwd.ept.any fun e =>
    e.1 / 2 ^ 12 % 4 == a && e.1 % 2 ^ 12 == f.src && eptValid e.2 && (eptPorts e.2).contains p
  match s.tray.role with
  | some r =>
    if upOrSpine s p then
      let probe := f.ctype == 1 && decide (0xC00 ≤ f.src) && decide (f.src ≤ 0xCFF) && f.dst == f.src && f.len32 == 0 && f.chan == 0
      let w := f.carg4.toNat
      let want := if r.role = 1 then (2, p - 36, r.position) else (1, p, 36 + r.position)
      trayLinkPort s p && probe && fld w 31 30 == want.1 && fld w 29 28 == r.group && fld w 27 22 == want.2.1 &&
        fld w 21 20 == a && fld w 19 13 == want.2.2
    else listed
  | none => listed

/-- The wiring condition of R243 and R245 for leaving PROBATION: a front port has a first CTRL frame and is not held by
its check, which is made when the frame comes and again only at the moments of R47. -/
def wiringPassed (s : State) (u : Nat) : Bool :=
  if isFront (uPort u) then (punit s u).first.isSome && !(punit s u).wiringHeld else true

/-- PROBATION ends for STANDBY once passed, wired and with its ASIC in service (R243). -/
def probationExit (u : Nat) (s : State) : State :=
  let a := (asicSt s (uAsic u)).st
  if (port s u).st = .probation && (punit s u).passed && wiringPassed s u && (a == .standby || a == .admitted) then
    holdResume u (portTo u .standby s)
  else s

/-- Judge the recorded first CTRL frame of a port: WIRING_MISMATCH and hold, or release (R46, R47). -/
def judgeWiring (u : Nat) (s : State) : State :=
  match (punit s u).first with
  | none => s
  | some f =>
    if wiringOk s u f then probationExit u (modPunit u (fun p => { p with wiringHeld := false }) s)
    else if (punit s u).wiringHeld then s
    else raise 0x0800 [iUnit u, (12, f.src), (12, if upOrSpine s (uPort u) then 0xFFF else (listedEid s (uAsic u) (uPort u)).getD 0xFFF)]
      (modPunit u (fun p => { p with wiringHeld := true }) s)

/-- Check the recorded frames of an ASIC's held front ports again, whatever their state (R47). -/
def rejudgeWiring (asic : Nat) (s : State) : State :=
  forAll (((List.range 72).map (unitOf asic)).filter fun u => (punit s u).wiringHeld) judgeWiring s

/-! ### ASICs (R246, R255) -/

/-- An ASIC enters a state. -/
def asicTo (a : Nat) (st : PState) (s : State) : State :=
  let old := (asicSt s a).st
  raiseUnitState (asicUnit a) (pCode old) (pCode st) (modAsic a (fun x => { x with st := st }) s)

/-- The required ports of an ASIC: its controller ports and the sibling ports to ASICs that are not DARK, without
those set to DARK by the driver (R246). -/
def requiredPorts (s : State) (a : Nat) : List Nat :=
  (((List.range 8).map fun i => unitOf a (72 + i)) ++
    ((numbers 4 fun b => b != a && (asicSt s b).st != .dark).flatMap fun b => (siblingPorts a b).map (unitOf a))).filter
      fun u => !(punit s u).disabled

/-- Start AUTO training on a DARK port end (R109, R246). -/
def trainAuto (u : Nat) (s : State) : State :=
  if (port s u).st = .dark then
    portTo u .training (modPort u (fun p => { p with manual := false }) s)
  else s

/-- TRAINING becomes PROBATION once every required port has reached it (R246). -/
def asicCheck (a : Nat) (s : State) : State :=
  if (asicSt s a).st = .training && (requiredPorts s a).all fun u =>
      (port s u).st == .probation || (port s u).st == .standby || (port s u).st == .admitted then asicTo a .probation s
  else s

/-- An ASIC loses power or is reset (R246, R255): its ports DARK, frames in its cells lost without records, its
spilled frames discarded with reason SPILL_LOST, its contexts closed; the ports that the other ASICs require are fewer. -/
def asicDown (a : Nat) (s : State) : State :=
  let spilled := spilledOf s a
  let s := forAll (asicPorts a) (fun u => modLink u fun l => { l with unacked := [], waiting := none }) s
  let s := modFwd (fun w => { w with
    queues := w.queues.filter fun e => !(e.1 / 8 < 2 ^ 15 && uAsic (e.1 / 8) == a)
    sending := w.sending.filter fun e => uAsic e.1 != a
    reseq := tabMod {} w.reseq a fun r => { r with contexts := [] } }) s
  let s := forAll spilled (fun e => dropFrame dropSpillLost (e.1 / 8) e.2.f) (modSpill a (fun sp => { sp with pages := [] }) s)
  let s := forAll ((asicPorts a) ++ (List.range 8).map fun i => hc8End (unitOf a (72 + i)))
    (fun u s => portDark u (modPunit u (fun p => { p with hold := none, disabled := false }) s)) s
  forAll ((List.range 4).filter (· != a)) asicCheck
    (asicTo a .dark (modAsic a (fun x => { x with answered := false, present := false, mismatches := 0 }) s))

/-! ### Admission and withdrawal (R248 to R251) -/

/-- The state code of a unit (R264). -/
def unitState (s : State) (u : Nat) : Nat :=
  match uKind u with
  | 0 => pCode (port s u).st
  | 1 => cartState s (uBay u)
  | 2 => pCode (asicSt s (uAsic u)).st
  | _ => trayUnitCode s.tray.st

/-- A port is admitted: both ends of a controller port together (R681). -/
def admitPort (u : Nat) (s : State) : State :=
  if (bothEnds u).all fun v => (port s v).st == .standby then
    forAll (bothEnds u) (fun v s => holdResume v (portEnter v .admitted s)) s
  else s

/-- The ports of a unit that its admission admits: those then in STANDBY (R246, R247). -/
def admitPorts (s : State) (u : Nat) : List Nat :=
  match uKind u with
  | 0 => [u]
  | 1 => usedBayPorts s (uBay u)
  | 2 => (asicPorts (uAsic u)).filter fun v => (port s v).st == .standby
  | _ => []

/-- An ASIC in STANDBY is admitted, and with an ADMITTED ASIC every port of it in STANDBY (R246, R248). -/
def admitAsic (a : Nat) (s : State) : State :=
  let s := if (asicSt s a).st == .standby then asicTo a .admitted s else s
  if (asicSt s a).st = .admitted then forAll (admitPorts s (asicUnit a)) admitPort s else s

/-- The first condition of R249 that an admission breaks, as a LAST_FAIL code (R264); 0 for none. -/
def admitFail (s : State) (u turn : Nat) : Nat :=
  match planNow s with
  | none => 3
  | some k =>
    if !boltAt k turn then 3
    else if !includesUnit s k u then 2
    else if uKind u = 3 then
      if s.tray.st != .standby || s.tray.role.isNone || !halfUp s 0 || !halfUp s 1 then 1
      else if s.tray.dup || !ledgerAgrees s then 5
      else 0
    else if unitState s u != 3 || !((if uKind u = 0 then bothEnds u else []).all fun v => (port s v).st == .standby) then 1
    else if s.tray.st != .admitted then 4
    else if uKind u = 2 then 0
    else
      let a := if uKind u = 1 then uBay u / 4 else uAsic u
      if (asicSt s a).st != .admitted then 4 else 0

/-- An admission at its turn (R249): the unit ADMITTED, or ADMIT_FAILED with its cause. -/
def admitUnit (u turn : Nat) (s : State) : State :=
  match admitFail s u turn with
  | 0 =>
    if uKind u = 3 then forAll (List.range 4) admitAsic (trayTo .admitted s)
    else if uKind u = 2 then admitAsic (uAsic u) s
    else forAll (admitPorts s u) admitPort s
  | c => raise 0x0906 [iUnit u, (4, c)] (modAux u (fun a => { a with lastFail := c }) s)

/-- The ADMITTED ports of a unit. -/
def servingPorts (s : State) (u : Nat) : List Nat :=
  let all := match uKind u with
    | 0 => bothEnds u
    | 1 => bayPorts (uBay u)
    | 2 => asicPorts (uAsic u) ++ (List.range 8).map fun i => hc8End (unitOf (uAsic u) (72 + i))
    | _ => (List.range 4).flatMap fun a => asicPorts a ++ (List.range 8).map fun i => hc8End (unitOf a (72 + i))
  all.filter fun v => (port s v).st == .admitted

/-- A withdrawal at its turn (R250): the unit leaves the route sets and drains; a unit not ADMITTED stays as it is. -/
def withdrawUnit (u turn : Nat) (s : State) : State :=
  if unitState s u = 4 then
    forAll (u :: servingPorts s u) (fun v => modAux v fun a => { a with drainTurn := some turn }) s
  else s

/-- A withdrawn unit still holds a queued or spilled frame, or one whose egress is in progress. -/
def unitHolds (s : State) (u : Nat) : Bool :=
  (servingPorts s u).any fun v => holdsFrames s v || !(sendingAt s v).isEmpty

/-- A drained unit enters STANDBY (R250). -/
def withdrawDone (u : Nat) (s : State) : State :=
  let ports := servingPorts s u
  let s := modAux u (fun a => { a with drainTurn := none }) s
  let s := forAll ports (fun v => portTo v .standby) s
  match uKind u with
  | 2 => onlyIf ((asicSt s (uAsic u)).st == .admitted) (asicTo (uAsic u) .standby) s
  | 3 =>
    let s := forAll (List.range 4) (fun a s => onlyIf ((asicSt s a).st == .admitted) (asicTo a .standby) s) s
    onlyIf (s.tray.st == .admitted) (trayTo .standby) s
  | _ => s

/-! ### UNSCHEDULED and the duplicate number (R52, R81, R83, R567) -/

/-- Cancel every pending action in FREE; a cancelled swap is remembered as CANCELLED_BY_FREE (R83, R302, R315). -/
def cancelAll (s : State) : State :=
  let l := s.sched
  let s := onlyIf (l.any fun a => a.kind == .planSwap) (fun s =>
    raise 0x0301 [(8, 3)] (modPlan (fun p => { p with lastRefuse := 3 }) s)) s
  forAll l raiseCancelled { s with sched := [] }

/-- The tray enters UNSCHEDULED at the holdover limit (R81, R566, R567). -/
def unschedule (s : State) : State :=
  match s.tray.st with
  | .join | .standby | .service | .admitted =>
    let ret := if s.tray.st = .admitted && !s.tray.dup then TState.admitted else .standby
    trayTo .unscheduled (modTray (fun t => { t with returnSt := ret }) (forgetHeads s))
  | _ => s

/-- DUPLICATE_TRAY, at every such frame or record: the tray goes toward STANDBY as its state allows (R52). -/
def duplicateTray (viaCrier : Bool) (s : State) : State :=
  let s := raise 0x0829 [iFlag viaCrier] (modTray (fun t => { t with dup := true }) s)
  match s.tray.st with
  | .join | .service => if s.tray.powerDown then s else trayTo .standby s
  | .admitted =>
    if (unitAux s trayUnit).drainTurn.isSome || s.sched.any fun a => a.kind == .withdraw && a.unit == trayUnit && a.trayPlaced
    then s
    else
      let now := s.reel.turn
      let t := match planNow s with
        | some k => if 0 < boltTurns k then (now / boltTurns k + 1) * boltTurns k % 2 ^ 48 else (now + 1) % 2 ^ 48
        | none => (now + 1) % 2 ^ 48
      schedAdd { kind := .withdraw, unit := trayUnit, turn := t, opcode := 0, trayPlaced := true, arg := .none } s
  | .unscheduled => modTray (fun t => { t with returnSt := .standby }) s
  | _ => s

end Sys2Proof.Machine
end

