-- ==== Sys2Proof/Machine/Command.lean ====
section
/-! DEFINITION. How a mailbox command runs (15_mailboxes.md): acceptance, the execution point, the order of the
statuses (R602), the guard and the generation (R604, R605), attempts (R612), completion (R596), long commands
(R601) and the responses of remote mailboxes (R606 to R609). -/

namespace Sys2Proof.Machine

open Sys2Proof

/-! ### Mailboxes and their buffers -/

/-- The source of a mailbox at reset (R593). -/
def sourceAtReset (n : Nat) : Via := if n = 31 then .crier else if 28 ≤ n then .fabric else .pcie

/-- A mailbox at reset: its source, and its vector n (R593, R619). -/
def boxAtReset (n : Nat) : Mbox := { source := sourceAtReset n, vector := n }

def box (s : State) (n : Nat) : Mbox := tabGet (boxAtReset n) s.mail.boxes n

def modBox (n : Nat) (f : Mbox → Mbox) (s : State) : State :=
  modMail (fun m => { m with boxes := tabMod (boxAtReset n) m.boxes n f }) s

/-- Header word i of a mailbox as the buffer stands (R620). -/
def hdr (s : State) (n i : Nat) : Nat := ofLe (tabRead s.mail.mem (0x1000 * n + 4 * i) 4)

def opcodeOf (s : State) (n : Nat) : Nat := fld (hdr s n 0) 31 16

/-- MB_ACTIVE: the mailboxes QUEUED or EXECUTING (R619). -/
def isActive (b : Mbox) : Bool := b.st == .queued || b.st == .executing

def mbActive (s : State) : Nat := maskOf (numbers 32 fun n => isActive (box s n))

def viaCode : Via → Nat
  | .pcie => 0 | .fabric => 1 | .crier => 2

def mStateCode : MState → Nat
  | .idle => 0 | .queued => 1 | .executing => 2 | .done => 3

/-- Acceptance of a command (R594, R595): STATUS pending, MB_DONE bit cleared, QUEUED, last in order. -/
def acceptCommand (n : Nat) (via : Via) (origin tag chan : Nat) (s : State) : State :=
  let s := modBox n (fun b =>
    { b with st := .queued, via := via, origin := origin, tag := tag, chan := chan, kept := none }) s
  let s := bufWrite (0x1000 * n + 1) [0xFF] s
  count (hc8Ctr 9) 1 (modMail (fun m =>
    { m with
      done := m.done &&& ~~~(1#32 <<< n), order := m.order ++ [n], accepted := sat 32 (m.accepted + 1) }) s)

/-! ### Completion (R596) -/

/-- The completed header: the RO fields written over what the buffer holds (R620). -/
def doneHeader (s : State) (n status resultBytes attempts argFault gen : Nat) : List Byte :=
  let w := hdr s n
  let b := box s n
  let keep := fun (v hi lo : Nat) => v - put hi lo (fld v hi lo)
  leWords [keep (w 0) 15 8 + put 15 8 status, w 1, keep (w 2) 27 16 + put 27 16 resultBytes,
    keep (keep (w 3) 30 29) 11 0 + put 30 29 attempts + put 11 0 argFault, w 4, gen,
    s.reel.turn % 2 ^ 32,
    put 31 30 (viaCode b.via) + put 29 28 (fld (w 7) 29 28) + put 27 16 b.origin + put 15 0 (s.reel.turn / 2 ^ 32)]

/-- As `doneHeader`, for a long command: GEN, ACCEPT_TURN and ORIGIN stand as written at the execution point. -/
def lateHeader (s : State) (n status resultBytes attempts argFault : Nat) : List Byte :=
  (doneHeader s n status resultBytes attempts argFault (hdr s n 5)).take 24 ++
    leWords [hdr s n 6, hdr s n 7]

/-- The payload of a mailbox response: header and result block (R608). -/
def responseFrame (s : State) (n transport dst tag chan : Nat) (payload : List Byte) : Frame :=
  ctrlFrame (ownEid s) dst chan 3 tag (transportWord n transport false 0) 0 0 0 payload

/-- A Crier frame queued for sending, at most 8 (R488). -/
def crierQueue (f : CFrame) (s : State) : State :=
  if s.crier.queue.length < 8 then modCrier (fun c => { c with queue := c.queue ++ [f] }) s else s

/-- A response over Crier: the transport word, then header and at most 210 result bytes (R609). -/
def crierResponse (n transport dst tag : Nat) (payload : List Byte) : CFrame :=
  { dst := dst, typ := 2, bcast := false,
    payload := beBytes 4 (transportWord n transport (decide (242 < payload.length)) tag) ++ payload.take 242 }

/-- The signal of a completed mailbox: MSI-X, or the response to the origin, kept for repeats (R596, R608). -/
def signalDone (n : Nat) (payload : List Byte) (s : State) : State :=
  let b := box s n
  match b.via with
  | .pcie => if s.mail.irqEn.getLsbD n then msix b.vector s else s
  | .fabric => hc8Post (responseFrame s n 0 b.origin b.tag b.chan payload) (modBox n (fun x => { x with kept := some payload }) s)
  | .crier => crierQueue (crierResponse n 0 b.origin b.tag payload) (modBox n (fun x => { x with kept := some payload }) s)

/-- Completion with a header already made: the command's events placed (R599, R640), then result block, header, DONE,
MB_DONE and the signal, in that order. -/
def completeWith (n : Nat) (header result : List Byte) (s : State) : State :=
  let s := flushEvents s
  let s := bufWrite (0x1000 * n) header (bufWrite (0x1000 * n + 32) result s)
  let s := modMail (fun m => { m with done := m.done ||| (1#32 <<< n) }) (modBox n (fun b => { b with st := .done }) s)
  signalDone n (header ++ result) s

/-- Completion at the execution point. -/
def complete (n status attempts argFault : Nat) (result : List Byte) (s : State) : State :=
  completeWith n (doneHeader s n status result.length attempts argFault s.mail.gen) result s

/-! ### The execution point (R598, R599) -/

/-- Opcodes that the recovery window lets through (R575): FW_WRITE, FW_VERIFY, FW_ACTIVATE, FW_STATUS_GET,
TRAY_STATE_GET and TRAY_RESTART. -/
def recoveryOpcode (op : Nat) : Bool := decide (0x0A00 ≤ op) && decide (op ≤ 0x0A05)

/-- Commands can execute: firmware running, or the recovery window open (R570, R575, R617). -/
def mailOpen (s : State) : Bool := fwUp s || s.tray.recovery

/-- A command row's execution point has come: its mailbox is the first in order, QUEUED, with its opcode. -/
def atPoint (op mb : Nat) (s : State) : Bool :=
  mailOpen s && s.mail.order.head? == some mb && (box s mb).st == .queued && opcodeOf s mb == op

/-- The command as the buffer holds it at its execution point. -/
def cmdOf (op mb fails : Nat) (s : State) : Cmd :=
  let len := fld (hdr s mb 2) 11 0
  { mb := mb, opcode := op, fails := fails, len := len, args := tabRead s.mail.mem (0x1000 * mb + 32) len }

/-- The tray after a command has been taken from the order. -/
def popOrder (s : State) : State := modMail (fun m => { m with order := m.order.drop 1 }) s

/-- The guard fails (R605). -/
def staleGuard (mb : Nat) (s : State) : Bool := bit (hdr s mb 3) 31 && hdr s mb 4 != s.mail.gen

/-- CONFIG_GEN after a command that reaches application (R604). -/
def bumpGen (readOnly : Bool) (s : State) : State :=
  if readOnly then s else modMail (fun m => { m with gen := (m.gen + 1) % 2 ^ 32 }) s

/-- PLAN_SEAL and ANNEAL_SEAL return their result block under every status (R313, R434); other refusals and faults
return none here. -/
def alwaysResult (c : Cmd) (res : List Byte) : List Byte := if c.opcode = 0x0303 ∨ c.opcode = 0x0601 then res else []

/-- A second failed attempt (R612): FAULT, with MB_FAULT raised. -/
def faultCommand (c : Cmd) (res : List Byte) (s : State) : State :=
  let s := count (hc8Ctr 11) 1 (modMail (fun m => { m with faults := sat 32 (m.faults + 1) }) s)
  complete c.mb stFault 2 0xFFF (alwaysResult c res) (raise 0x0000 [(5, c.mb), (16, c.opcode)] s)

/-- A transient failure (R612). -/
def noteTransient (fails : Nat) (s : State) : State :=
  if fails = 0 then s else count (hc8Ctr 10) 1 (modMail (fun m => { m with transient := sat 32 (m.transient + 1) }) s)

/-- A long command starts: EXECUTING, with GEN, ACCEPT_TURN and ORIGIN written (R595, R601). -/
def startLong (c : Cmd) (subject ticks : Nat) (s : State) : State :=
  let s := bufWrite (0x1000 * c.mb + 20) ((doneHeader s c.mb 0 0 0 0 s.mail.gen).drop 20) s
  modMail (fun m =>
    { m with
      long := m.long ++ [{ mb := c.mb, opcode := c.opcode, subject := subject, limit := s.reel.clock + ticks,
                           attempts := c.fails + 1 }] })
    (modBox c.mb (fun b => { b with st := .executing }) s)

/-- What a command's verdict does to the tray (R596, R601, R602, R604, R605, R612). `readOnly` exempts it from
CONFIG_GEN; `onFault` is what a second failed attempt may leave behind. -/
def settle (c : Cmd) (readOnly : Bool) (onFault : State → State) (v : Verdict) (s : State) : State :=
  let blocked := staleGuard c.mb s
  match v with
  | .refuse st af res =>
    if blocked && st != stBadOpcode && st != stBadArg then complete c.mb stStale 0 0xFFF (alwaysResult c res) s
    else complete c.mb st 0 af res s
  | .done st res t =>
    if blocked then complete c.mb stStale 0 0xFFF (alwaysResult c res) s
    else if 2 ≤ c.fails then faultCommand c res (onFault (bumpGen readOnly s))
    else complete c.mb st (c.fails + 1) 0xFFF res (noteTransient c.fails (bumpGen readOnly t))
  | .start subject ticks t =>
    if blocked then complete c.mb stStale 0 0xFFF [] s
    else if 2 ≤ c.fails then faultCommand c [] (onFault (bumpGen readOnly s))
    else startLong c subject ticks (noteTransient c.fails (bumpGen readOnly t))

/-- A refusal before the command's own conditions, with the result that the command returns under every status. -/
def refuseEarly (c : Cmd) (st : Nat) (v : Verdict) : Verdict :=
  match v with
  | .refuse _ _ res | .done _ res _ => .refuse st 0xFFF (alwaysResult c res)
  | .start _ _ _ => .refuse st 0xFFF []

/-- A block length that every command refuses (R603); an opcode that no chapter lists is refused as such first (R602). -/
def lengthBad (c : Cmd) (v : Verdict) : Bool :=
  (c.len % 4 != 0 || decide (4064 < c.len)) &&
    match v with
    | .refuse st _ _ => st != stBadOpcode
    | _ => true

/-- A command row with everything named: nothing happens where its execution point has not come. -/
def runCommand (op mb fails : Nat) (readOnly : Cmd → Bool) (onFault : Cmd → State → State)
    (body : Cmd → State → Verdict) (s : State) : State :=
  if atPoint op mb s then
    let c := cmdOf op mb fails s
    let s := popOrder s
    let v := body c s
    let v :=
      if s.tray.recovery && !recoveryOpcode op then refuseEarly c stBadOpcode v
      else if lengthBad c v then refuseEarly c stBadArg v
      else v
    settle c (readOnly c) (onFault c) v s
  else s

/-- A command that may change the tray. -/
def writeCommand (op mb fails : Nat) (body : Cmd → State → Verdict) : State → State :=
  runCommand op mb fails (fun _ => false) (fun _ s => s) body

/-- A read-only command (R604). -/
def readCommand (op mb fails : Nat) (body : Cmd → State → Verdict) : State → State :=
  runCommand op mb fails (fun _ => true) (fun _ s => s) body

/-- A command with a READ_ONLY bit at bit 31 of word 0 (R604). -/
def configCommand (op mb fails : Nat) (body : Cmd → State → Verdict) : State → State :=
  runCommand op mb fails (fun c => bit (argW c 0) 31) (fun _ s => s) body

/-! ### Long commands (R601) -/

/-- A long command of the opcode runs on the subject. -/
def longBusy (s : State) (op subject : Nat) : Bool := s.mail.long.any fun l => l.opcode == op && l.subject == subject

/-- The running long command of a mailbox. -/
def longOf (s : State) (mb : Nat) : Option Long := s.mail.long.find? fun l => l.mb == mb

/-- The first running long command of an opcode. -/
def longOp (s : State) (op : Nat) : Option Long := s.mail.long.find? fun l => l.opcode == op

/-- A long command ends: its mailbox completes with a status and a result. -/
def endLong (l : Long) (status : Nat) (result : List Byte) (s : State) : State :=
  let s := modMail (fun m => { m with long := m.long.erase l }) s
  completeWith l.mb (lateHeader s l.mb status result.length l.attempts 0xFFF) result s

/-- A long command ends with FAULT after its second attempt (R612). -/
def endLongFault (l : Long) (result : List Byte) (s : State) : State :=
  let s := count (hc8Ctr 11) 1 (modMail (fun m => { m with faults := sat 32 (m.faults + 1) }) s)
  endLong { l with attempts := l.attempts } stFault result (raise 0x0000 [(5, l.mb), (16, l.opcode)] s)

/-! ### Remote requests (R607, R609) -/

/-- What becomes of a remote request. -/
inductive Remote where
  | accept
  | refuse (transport : Nat)
  | ignore
  | again (payload : List Byte)
deriving DecidableEq, Repr

/-- The first row of R607 that applies. -/
def remoteCase (n : Nat) (via : Via) (origin tag : Nat) (payload : List Byte) (s : State) : Remote :=
  let b := box s n
  let same := b.via == via && b.origin == origin && b.tag == tag
  if b.source != via then .refuse 2
  else if s.tray.recovery then .refuse 4
  else if payload.length < 32 + fld (wordLe payload 2) 11 0 then .refuse 3
  else if isActive b then (if same then .ignore else .refuse 1)
  else match b.st, same, b.kept with
    | .done, true, some p => .again p
    | _, _, _ => .accept

/-- Header and argument block copied into the mailbox; accepted (R607). -/
def remoteAccept (n : Nat) (via : Via) (origin tag chan : Nat) (payload : List Byte) (s : State) : State :=
  let s := bufWrite (0x1000 * n) (payload.take (32 + fld (wordLe payload 2) 11 0)) s
  acceptCommand n via origin tag chan s

/-- MB_REMOTE_REFUSED at most once per turn, and the count of BUSY refusals (R607, R624). -/
def noteRefused (origin transport : Nat) (s : State) : State :=
  raiseOnce (eventKey 0x0002) 0x0002 [(12, origin), (3, transport)]
    (modMail (fun m => if transport = 1 then { m with remoteBusy := sat 32 (m.remoteBusy + 1) } else m) s)

/-- A refusal of a sender already answered in the turn: counted and not answered (R607). -/
def noteUnanswered (s : State) : State := modMail (fun m => { m with remoteDisc := sat 32 (m.remoteDisc + 1) }) s

/-- A duplicate of a request (R607). -/
def noteDuplicate (s : State) : State := modMail (fun m => { m with remoteDup := sat 32 (m.remoteDup + 1) }) s

end Sys2Proof.Machine
end

