-- ==== Sys2Proof/Machine/Flags.lean ====
section
/-! DEFINITION. Status and flag words: what the status commands and the BAR0 status blocks show (R98, R586, R624,
R619, R648 to R651), and the images in flash (R560, R580). -/

namespace Sys2Proof.Machine

open Sys2Proof

/-! ### Images -/

def imageOf (s : State) (slot : Bool) : Image := if slot then s.fw.s1 else s.fw.s0

def modImage (slot : Bool) (f : Image → Image) (s : State) : State :=
  modFw (fun w => if slot then { w with s1 := f w.s1 } else { w with s0 := f w.s0 }) s

/-- The spare slot: the one that is not running (R560). -/
def spareSlot (s : State) : Bool := !s.fw.running

/-- Byte i of a slot: as written, as the erase left it, or as found in flash (R560, R580). -/
def imgByte (s : State) (slot : Bool) (i : Nat) : Byte :=
  let im := imageOf s slot
  (tabGet none im.bytes i).getD (if im.erased then BitVec.ofNat 8 (im.fill / 256 ^ i)
    else BitVec.ofNat 8 ((Config.factoryHeader slot.toNat (i / 4)).toNat / 256 ^ (i % 4)))

/-- Header word i of a slot (R580). -/
def imgWord (s : State) (slot : Bool) (i : Nat) : Nat := ofLe ((List.range 4).map fun j => imgByte s slot (4 * i + j))

/-- A slot holds a header: MAGIC is there (R580, R585). -/
def hasHeader (s : State) (slot : Bool) : Bool := fld (imgWord s slot 0) 31 16 == 0xEB10

def slotCompat (s : State) (slot : Bool) : Nat := if hasHeader s slot then fld (imgWord s slot 1) 31 16 else 0
def slotVersion (s : State) (slot : Bool) : Nat := if hasHeader s slot then imgWord s slot 2 else 0
def slotBody (s : State) (slot : Bool) : Nat := if hasHeader s slot then imgWord s slot 3 else 0

/-- COMPAT and VERSION of the running image. -/
def ownCompat (s : State) : Nat := slotCompat s s.fw.running
def ownVersion (s : State) : Nat := slotVersion s s.fw.running

/-- The first of FORMAT and SIZE that a header breaks (R561, R583): 1, 2, or 0. -/
def headerError (s : State) (slot : Bool) : Nat :=
  let w := imgWord s slot
  let reserved := ((List.range 12).all fun i => w (4 + i) == 0) && fld (w 0) 7 0 == 0 && fld (w 1) 15 0 == 0
  if !(hasHeader s slot && fld (w 0) 15 8 == 1 && reserved) then 1
  else if w 3 % 4 != 0 || decide (w 3 < 4) || decide (67108608 < w 3) then 2
  else 0

/-! ### Status words -/

/-- PHASE_ERROR and the other words of REEL_STATUS_GET (R98). -/
def reelWords (s : State) : List Nat :=
  let r := s.reel
  let bench := r.st == .bench
  [r.turn % 2 ^ 32,
   put 31 20 r.tick + put 15 0 (r.turn / 2 ^ 32),
   put 31 24 (if bench then r.benchId else r.masterId) + put 15 15 r.timeValid.toNat +
     put 14 14 (r.masterHoldover && !bench).toNat + put 13 13 (r.benchInput || bench).toNat + put 12 12 bench.toNat +
     put 11 11 r.unverified.toNat + put 2 0 (reelCode r.st),
   put 31 16 (enc 16 (satI 16 r.phaseErr)) + put 12 0 (min r.holdTurns 4096),
   r.lossTurn % 2 ^ 32,
   put 28 16 r.limit + put 15 0 (r.lossTurn / 2 ^ 32)]

/-- TRAY_STATE_GET's words (R586). -/
def trayWords (s : State) : List Nat :=
  let t := s.tray
  [put 31 24 (stCode t.st) + put 23 16 (if t.st = .unscheduled then stCode t.returnSt else 0) + put 15 15 t.halted.toNat +
     put 14 14 (t.restart == .warming).toNat + put 13 13 t.powerDown.toNat + put 12 12 t.recovery.toNat +
     put 11 8 t.haltCause + put 7 4 t.lastWake,
   sat 32 t.bootMs,
   put 31 16 (sat 16 t.warmRestarts) + put 15 0 (sat 16 t.stepFaults)]

/-- IDENTITY_GET's words (R624). -/
def identityWords (s : State) : List Nat :=
  [put 31 16 0x9288 + put 7 0 s.tray.number, put 31 16 Config.hc8Rev.toNat + put 15 0 Config.asicRev.toNat,
   Config.traySerial.toNat % 2 ^ 32, Config.traySerial.toNat / 2 ^ 32, ownVersion s, put 31 16 (ownCompat s), s.mail.gen, 0]

/-- MAILBOX_STATUS_GET's words (R624). -/
def mailWords (s : State) : List Nat :=
  let m := s.mail
  [m.gen, m.accepted, m.rejects, m.remoteBusy, m.remoteDup, m.remoteDisc, m.transient, m.faults]

/-- The values in effect of a mailbox (R624). -/
def boxWords (s : State) (n : Nat) : List Nat :=
  [put 4 0 n, put 9 8 (viaCode (box s n).source) + put 4 0 (box s n).vector]

/-! ### The counter window (R634, R635, R651, R652) -/

/-- A CW_SELECT word names a page. -/
def pageValid (w : Nat) : Bool :=
  let bank := fld w 31 24
  let idx := fld w 21 12
  let side := fld w 11 11
  match bank with
  | 1 => decide (idx ≤ 367) && (side == 0 || isCtrl (idx / 4))
  | 2 => decide (idx ≤ 91) && (side == 0 || isCtrl idx)
  | 3 => decide (idx ≤ 732) && decide (idx % 8 < 5)
  | 4 => decide (idx ≤ 91)
  | 5 | 6 | 7 | 9 | 10 => idx == 0
  | 8 => decide (idx ≤ 8)
  | _ => false

/-- The number of counters of a page (R652). -/
def pageCounters (w : Nat) : Nat :=
  match fld w 31 24 with
  | 1 => 7 | 2 => 14 | 3 => 10 | 4 => 8 | 5 => 16 | 6 => 20 | 7 => 15
  | 8 => if fld w 21 12 = 0 then 10 else 4
  | 9 => 10 | 10 => 4 | _ => 0

/-- The key of counter k of the selected page: ASIC and SIDE only where the bank uses them. -/
def pageKeyOf (w k : Nat) : Nat :=
  let bank := fld w 31 24
  ctrKey bank (if bank ≤ 5 then fld w 23 22 else 0) (fld w 21 12) (if bank ≤ 2 then fld w 11 11 else 0) k

/-- The live value of counter k of a page. -/
def liveCounter (s : State) (w k : Nat) : Nat :=
  if pageValid w && k < pageCounters w then tabGet 0 s.ctr.live (pageKeyOf w k) else 0

/-- What the window shows at counter k: the frozen copy while SNAP = 1. -/
def windowCounter (s : State) (k : Nat) : Nat :=
  if s.ctr.snap then s.ctr.frozen.getD k 0 else liveCounter s s.ctr.select.toNat k

/-! ### BAR0 reads (R627 to R631, R648 to R651, R619) -/

def pick (ws : List Nat) (i : Nat) : Nat := ws.getD i 0

/-- The event ring control words (R650). -/
def evWord (s : State) (off : Nat) : Nat :=
  let e := s.ev
  if off = 0x2000 then put 31 31 e.enable.toNat + put 20 16 e.sizeLog + put 4 0 e.vector
  else if off = 0x2004 then e.baseLo.toNat
  else if off = 0x2008 then e.baseHi.toNat
  else if off = 0x200C then e.write
  else if off = 0x2010 then e.read
  else if off = 0x2014 then put 31 16 e.modCount + put 15 0 e.modTurns
  else if off = 0x2018 then e.rangeEn.toNat
  else if off = 0x201C then e.lost
  else if off = 0x2020 then e.masked
  else if off = 0x2024 then e.backlog.length
  else if off = 0x2028 then e.nextSeq
  else if off = 0x202C then put 31 31 e.cfgError.toNat + put 30 30 e.overflow.toNat + put 29 29 (!e.busMaster).toNat
  else 0

/-- A 32-bit register as it stands, high words of latching pairs live (R631); offsets that no table lays out
read 0 (R628). In the recovery window only identity, tray state and mailbox 0 are there (R575). -/
def regLive (s : State) (off : Nat) : Nat :=
  let c := s.ctr
  if off = 0x0000 then put 31 16 0x9288 + put 15 8 1 + put 7 0 s.tray.number
  else if off ≤ 0x0014 ∧ off % 4 = 0 then pick (identityWords s) (off / 4)
  else if 0x0200 ≤ off ∧ off ≤ 0x0208 then pick (trayWords s) ((off - 0x0200) / 4)
  else if off = 0x0210 then s.tray.sticky.toNat
  else if off = 0x1004 then s.mail.done.toNat
  else if off = 0x1008 then s.mail.irqEn.toNat
  else if off = 0x100C then mbActive s
  else if off = 0x1010 then s.mail.rejects
  else if off = 0x1014 then s.mail.gen
  else if 0x1100 ≤ off ∧ off < 0x1180 then
    let b := box s ((off - 0x1100) / 4)
    put 31 30 (mStateCode b.st) + put 29 28 (viaCode b.source) + put 27 23 b.vector + put 15 0 b.owner
  else if s.tray.recovery then 0
  else if 0x0100 ≤ off ∧ off ≤ 0x0114 then pick (reelWords s) ((off - 0x0100) / 4)
  else if 0x2000 ≤ off ∧ off ≤ 0x202C then evWord s off
  else if off = 0x4000 then c.select.toNat / 2 ^ 11 * 2 ^ 11
  else if off = 0x4004 then put 31 31 c.snap.toNat + put 29 29 (pageValid c.select.toNat).toNat
  else if off = 0x4008 then c.snapTurn % 2 ^ 32
  else if off = 0x400C then put 31 20 c.snapTick + put 15 0 (c.snapTurn / 2 ^ 32)
  else if 0x4100 ≤ off ∧ off < 0x4300 then
    let v := windowCounter s ((off - 0x4100) / 8)
    if off % 8 = 0 then v % 2 ^ 32 else v / 2 ^ 32
  else 0

/-- The low words of the latching pairs (R630). -/
def latchLow (off : Nat) : Bool :=
  off == 0x0100 || off == 0x0110 || off == 0x4008 || (decide (0x4100 ≤ off) && decide (off < 0x4300) && off % 8 == 0)

/-- A 4-byte register read: a high word of a latching pair returns the shadow (R630). -/
def regRead (s : State) (off : Nat) : Nat :=
  if 4 ≤ off && latchLow (off - 4) then s.ctr.shadow.toNat else regLive s off

/-- An 8-byte register read: both words from one core cycle, the shadow unchanged (R631). -/
def regRead8 (s : State) (off : Nat) : Nat × Nat := (regLive s off, regLive s (off + 4))

end Sys2Proof.Machine
end

