-- ==== Sys2Proof/Machine/Mailboxes.lean ====
section
/-! DEFINITION. The housekeeping commands, the registers of the mailbox control block and the mailbox requests and
responses of the fabric (15_mailboxes.md). -/

namespace Sys2Proof.Machine

open Sys2Proof

/-! ### Housekeeping commands (R623, R624) -/

/-- NOP returns its argument block unchanged (R623). -/
def nopBody (c : Cmd) (s : State) : Verdict := .done stOk c.args s

def execNop (mb fails : Nat) (s : State) : Result := act (readCommand 0x0000 mb fails nopBody) s

/-- IDENTITY_GET (R624). -/
def identityGetBody (c : Cmd) (s : State) : Verdict := lenIs c 0 (report (identityWords s) s)

def execIdentityGet (mb fails : Nat) (s : State) : Result := act (readCommand 0x0001 mb fails identityGetBody) s

/-- A source code (R624); 3 is refused before this is asked. -/
def viaOf (n : Nat) : Via := if n = 0 then .pcie else if n = 1 then .fabric else .crier

/-- MAILBOX_CONFIG_SET (R624). -/
def mailboxConfigSetBody (c : Cmd) (s : State) : Verdict :=
  lenIs c 8 <|
    let n := fld (argW c 0) 4 0
    let readOnly := bit (argW c 0) 31
    let src := fld (argW c 1) 9 8
    let vec := fld (argW c 1) 4 0
    let b := box s n
    let newSource := !readOnly && viaOf src != b.source
    let change := !readOnly && (viaOf src != b.source || vec != b.vector)
    argChecks [(4, src == 3 || (newSource && (n == 0 || n == 30 || n == 31)))] <|
      check stNotNow (change && (isActive b || n == c.mb)) <|
        let t := if change then modBox n (fun x => { x with source := viaOf src, vector := vec }) s else s
        .done stOk (leWords (boxWords t n)) t

def execMailboxConfigSet (mb fails : Nat) (s : State) : Result :=
  act (configCommand 0x0002 mb fails mailboxConfigSetBody) s

/-- MAILBOX_STATUS_GET (R624). -/
def mailboxStatusGetBody (c : Cmd) (s : State) : Verdict := lenIs c 0 (report (mailWords s) s)

def execMailboxStatusGet (mb fails : Nat) (s : State) : Result :=
  act (readCommand 0x0003 mb fails mailboxStatusGetBody) s

/-- The subject of a remote call: its (VIA, TRAY, CTAG) (R601). -/
def callSubject (viaCrier : Bool) (tray tag : Nat) : Nat := viaCrier.toNat * 2 ^ 24 + tray * 2 ^ 16 + tag

/-- REMOTE_CALL (R610, R624): the request goes out over the fabric or Crier and the mailbox waits. -/
def remoteCallBody (c : Cmd) (s : State) : Verdict :=
  let via := fld (argW c 0) 31 30
  let tray := fld (argW c 0) 23 16
  let mbx := fld (argW c 0) 4 0
  let tag := fld (argW c 1) 31 16
  let wait := fld (argW c 1) 15 0
  let inner := fld (argW c 4) 11 0
  let crier := via == 1
  if c.len < 40 || c.len != 40 + inner then .refuse stBadArg 0xFFF []
  else
    argChecks [(0, decide (2 ≤ via)), (16, decide ((if crier then 210 else 4024) < inner))] <|
      check stPrecondition (tray == s.tray.number || (crier && !s.crier.enable) ||
          (!crier && (List.range 4).all fun a => (asicSt s a).st != .standby && (asicSt s a).st != .admitted)) <|
        check stBusy (longBusy s 0x0004 (callSubject crier tray tag)) <|
          check stNoRoom (crier && decide (8 ≤ s.crier.queue.length)) <|
            let payload := c.args.drop 8
            let onBus : CFrame := ⟨tray, 1, false, beBytes 4 (transportWord mbx 0 false tag) ++ payload⟩
            let t :=
              if crier then crierQueue onBus s
              else hc8Post (ctrlFrame (ownEid s) (0xC00 + tray) 0 2 tag (transportWord mbx 0 false 0) 0 0 0 payload) s
            let t := modMail (fun m =>
              { m with calls := m.calls ++ [{ mb := c.mb, viaCrier := crier, tray := tray, tag := tag }] }) t
            let units := if wait = 0 then (if crier then 384 else 16) else wait
            .start (callSubject crier tray tag) (units * 1024 * 4096) t

def execRemoteCall (mb fails : Nat) (s : State) : Result := act (readCommand 0x0004 mb fails remoteCallBody) s

/-- SCHEDULED_GET (R624). -/
def scheduledGetBody (c : Cmd) (s : State) : Verdict :=
  lenIs c 0 (report (s.sched.length :: (sortBy (schedLe s.reel.turn) s.sched).flatMap schedEntry) s)

def execScheduledGet (mb fails : Nat) (s : State) : Result := act (readCommand 0x0005 mb fails scheduledGetBody) s

/-- SCHEDULED_CANCEL (R618, R624). -/
def scheduledCancelBody (c : Cmd) (s : State) : Verdict :=
  lenIs c 12 <|
    let kind := fld (argW c 0) 31 28
    let unit := fld (argW c 0) 15 0
    let turn := argTurn c 1
    let hit := s.sched.find? fun a =>
      kindCode a.kind == kind && fld ((schedEntry a).headD 0) 15 0 == unit && a.turn == turn
    argChecks [(0, decide (7 ≤ kind))] <|
      match hit with
      | none => .refuse stNotNow 0xFFF []
      | some a =>
        check stPrecondition a.trayPlaced <|
          check stNotNow (decide (tsub turn s.reel.turn < 4)) (applied (schedCancel a s))

def execScheduledCancel (mb fails : Nat) (s : State) : Result :=
  act (writeCommand 0x0006 mb fails scheduledCancelBody) s

/-- The buffers at a command's execution point: ACCEPT_TURN and ORIGIN stand written in its own header (R595). -/
def memAtPoint (mb : Nat) (s : State) : List Host.Cell :=
  memWrite s.mail.mem (0x1000 * mb + 24) ((doneHeader s mb 0 0 0 0 0).drop 24)

/-- MAILBOX_READ (R624). -/
def mailboxReadBody (c : Cmd) (s : State) : Verdict :=
  lenIs c 8 <|
    let n := fld (argW c 0) 4 0
    let off := fld (argW c 1) 27 16
    let len := fld (argW c 1) 11 0
    argChecks [(4, off % 4 != 0 || len % 4 != 0 || decide (len < 4) || decide (4064 < len) || decide (4096 < off + len))] <|
      .done stOk (tabRead (memAtPoint c.mb s) (0x1000 * n + off) len) s

def execMailboxRead (mb fails : Nat) (s : State) : Result := act (readCommand 0x0007 mb fails mailboxReadBody) s

/-! ### Every other opcode (R625) -/

/-- The opcodes that R625 lists. -/
def knownOpcode (op : Nat) : Bool :=
  let lo := op % 256
  match op / 256 with
  | 0 => decide (lo ≤ 7)
  | 1 => decide (lo ≤ 7)
  | 2 => decide (lo ≤ 8) || lo == 0x80
  | 3 => decide (lo ≤ 6)
  | 4 => decide (lo ≤ 5)
  | 5 => decide (lo ≤ 8)
  | 6 => decide (lo ≤ 7)
  | 7 => decide (lo ≤ 8)
  | 8 => decide (lo ≤ 2) || (decide (0x10 ≤ lo) && decide (lo ≤ 0x12)) || (decide (0x20 ≤ lo) && decide (lo ≤ 0x25))
  | 9 => decide (lo ≤ 4) || (decide (0x20 ≤ lo) && decide (lo ≤ 0x24))
  | 10 => decide (lo ≤ 8)
  | _ => false

/-- A command of an opcode that no chapter lists completes with BAD_OPCODE (R625). -/
def execBadOpcode (mb fails : Nat) (s : State) : Result :=
  act (fun s =>
    if knownOpcode (opcodeOf s mb) then s
    else readCommand (opcodeOf s mb) mb fails (fun _ _ => .refuse stBadOpcode 0xFFF []) s) s

/-! ### Mailbox control registers (R594, R597, R619) -/

/-- BAR0 answers: from CORE on, or in the recovery window (R563, R575). -/
def barUp (s : State) : Bool := coreUp s || s.tray.recovery

/-- A doorbell for a mailbox is accepted (R594). -/
def doorbellOk (n owner : Nat) (s : State) : Bool :=
  let b := box s n
  b.source == .pcie && (b.st == .idle || b.st == .done) && (b.owner == 0 || b.owner == owner) &&
    (!s.tray.recovery || n == 0)

/-- A write to MB_DOORBELL (R594). -/
def doorbell (v : Nat) (s : State) : State :=
  let n := fld v 4 0
  if doorbellOk n (fld v 31 16) s then acceptCommand n .pcie 0 0 0 s
  else modMail (fun m => { m with rejects := sat 32 (m.rejects + 1) }) s

def execMbDoorbell (v : W32) (s : State) : Result := act (fun s => onlyIf (barUp s) (doorbell v.toNat) s) s

/-- A claim: OWNER set where it is 0 (R597). -/
def claimBox (n owner : Nat) (s : State) : State :=
  modBox n (fun b => if b.owner = 0 then { b with owner := owner % 65536 } else b) s

/-- A release: OWNER 0 where it equals the written value (R597). -/
def releaseBox (n owner : Nat) (s : State) : State :=
  modBox n (fun b => if b.owner = owner % 65536 then { b with owner := 0 } else b) s

/-- A forced claim raises MB_FORCED with the old and the new OWNER (R597, R626). -/
def forceBox (n owner : Nat) (s : State) : State :=
  raise 0x0001 [(5, n), (16, (box s n).owner), (16, owner)] (modBox n (fun b => { b with owner := owner % 65536 }) s)

def execMbCtrlClaim (n owner : Nat) (s : State) : Result :=
  act (fun s => onlyIf (barUp s && decide (n < 32)) (claimBox n owner) s) s

def execMbCtrlRelease (n owner : Nat) (s : State) : Result :=
  act (fun s => onlyIf (barUp s && decide (n < 32)) (releaseBox n owner) s) s

def execMbCtrlForce (n owner : Nat) (s : State) : Result :=
  act (fun s => onlyIf (barUp s && decide (n < 32)) (forceBox n owner) s) s

/-! ### Frames for the HC-8 -/

/-- The first frame waiting at an HC-8 fabric interface that a function takes; in a warm restart it is discarded
and counted (R570). -/
def hc8Take (ifc : Nat) (p : Frame → Bool) (k : Frame → State → State) (s : State) : State :=
  let u := ifcUnit ifc
  match (link s u).rxq.find? p with
  | none => s
  | some f =>
    let s' := modLink u (fun l => { l with rxq := l.rxq.erase f }) s
    if !coreUp s then s
    else if s.tray.restart = .warming then count (hc8Ctr 8) 1 s'
    else k f s'

/-- A refusal answered at most once per sender and turn (R607). -/
def refuseFabric (n transport src tag chan : Nat) (s : State) : State :=
  let key := eventKey 0x0B00 + src
  let s' := noteRefused src transport s
  if firstThisTurn key s then useTurn key (hc8Post (responseFrame s n transport src tag chan []) s')
  else noteUnanswered s'

/-- A mailbox request from the fabric (R606, R607). -/
def fabricRequest (f : Frame) (s : State) : State :=
  let n := fld f.w4.toNat 31 27
  match remoteCase n .fabric f.src (ctagOf f) f.payload s with
  | .accept => remoteAccept n .fabric f.src (ctagOf f) f.chan f.payload s
  | .refuse t => refuseFabric n t f.src (ctagOf f) f.chan s
  | .ignore => noteDuplicate s
  | .again p => hc8Post (responseFrame s n 0 f.src (ctagOf f) f.chan p) (noteDuplicate s)

def execMailboxReq (ifc : Nat) (s : State) : Result :=
  act (hc8Take ifc (fun f => f.cls == 0 && ctypeOf f == 2) fabricRequest) s

/-- A response for a running remote call (R610, R624): one word with TRANSPORT and TRUNC, the remote header and
at most 4,028 bytes of the remote result block. -/
def callResponse (viaCrier : Bool) (tray tag transport : Nat) (trunc : Bool) (payload : List Byte) (s : State) : State :=
  match s.mail.calls.find? fun r => r.viaCrier == viaCrier && r.tray == tray && r.tag == tag with
  | none => s
  | some r =>
    match longOf s r.mb with
    | none => s
    | some l =>
      if 5 ≤ transport then s
      else
        let head := payload.take 32
        let len := fld (wordLe head 2) 27 16
        let block := (payload.drop 32).take len
        let cut := trunc || decide (4028 < block.length)
        let result := if transport = 0 then leBytes 4 (put 26 24 transport + put 23 23 cut.toNat) ++ head ++ block.take 4028
          else leBytes 4 (put 26 24 transport + put 23 23 trunc.toNat)
        endLong l stOk result (modMail (fun m => { m with calls := m.calls.erase r }) s)

def execMailboxRsp (ifc : Nat) (s : State) : Result :=
  act (hc8Take ifc (fun f => f.cls == 0 && ctypeOf f == 3) fun f =>
    callResponse false (trayOfEid f.src) (ctagOf f) (fld f.w4.toNat 26 24) (bit f.w4.toNat 23) f.payload) s

end Sys2Proof.Machine
end

