-- ==== Sys2Proof/Machine/Registers.lean ====
section
/-! DEFINITION. The event ring registers, the counter window, other BAR0 writes, the reset of the PCI Express
endpoint, and the event steps that wait (16_registers_counters_events.md). -/

namespace Sys2Proof.Machine

open Sys2Proof

/-! ### The event ring (R643 to R647, R650) -/

/-- CFG_ERROR with its sticky bit (R646, R649). -/
def cfgError (s : State) : State := stick 29 (modEv (fun e => { e with cfgError := true }) s)

/-- A write to 0x2000 (R646): ENABLE, SIZE_LOG and EV_VECTOR. -/
def evControl (enable : Bool) (v : Nat) (s : State) : State :=
  let size := fld v 20 16
  let keep := s.ev.enable && size != s.ev.sizeLog
  let s := onlyIf keep cfgError s
  let s := modEv (fun e => { e with vector := fld v 4 0, sizeLog := if keep then e.sizeLog else size }) s
  if !enable then modEv (fun e => { e with enable := false }) s
  else if s.ev.enable then s
  else if s.ev.sizeLog < 6 || 16 < s.ev.sizeLog || fld s.ev.baseLo.toNat 11 0 != 0 then cfgError s
  else modEv (fun e =>
    { e with
      enable := true, write := 0, read := 0, unsignalled := 0, ring := [] }) s

/-- A write to EV_BASE_LO or EV_BASE_HI (R646). -/
def evBase (hi : Bool) (v : W32) (s : State) : State :=
  let old := if hi then s.ev.baseHi else s.ev.baseLo
  if s.ev.enable then (if v = old then s else cfgError s)
  else modEv (fun e => if hi then { e with baseHi := v } else { e with baseLo := v }) s

/-- A write to EV_READ (R647); room that it makes lets backlogged records out (R643). -/
def evReadWrite (v : Nat) (s : State) : State :=
  if (s.ev.write + 2 ^ 32 - v % 2 ^ 32) % 2 ^ 32 ≤ ringSize s.ev then
    drainBacklog 1024 (modEv (fun e => { e with read := v % 2 ^ 32 }) s)
  else cfgError s

def execEvRingEnable (v : W32) (s : State) : Result := act (fun s => onlyIf (coreUp s) (evControl true v.toNat) s) s

def execEvRingDisable (v : W32) (s : State) : Result := act (fun s => onlyIf (coreUp s) (evControl false v.toNat) s) s

def execEvRead (v : W32) (s : State) : Result := act (fun s => onlyIf (coreUp s) (evReadWrite v.toNat) s) s

/-- EVENT_BACKLOG_DRAIN (R643). -/
def execEventBacklogDrain (s : State) : Result := act (drainBacklog 1024) s

/-- EVENT_INTERRUPT: the oldest unsignalled record has waited MOD_TURNS turns (R639). -/
def execEventInterrupt (s : State) : Result :=
  act (fun s =>
    let e := s.ev
    if 0 < e.modTurns ∧ 0 < e.unsignalled ∧ e.oldestAt + e.modTurns ≤ s.reel.bounds then
      msix e.vector (modEv (fun e => { e with unsignalled := 0 }) s)
    else s) s

/-! ### The counter window (R630, R634 to R636) -/

/-- A write to CW_SELECT discards any frozen copy (R634, R635). -/
def cwSelect (v : W32) (s : State) : State :=
  modCtr (fun c => { c with select := v, snap := false, frozen := [] }) s

/-- The frozen copy of the selected page (R635). -/
def cwFreeze (s : State) : State :=
  modCtr (fun c =>
    { c with
      snap := true, frozen := (List.range 64).map (liveCounter s c.select.toNat)
      snapTurn := s.reel.turn, snapTick := s.reel.tick }) s

/-- Every live counter of the selected page at 0 (R636). -/
def cwClear (s : State) : State :=
  let w := s.ctr.select.toNat
  if pageValid w then
    modCtr (fun c => { c with
      live := (List.range (pageCounters w)).foldl (fun t k => tabSet 0 t (pageKeyOf w k) 0) c.live }) s
  else s

/-- A write to 0x4004 (R635, R636): SNAP, then CLEAR. -/
def cwControl (v : Nat) (s : State) : State :=
  let s := if bit v 31 then cwFreeze s else modCtr (fun c => { c with snap := false, frozen := [] }) s
  onlyIf (bit v 30) cwClear s

def execCwSelect (v : W32) (s : State) : Result := act (fun s => onlyIf (coreUp s) (cwSelect v) s) s

def execCwSnap (v : W32) (s : State) : Result :=
  act (fun s => onlyIf (coreUp s) (cwControl (v ||| 0x80000000#32).toNat) s) s

def execCwSnapDiscard (v : W32) (s : State) : Result :=
  act (fun s => onlyIf (coreUp s) (cwControl (v &&& 0x7FFFFFFF#32).toNat) s) s

def execCwClear (v : W32) (s : State) : Result :=
  act (fun s => onlyIf (coreUp s) (cwControl (v ||| 0x40000000#32).toNat) s) s

/-- COUNT_LO_READ: a 4-byte read of the low word of a latching pair latches its high word (R630). -/
def execCountLoRead (off : Nat) (s : State) : Result :=
  act (fun s => onlyIf (barUp s && latchLow off) (fun s => modCtr (fun c =>
    { c with shadow := BitVec.ofNat 32 (regLive s (off + 4)), lastRead := BitVec.ofNat 32 (regLive s off) }) s) s) s

/-! ### Other BAR0 writes (R628) -/

/-- A write to MB_CTRL (R597). -/
def mbCtrl (n v : Nat) (s : State) : State :=
  if bit v 22 then forceBox n (fld v 15 0) s
  else if bit v 21 then releaseBox n (fld v 15 0) s
  else claimBox n (fld v 15 0) s

/-- A 4-byte write to a register (R619, R628, R646 to R651); offsets that no table lays out ignore it. In the
recovery window only the tray state block and mailbox control are there (R575). -/
def regWrite (off : Nat) (v : W32) (s : State) : State :=
  let n := v.toNat
  if off = 0x0210 then modTray (fun t => { t with sticky := t.sticky &&& ~~~(v &&& 0xFF000000#32) }) s
  else if off = 0x1000 then doorbell n s
  else if off = 0x1004 then modMail (fun m => { m with done := m.done &&& ~~~v }) s
  else if off = 0x1008 then modMail (fun m => { m with irqEn := v }) s
  else if 0x1100 ≤ off ∧ off < 0x1180 then mbCtrl ((off - 0x1100) / 4) n s
  else if s.tray.recovery then s
  else if off = 0x2000 then evControl (bit n 31) n s
  else if off = 0x2004 then evBase false v s
  else if off = 0x2008 then evBase true v s
  else if off = 0x2010 then evReadWrite n s
  else if off = 0x2014 then modEv (fun e => { e with modCount := fld n 31 16, modTurns := fld n 15 0 }) s
  else if off = 0x2018 then modEv (fun e => { e with rangeEn := BitVec.ofNat 11 n }) s
  else if off = 0x202C then modEv (fun e =>
    { e with cfgError := e.cfgError && !bit n 31, overflow := e.overflow && !bit n 30 }) s
  else if off = 0x4000 then cwSelect v s
  else if off = 0x4004 then cwControl n s
  else s

/-- Consecutive 4-byte writes, lowest address first (R628). -/
def regWords (off : Nat) : List Byte → State → State
  | a :: b :: c :: d :: t, s => regWords (off + 4) t (regWrite off (BitVec.ofNat 32 (ofLe [a, b, c, d])) s)
  | _, s => s

/-- The enabled bytes of a write to the mailbox buffers (R628). -/
def bufBytes (a : Nat) : List (Option Byte) → State → State
  | [], s => s
  | some b :: t, s => bufBytes (a + 1) t (bufWrite a [b] s)
  | none :: t, s => bufBytes (a + 1) t s

/-- Pending messages of vectors that are no longer masked leave, lowest vector first, once each (R596). -/
def releaseVectors (s : State) : State :=
  forAll (numbers 32 fun n => s.ev.msixOn && s.ev.vecPend.getLsbD n && !hushed n s)
    (fun n s => emit (.msix n) (modEv (fun e => { e with vecPend := e.vecPend &&& ~~~(1#32 <<< n) }) s)) s

/-- The host's configuration space and MSI-X table, which lie outside the BAR0 blocks of the manual and have no row of
their own: a write at 0x40000 sets Bus Master Enable from bit 2, the function mask from bit 30 and MSI-X Enable from
bit 31; one at 0x40004 the mask bits of the 32 vectors. DESIGN CHOICE (log entry 14). -/
def configWrite (masks : Bool) (v : Nat) (s : State) : State :=
  releaseVectors (modEv (fun e =>
    if masks then { e with vecMask := BitVec.ofNat 32 v }
    else { e with busMaster := bit v 2, vecHush := bit v 30, msixOn := bit v 31 }) s)

/-- A BAR0 write (R628): buffers take any bytes; registers take only aligned whole words, all bytes enabled. -/
def barWrite (off : Nat) (data : List (Option Byte)) (s : State) : State :=
  let whole := data.all (·.isSome) && data.length % 4 == 0 && off % 4 == 0
  let bytes := data.filterMap id
  if 0x10000 ≤ off ∧ off < 0x30000 then
    if s.tray.recovery && 0x11000 ≤ off then s
    else bufBytes (off - 0x10000) (data.take (0x30000 - off)) s
  else if (off = 0x40000 ∨ off = 0x40004) ∧ whole then configWrite (off == 0x40004) (wordLe bytes 0) s
  else if whole then regWords off bytes s
  else s

def execRegisterWrite (off : Nat) (data : List (Option Byte)) (s : State) : Result :=
  act (fun s => onlyIf (barUp s) (barWrite off data) s) s

/-! ### The PCI Express endpoint (R616, R645) -/

/-- PCIE_LINK_RESET: the endpoint alone is reset, its MSI-X state with it; on PERST# every PCIE mailbox loses its
OWNER. -/
def linkResetPcie (perst : Bool) (s : State) : State :=
  let s := stick 28 (modEv (fun e =>
    { e with
      enable := false, busMaster := false, msixOn := false, vecHush := false, vecMask := 0xFFFFFFFF, vecPend := 0 }) s)
  if perst then
    forAll (numbers 32 fun n => (box s n).source == .pcie) (fun n => modBox n fun b => { b with owner := 0 }) s
  else s

def execPcieLinkReset (perst : Bool) (s : State) : Result := act (fun s => onlyIf (coreUp s) (linkResetPcie perst) s) s

end Sys2Proof.Machine
end

