-- ==== Sys2Proof/Machine/Symbols.lean ====
section
/-! DEFINITION. What a transmitter puts on its lanes: the RS(544,514) parity of a pair and its spread over the lanes
(R103, R104), training blocks (R107), test patterns (R145), and the PAM4 levels that carry bits (R100, R102). -/

namespace Sys2Proof.Machine

open Sys2Proof

/-- The bits of a byte string, first bit most significant. -/
def bitsOf (bs : List Byte) : List Bool := bs.flatMap fun b => (List.range 8).map fun i => b.toNat.testBit (7 - i)

/-- The n low bits of a number, most significant first. -/
def numBits (n v : Nat) : List Bool := (List.range n).map fun i => v.testBit (n - 1 - i)

/-- The number that bits spell, most significant first. -/
def ofBits (bs : List Bool) : Nat := bs.foldl (fun a b => 2 * a + b.toNat) 0

/-! ### Levels (R102) -/

/-- Two bits, the first more significant, as a Gray symbol. -/
def grayOf : Bool → Bool → Nat
  | false, false => 0
  | false, true => 1
  | true, true => 2
  | true, false => 3

/-- Bits as Gray symbols. -/
def graySymbols : List Bool → List Nat
  | a :: b :: t => grayOf a b :: graySymbols t
  | _ => []

/-- The precoded symbols after a precoded symbol P(n − 1): P(n) = (G(n) − P(n − 1)) mod 4. -/
def precode : Nat → List Nat → List Nat
  | _, [] => []
  | prev, g :: t =>
    let p := (g + 4 - prev % 4) % 4
    p :: precode p t

/-- The level that a precoded symbol selects. -/
def levelOf (p : Nat) : Int := 2 * (p : Int) - 3

/-! ### Codewords (R103, R104) -/

/-- The product in GF(2^10) with x^10 + x^3 + 1. PRESUMED from IEEE 802.3 clause 91, which R103 names (log entry 223). -/
def gfMul (a b : Nat) : Nat :=
  (List.range 10).foldl (fun acc i =>
    let d := 2 * acc
    let d := if 1024 ≤ d then d ^^^ 0x409 else d
    if b.testBit (9 - i) then d ^^^ a else d) 0

/-- A polynomial times x + a, coefficients from the highest down. -/
def gfTimes (g : List Nat) (a : Nat) : List Nat := List.zipWith (· ^^^ ·) (g ++ [0]) (0 :: g.map (gfMul a))

/-- The generator polynomial: the product of x + α^j for j from 0 to 29 (PRESUMED, log entry 223). -/
def rsGenerator : List Nat := ((List.range 30).foldl (fun (a : List Nat × Nat) _ => (gfTimes a.1 a.2, gfMul a.2 2)) ([1], 1)).1

/-- The 30 parity symbols of a message, first message symbol and first parity symbol of the highest degree. -/
def rsParity (msg : List Nat) : List Nat :=
  let low := rsGenerator.tail
  msg.foldl (fun r m =>
    let f := m ^^^ r.headD 0
    List.zipWith (· ^^^ ·) (r.tail ++ [0]) (low.map (gfMul f))) (List.replicate 30 0)

/-- Bits as ten-bit symbols. -/
def tens : Nat → List Bool → List Nat
  | 0, _ => []
  | n + 1, bs => ofBits (bs.take 10) :: tens n (bs.drop 10)

/-- Every second element of a list, from the first on. -/
def evens {α : Type} : List α → List α
  | a :: _ :: t => a :: evens t
  | l => l

/-- Two lists in turn, the first one first. -/
def inTurn {α : Type} : List α → List α → List α
  | a :: s, b :: t => a :: b :: inTurn s t
  | _, _ => []

/-- The 1,088 symbols of a pair: message symbols in order, even ones codeword A and odd ones B, then A0, B0, A1, B1 … -/
def pairSymbols (message : List Byte) : List Nat :=
  let m := tens 1028 (bitsOf message)
  m ++ inTurn (rsParity (evens m)) (rsParity (evens m.tail))

/-- The bits that logical lane k of a width carries of a pair: sent symbol m goes to lane m mod W. -/
def laneBits (width k : Nat) : Nat → List Nat → List Bool
  | _, [] => []
  | m, v :: t => (if m % width = k then numBits 10 v else []) ++ laneBits width k (m + 1) t

/-! ### Sequences -/

/-- A shift register of n bits with taps: its output bits and the register after them. Register bit i holds the bit sent
i + 1 bits ago. -/
def shiftBits (n : Nat) (taps : List Nat) : Nat → Nat → List Bool × Nat
  | 0, r => ([], r)
  | k + 1, r =>
    let b := taps.foldl (fun a t => a != r.testBit (t - 1)) false
    let (t, r) := shiftBits n taps k ((2 * r + b.toNat) % 2 ^ n)
    (b :: t, r)

/-- A lane's transmitter sends bits: their precoded symbols after its last one, as levels, and the lane after them. -/
def sendSymbols (symbols : List Nat) (l : Lane) : List Int × Lane :=
  (symbols.map levelOf, { l with txPre := symbols.getLast?.getD l.txPre })

def sendBits (bits : List Bool) (l : Lane) : List Int × Lane := sendSymbols (precode l.txPre (graySymbols bits)) l

/-- A training block of a lane (R107): its marker, then 2,680 bits of the lane's PRBS-31. -/
def trainingBlock (marker : Nat) (l : Lane) : List Int × Lane :=
  let (bits, r) := shiftBits 31 [31, 28] 2680 l.txPrbs
  sendBits (numBits 40 marker ++ bits) { l with txPrbs := r }

/-- What the pattern generator of a lane starts from (R107, R145): all ones for a PRBS, the first symbol of a square. -/
def patternSeed (tx : Nat) : Nat := if tx = 1 then 2 ^ 7 - 1 else if tx = 2 then 2 ^ 13 - 1 else if tx = 4 then 0 else 2 ^ 31 - 1

/-- A block's time of a lane's test pattern (R145); a PRBS is precoded where PRECODE says so, a square and a fixed level
set P directly. -/
def patternBlock (marker : Nat) (l : Lane) : List Int × Lane :=
  let prbs := fun (n : Nat) (taps : List Nat) =>
    let (bits, r) := shiftBits n taps 2720 l.txPrbs
    let l := { l with txPrbs := r }
    if l.pattern.precode then sendBits bits l else sendSymbols (graySymbols bits) l
  match l.pattern.tx with
  | 1 => prbs 7 [7, 6]
  | 2 => prbs 13 [13, 12, 2, 1]
  | 3 => prbs 31 [31, 28]
  | 4 => sendSymbols ((List.range 1360).map fun i => if (l.txPrbs + i) % 32 < 16 then 0 else 3)
      { l with txPrbs := (l.txPrbs + 1360) % 32 }
  | 5 => sendSymbols (List.replicate 1360 l.pattern.level) l
  | 6 => trainingBlock marker l
  | _ => ([], l)

end Sys2Proof.Machine
end

