-- ==== Sys2Proof/Machine/Lanes.lean ====
section
/-! DEFINITION. The lane commands (R135 to R145) and the lane events: training, bit-slip, changes of rate and
width, loss of signal, electrical idle, adaptation and probation (03_lanes.md, R243 to R245, R282, R459). -/

namespace Sys2Proof.Machine

open Sys2Proof

/-! ### Lanes of a port end -/

def laneCount (p : Port) : Nat := lanesOf p.set.width

/-- The lanes a command names: every lane of the set, or LANE (R136). -/
def namedLanes (c : Cmd) (p : Port) : List Nat :=
  if paAllLanes c then List.range (laneCount p) else [paLane c]

/-- A lane outside the set (R136). -/
def laneBad (c : Cmd) (p : Port) : Bool := !paAllLanes c && decide (laneCount p ≤ paLane c)

/-- PRBS lock of a lane (R115): its last 512 PRBS bits were correct; in service they are fill bits, the last of them of
this turn or the one before. -/
def prbsLock (s : State) (p : Port) (l : Lane) : Bool :=
  decide (512 ≤ l.run) && (p.st == .training || p.st == .relock || decide (s.reel.bounds ≤ l.fillAt + 1))

/-- The preconditions of an adaptation (R118). -/
def laneAdapts (s : State) (p : Port) (l : Lane) : Bool := l.signal && prbsLock s p l && decide (l.fomVar ≤ 16)

/-- The variance of FOM samples in FOM² units, saturating (R116). DESIGN CHOICE: the population variance, rounded down,
over the samples there are while fewer than 16 are held (log entry 192). -/
def variance (l : List Nat) : Nat :=
  let n := l.length
  if n = 0 then 0 else min 255 ((n * (l.map fun x => x * x).sum - l.sum * l.sum) / (n * n))

/-- A FOM sample of a lane (R116). -/
def sampleFom (v : Nat) (l : Lane) : Lane :=
  let foms := (min v 255 :: l.foms).take 16
  { l with fom := min v 255, foms := foms, fomVar := variance foms }

/-- One adaptation step of a lane: new receive coefficients, the next unused number of the adapted values (R117). -/
def readapt (u k : Nat) (s : State) : State :=
  let n := s.free + 1
  count (laneCtr u k 3) 1
    (modPort u (fun p => modLaneOf p k fun l => { l with adapts := n }) { s with free := n })

/-- One step of a lane in service, or a counted refusal (R118, R119, R131). -/
def adaptLane (u k : Nat) (s : State) : State :=
  let p := port s u
  if laneAdapts s p (laneOf p k) then readapt u k s else count (laneCtr u k 4) 1 s

/-- The sum and the number of the last 16 FOM samples of a lane (R120). -/
def fomSum (l : Lane) : Nat × Nat := ((l.foms.take 16).sum, (l.foms.take 16).length)

/-! ### Lane commands -/

/-- The lane settings of PORT_LANE_SET (R137). -/
def laneSetArg (c : Cmd) : LaneSet :=
  let w := argW c 1
  { rate := fld w 1 0, width := fld w 3 2, sel := fld w 5 4, idleAfter := fld w 31 16 }

/-- A setting that R137 makes BAD_ARG. -/
def laneSetBad (ls : LaneSet) : Bool :=
  ls.rate == 3 || ls.width == 3 || (ls.width == 2 && ls.sel != 0) || (ls.width == 1 && decide (2 ≤ ls.sel))

/-- PORT_LANE_SET (R126, R132, R137). A change of IDLE_AFTER alone adds no action (R73, R74). -/
def portLaneSetBody (c : Cmd) (s : State) : Verdict :=
  lenIs c 16 <|
    let u := paUnit c
    let p := port s u
    let ls := laneSetArg c
    let atTurn := bit (argW c 1) 15
    let turn := argTurn c 2
    let onlyIdle := decide (ls = { p.set with idleAfter := ls.idleAfter })
    argChecks [(0, paBad c), (4, laneSetBad ls), (8, atTurn && turnTooFar turn s)] <|
      if atTurn then
        let idleOnly := onlyIdle && ls.idleAfter != p.set.idleAfter
        check stPrecondition (untimed s) <|
        check stNotNow (turnTooNear turn s || (!idleOnly && schedTaken .laneChange u turn s)) <|
        check stNoRoom (!idleOnly && schedFull s) <|
          if idleOnly then applied (modPort u (fun p => { p with set := ls }) s)
          else applied (schedAdd ⟨.laneChange, u, turn, 0x0100, false, .lane ls⟩ s)
      else
        check stNotNow (p.st != .dark && !onlyIdle) (applied (modPort u (fun p => { p with set := ls }) s))

def execPortLaneSet (mb fails : Nat) (s : State) : Result := act (writeCommand 0x0100 mb fails portLaneSetBody) s

/-- The ASIC of a port has its power domain on and answers (R138, R441: domain 4 + a). -/
def asicAnswers (s : State) (a : Nat) : Bool := domainOn s (4 + a) && (asicSt s a).answered

/-- PORT_TRAIN (R138). DESIGN CHOICE: an ASIC that does not answer is a bar to its own end alone, not to the HC-8's end of
the port (log entry 193). -/
def portTrainBody (c : Cmd) (s : State) : Verdict :=
  lenIs c 8 <|
    let u := paUnit c
    let t := fld (argW c 1) 31 16
    let action := fld (argW c 1) 1 0
    argChecks [(0, paBad c), (4, action == 3 || (t != 0 && decide (t < 16)) || decide (4096 < t))] <|
      if action = 0 then
        applied (asicCheck (uAsic u) (portDark u (modPunit u (fun x => { x with disabled := true }) s)))
      else
        check stPrecondition (uSide u == 0 && !asicAnswers s (uAsic u)) <|
        check stNotNow ((port s u).st != .dark) <|
          let s := modPunit u (fun x => { x with disabled := false }) s
          applied (portTo u .training (modPort u (fun p =>
            { p with manual := action == 2, timeout := if t = 0 then 256 else t }) s))

def execPortTrain (mb fails : Nat) (s : State) : Result := act (writeCommand 0x0101 mb fails portTrainBody) s

/-- A framer slip and a change of polarity (R112, R139). -/
def slipLane (bits : Nat) (inv : Option Bool) (l : Lane) : Lane :=
  { l with slip := (l.slip + bits) % 2720, invert := inv.getD l.invert }

/-- LANE_BITSLIP (R139). DESIGN CHOICE: the driver's slips do not count toward the 8 slip rounds of step FRAME (log entry
194). -/
def laneBitslipBody (c : Cmd) (s : State) : Verdict :=
  lenIs c 8 <|
    let u := paUnit c
    let p := port s u
    let w := argW c 1
    let bits := fld w 11 0
    argChecks [(0, paBad c || laneBad c p), (4, decide (2719 < bits) || (bits == 0 && !bit w 31))] <|
      check stNotNow (!(p.st == .training && p.manual)) <|
        applied (forAll (namedLanes c p) (fun k => modPort u fun p =>
          modLaneOf p k (slipLane bits (if bit w 31 then some (bit w 30) else none))) s)

def execLaneBitslip (mb fails : Nat) (s : State) : Result := act (writeCommand 0x0102 mb fails laneBitslipBody) s

/-- The 4-byte result of LANE_ADAPT (R140). -/
def adaptResult (did refused : List Nat) : List Byte := leWords [put 7 4 (maskOf did) + put 3 0 (maskOf refused)]

/-- A run of a one-shot adaptation over some lanes, with what it is judged against and reverts to (R120). -/
def adaptRun (mb : Nat) (lanes retry : List Nat) (run : Nat) (p : Port) (s : State) : Adapt :=
  { mb := mb, lanes := lanes, retry := retry, run := run, start := s.reel.bounds
    before := retry.map fun k => fomSum (laneOf p k), saved := retry.map fun k => (laneOf p k).adapts }

/-- LANE_ADAPT (R120, R140): background adaptation on or off, or the start of a one-shot adaptation. -/
def laneAdaptBody (c : Cmd) (s : State) : Verdict :=
  lenIs c 8 <|
    let u := paUnit c
    let p := port s u
    let mode := fld (argW c 1) 1 0
    let lanes := namedLanes c p
    let refused := lanes.filter fun k => !laneAdapts s p (laneOf p k)
    argChecks [(0, paBad c || laneBad c p), (4, mode == 3)] <|
      check stNotNow (!(p.st == .probation || p.st == .standby || p.st == .admitted)) <|
        if mode = 0 && !refused.isEmpty then .refuse stPrecondition 0xFFF (adaptResult [] refused)
        else check stBusy (longBusy s 0x0103 u) <|
          if mode = 0 then
            .start u (80 * 4096) (modPort u (fun p => { p with adapt := some (adaptRun c.mb lanes lanes 1 p s) }) s)
          else
            let off := fun k => if mode = 2 then lanes.contains k || p.bgOff.testBit k else p.bgOff.testBit k && !lanes.contains k
            .done stOk (adaptResult [] []) (modPort u (fun p => { p with bgOff := maskOf (numbers 4 off) }) s)

/-- The lanes whose refusal the command reports are counted as skips (R131). -/
def laneAdaptSkips (mb fails : Nat) (s : State) : List (Nat × Nat) :=
  let c := cmdOf 0x0103 mb fails s
  let p := port s (paUnit c)
  if atPoint 0x0103 mb s && !staleGuard mb s && !s.tray.recovery then
    match laneAdaptBody c s with
    | .refuse st _ _ =>
      if st = stPrecondition then
        ((namedLanes c p).filter fun k => !laneAdapts s p (laneOf p k)).map fun k => (paUnit c, k)
      else []
    | _ => []
  else []

def execLaneAdapt (mb fails : Nat) (s : State) : Result :=
  act (fun s => forAll (laneAdaptSkips mb fails s) (fun x => count (laneCtr x.1 x.2 4) 1)
    (writeCommand 0x0103 mb fails laneAdaptBody s)) s

/-- The four words of a lane in PORT_STATUS_GET (R141). -/
def laneWords (s : State) (u k : Nat) : List Nat :=
  let p := port s u
  let l := laneOf p k
  if laneCount p ≤ k then [0, 0, 0, 0]
  else
    [put 31 24 l.fom + put 23 16 l.fomVar + put 15 4 l.slip + put 3 3 l.invert.toNat + put 2 2 l.suspect.toNat +
       put 1 1 (prbsLock s p l).toNat + put 0 0 l.signal.toNat,
     put 31 16 l.capture + put 15 9 l.lastBlock + put 8 7 l.mkWidth + put 6 5 l.mkRate + put 4 3 l.mkLane +
       put 2 2 l.captureInv.toNat + put 1 1 l.farReady.toNat + put 0 0 l.mismatch.toNat,
     sat 32 (windowed s (laneCtr u k 0)),
     sat 32 (if p.st = .pattern then l.patErrors else windowed s (laneCtr u k 1))]

/-- PORT_STATUS_GET's words (R141). -/
def portWords (s : State) (u : Nat) : List Nat :=
  let p := port s u
  [put 31 28 (pCode p.st) + put 27 24 p.step + put 23 22 p.set.rate + put 21 20 p.set.width + put 19 18 p.set.sel +
     put 17 17 p.txIdle.toNat + put 16 16 p.rxIdle.toNat + put 15 0 (sat 16 p.attempts),
   p.stampLag % 2 ^ 32,
   put 31 16 (sat 16 (windowed s (linkCtr u 4))) + put 15 0 (sat 16 p.exitFails)] ++
    (List.range 4).flatMap (laneWords s u)

def portStatusGetBody (c : Cmd) (s : State) : Verdict :=
  lenIs c 4 <| argChecks [(0, paBad c)] <| report (portWords s (paUnit c)) s

def execPortStatusGet (mb fails : Nat) (s : State) : Result := act (readCommand 0x0104 mb fails portStatusGetBody) s

/-- An equalisation block as words, with the low byte of the second word 0 (R142). -/
def eqWords (b : EqBlock) : List Nat :=
  [put 31 24 (enc 8 b.main) + put 23 16 (enc 8 b.pre2) + put 15 8 (enc 8 b.pre1) + put 7 0 (enc 8 b.post1),
   put 31 24 (enc 8 b.ctle) + put 23 16 (enc 8 b.vga) + put 15 8 (enc 8 b.fom)]

/-- An overlay block out of an argument block (R142, R143). -/
def eqArg (w0 w1 : Nat) : EqBlock :=
  let f := fun (w hi : Nat) => sgn 8 (fld w hi (hi - 7))
  { main := f w0 31, pre2 := f w0 23, pre1 := f w0 15, post1 := f w0 7, ctle := f w1 31, vga := f w1 23, fom := f w1 15 }

def outside (r : Nat) (x : Int) : Bool := decide (r < x.natAbs)

/-- LANE_EQ_SET (R122, R143). -/
def laneEqSetBody (c : Cmd) (s : State) : Verdict :=
  lenIs c 16 <|
    let u := paUnit c
    let b := eqArg (argW c 2) (argW c 3)
    let rate := fld (argW c 1) 1 0
    argChecks [(0, paBad c || laneBad c (port s u)), (4, rate == 3),
        (8, outside 16 b.main || outside 4 b.pre2 || outside 8 b.pre1 || outside 8 b.post1),
        (12, outside 8 b.ctle || outside 16 b.vga || outside 64 b.fom)] <|
      applied (forAll (namedLanes c (port s u)) (fun k s => { s with eq := tabSet {} s.eq (eqKey u k rate) b }) s)

def execLaneEqSet (mb fails : Nat) (s : State) : Result := act (writeCommand 0x0105 mb fails laneEqSetBody) s

/-- The effective block of a lane at a rate: at the rate of a port in use the one of its last entry to TRAINING or RELOCK,
which a new overlay does not change (R122). -/
def eqInForce (s : State) (u k rate : Nat) : EqBlock :=
  let p := port s u
  if p.st = .dark ∨ p.st = .pattern ∨ p.set.rate ≠ rate ∨ laneCount p ≤ k then eqEffective s u k rate else (laneOf p k).eff

/-- The adapted block: the effective one until the lane has adapted at this rate (R122, R144). -/
def eqAdapted (s : State) (u k rate : Nat) : EqBlock :=
  let e := eqInForce s u k rate
  let p := port s u
  let l := laneOf p k
  if l.adapts = 0 || p.set.rate != rate then e
  else
    { e with
      ctle := clampI 0 31 (Config.adapted l.adapts (eqKey u k rate) 4)
      vga := clampI 0 63 (Config.adapted l.adapts (eqKey u k rate) 5) }

/-- LANE_EQ_GET (R144). DESIGN CHOICE: with ALL_LANES = 1 it reports lane 0 (log entry 195). -/
def laneEqGetBody (c : Cmd) (s : State) : Verdict :=
  lenIs c 8 <|
    let u := paUnit c
    let rate := fld (argW c 1) 1 0
    let k := if paAllLanes c then 0 else paLane c
    argChecks [(0, paBad c || laneBad c (port s u)), (4, rate == 3)] <|
      report (eqWords (eqFactoryOf u k rate) ++ eqWords (eqOverlay s u k rate) ++ eqWords (eqInForce s u k rate) ++
        eqWords (eqAdapted s u k rate)) s

def execLaneEqGet (mb fails : Nat) (s : State) : Result := act (readCommand 0x0106 mb fails laneEqGetBody) s

/-- A lane of a port sends or checks a pattern (R133). DESIGN CHOICE: lanes outside the port's lane set count too (log
entry 196). -/
def anyPattern (p : Port) : Bool :=
  (List.range 4).any fun k => (laneOf p k).pattern.tx != 0 || (laneOf p k).pattern.check != 0

/-- LANE_PATTERN_SET (R133, R145). -/
def lanePatternSetBody (c : Cmd) (s : State) : Verdict :=
  lenIs c 8 <|
    let u := paUnit c
    let w := argW c 1
    let tx := fld w 2 0
    let chk := fld w 5 3
    let p := port s u
    argChecks [(0, paBad c), (4, decide (4 ≤ chk) || tx == 7)] <|
      check stNotNow (!(p.st == .dark || p.st == .pattern)) <|
        let pat : Pattern := { tx := tx, check := chk, level := fld w 7 6, precode := bit w 8 }
        let s := modPort u (fun p => modLanes p fun k l =>
          if (fld w 12 9).testBit k then { l with pattern := pat, patErrors := 0, txPre := 0, txPrbs := patternSeed tx } else l) s
        applied (portTo u (if anyPattern (port s u) then .pattern else .dark) s)

def execLanePatternSet (mb fails : Nat) (s : State) : Result :=
  act (writeCommand 0x0107 mb fails lanePatternSetBody) s

/-! ### Training (R109 to R113) -/

/-- Port training, adaptation and probation run: they pause during a warm restart (R570). -/
def trainingRuns (s : State) : Bool := s.tray.restart != .warming

/-- The attempt that runs ends and the next starts at step 0 (R113). In RELOCK the steps start again (R126). -/
def restartAttempt (u step : Nat) (s : State) : State :=
  let p := port s u
  if p.st = .training then
    let s := onlyIf (p.attempts == 1 || p.attempts % 16 == 0)
      (raise 0x0100 [iUnit u, (16, sat 16 p.attempts), (4, step)]) s
    count (linkCtr u 13) 1 (setPort u (startAttempt s p) s)
  else modPort u (fun p => { modLanes p (fun _ l => { l with rounds := 0, mismatch := false }) with step := 0 }) s

/-- The receiver of a port end runs training steps; in RELOCK from tick 64 on (R126). -/
def trains (s : State) (p : Port) : Bool :=
  p.st == .training || (p.st == .relock && decide (p.relockAt + 64 ≤ s.reel.clock))

/-- A valid marker (R134). -/
def markerOk (m : Nat) : Bool :=
  fld m 39 24 == 0x9B2E && fld m 7 0 == crc8 (beBytes 4 (m / 256)) && fld m 21 20 != 3 && fld m 19 18 != 3

/-- The last valid marker of a lane (R112, R134, R141). -/
def noteMarker (x : Marker) (l : Lane) : Lane :=
  let m := x.word.toNat
  if markerOk m then
    { l with
      mkLane := fld m 23 22, mkWidth := fld m 21 20, mkRate := fld m 19 18, farReady := bit m 15
      lastBlock := fld m 14 8, capture := x.offset, captureInv := x.inverted }
  else l

/-- The lanes of a set all satisfy a test. -/
def allLanes (p : Port) (t : Nat → Bool) : Bool := (List.range (laneCount p)).all t

/-- Logical lane k is the lane whose markers carry LANE = k (R110); what belongs to a logical lane by number stays. -/
def swapLanes (p : Port) : Port :=
  modLanes p fun k l =>
    match (List.range (laneCount p)).find? fun j => decide (k < laneCount p) && (laneOf p j).mkLane == k with
    | some j =>
      { laneOf p j with
        eff := l.eff, adapts := l.adapts, pattern := l.pattern, patErrors := l.patErrors, txPre := l.txPre
        txPrbs := l.txPrbs }
    | none => l

/-- Step CHECK (R109, R110, R128): RATE and WIDTH are the local ones and LANE covers the set once each. -/
def checkStep (u : Nat) (ms : List Nat) (s : State) : State :=
  let p := port s u
  let wrong := fun (k m : Nat) => fld m 19 18 != p.set.rate || fld m 21 20 != p.set.width ||
    decide (laneCount p ≤ fld m 23 22) || ((ms.take k).any fun x => fld x 23 22 == fld m 23 22)
  match (List.range (laneCount p)).find? fun k => wrong k (ms.getD k 0) with
  | none => modPort u (fun p => { swapLanes (modLanes p fun _ l => { l with mismatch := false }) with step := 4 }) s
  | some k =>
    let m := ms.getD k 0
    let s := raise 0x0101 [iUnit u, (2, k), (2, fld m 21 20), (2, fld m 19 18), (2, fld m 23 22)] s
    let s := restartAttempt u 3 s
    modPort u (fun p => modLanes p fun j l => if wrong j (ms.getD j 0) && j < laneCount p then { l with mismatch := true } else l) s

/-- Step ADAPT (R109, R118, R131). -/
def adaptStep (u : Nat) (s : State) : State :=
  let p := port s u
  if allLanes p fun k => laneAdapts s p (laneOf p k) then
    forAll (List.range (laneCount p)) (readapt u) (modPort u (fun p => { p with step := 6 }) s)
  else restartAttempt u 5 s

/-- What an observation shows on one lane: signal, PRBS and the capture of a marker (R112, R115, R141). -/
def seeLane (o : TrainObs) (k : Nat) (l : Lane) : Lane :=
  let l := { l with
    signal := o.signal.getD k l.signal
    run := match o.prbs[k]? with | some b => if b then 512 else 0 | none => l.run }
  match o.markers.getD k none with
  | some x => noteMarker x l
  | none => l

/-- One training step of a receiver (R109): a step completes, waits or fails. -/
def trainStep (u : Nat) (o : TrainObs) (s : State) : State :=
  let s := modPort u (fun p => modLanes p fun k l => if k < laneCount p then seeLane o k l else l) s
  let p := port s u
  match p.step with
  | 0 => if allLanes p fun k => (laneOf p k).signal then modPort u (fun p => { p with step := 1, stepAt := s.reel.clock }) s else s
  | 1 => if o.lock && s.reel.clock < p.stepAt + 4096 then modPort u (fun p => { p with step := 2 }) s else s
  | 2 => if o.aligned then modPort u (fun p => { p with step := 3 }) s else s
  | 3 =>
    let ms := o.markers.map fun x => (x.map fun y => y.word.toNat).getD 0
    if ms.length = laneCount p && ms.all markerOk then checkStep u ms s else s
  | 4 =>
    if o.skew ≤ 16 then modPort u (fun p => { p with step := 5 }) s
    else restartAttempt u 4 (raise 0x0102 [iUnit u, (16, o.skew)] s)
  | 5 => adaptStep u s
  | _ =>
    if p.rxReady then s
    else if allLanes p fun k => decide ((laneOf p k).eff.fom ≤ (laneOf p k).fom) then
      modPort u (fun p => { p with rxReady := true }) s
    else restartAttempt u 6 s

def execTrainingStepDone (unit : Nat) (obs : TrainObs) (s : State) : Result :=
  act (fun s => if isPortEnd unit && trainingRuns s && trains s (port s unit) then trainStep unit obs s else s) s

/-- CDR_LOCK_TIMEOUT (R109): no lock within 1 turn of SIGNAL. DESIGN CHOICE: the turn is 4,096 ticks from SIGNAL on, not a
turn boundary (log entry 197). -/
def execCdrLockTimeout (unit : Nat) (s : State) : Result :=
  act (fun s =>
    let p := port s unit
    if isPortEnd unit && trainingRuns s && trains s p && p.step == 1 && decide (p.stepAt + 4096 ≤ s.reel.clock) then restartAttempt unit 1 s else s) s

/-- One round of the AUTO FRAME loop on a lane with what its capture shows (R112). -/
def bitslipStep (u k : Nat) (seen : Option Marker) (aligned : Bool) (s : State) : State :=
  let p := port s u
  if aligned then s
  else match seen.filter fun x => markerOk x.word.toNat with
  | none => modPort u (fun p => modLaneOf p k fun l => { l with capture := 0xFFFF }) s
  | some x =>
    let s := modPort u (fun p => modLaneOf p k fun l =>
      { slipLane x.offset (some (l.invert != x.inverted)) (noteMarker x l) with rounds := l.rounds + 1 }) s
    if (laneOf p k).rounds + 1 = 8 then restartAttempt u 2 s else s

/-- BITSLIP_ROUND: `before` and `now` say whether the last marker but one and the last one were valid at offset 0. -/
def execBitslipRound (unit lane : Nat) (seen : Option Marker) (before now : Bool) (s : State) : Result :=
  act (fun s =>
    let p := port s unit
    if isPortEnd unit && trainingRuns s && trains s p && p.step == 2 && !(p.manual && p.st == .training) && decide (lane < laneCount p)
    then bitslipStep unit lane seen (before && now) s else s) s

/-- TRAINING_TIMEOUT (R113): checked at the TIMEOUT-th boundary after the turn in which the attempt started, at step 8 of
R75. -/
def execTrainingTimeout (unit : Nat) (s : State) : Result :=
  act (fun s =>
    let p := port s unit
    if isPortEnd unit && trainingRuns s && stepsDone s && p.st == .training && !p.rxReady &&
        decide (p.attemptAt + p.timeout ≤ s.reel.bounds)
    then restartAttempt unit p.step s else s) s

/-- The transmitter of a port ends its training: one END block on every lane, then codeword pairs (R111, R126). -/
def sendEnd (p : Port) (s : State) : Port :=
  let free := s.reel.clock + ceilDiv (2 * blockLen p.set) 5
  { p with txEnded := true, blocks := [2], busyUntil := free, fillFrom := free }

/-- FAR_READY (R111): with its own receiver READY the transmitter sends END, then codeword pairs. -/
def execFarReady (unit : Nat) (s : State) : Result :=
  act (fun s =>
    let p := port s unit
    if isPortEnd unit && trainingRuns s && p.st == .training && p.rxReady && !p.txEnded then
      modPort unit (fun p => sendEnd (modLanes p fun k l => if k < laneCount p then { l with farReady := true } else l) s) s
    else s) s

/-- The stamp lag of a port from the end of its training on (R66, R67): a free value. -/
def newStampLag (u : Nat) (s : State) : State :=
  let (v, s) := drawFree s
  modPort u (fun p => { p with stampLag := v % 2 ^ 32 }) s

/-- END_RECEIVED (R111): the port enters PROBATION. -/
def execEndReceived (unit : Nat) (s : State) : Result :=
  act (fun s =>
    let p := port s unit
    if isPortEnd unit && trainingRuns s && p.st == .training && p.rxReady then
      let s := onlyIf (!p.txEnded) (modPort unit fun p => sendEnd p s) s
      asicCheck (uAsic unit) (newStampLag unit (portTo unit .probation s))
    else s) s

/-! ### Changes of rate and width (R126, R127, R132) -/

/-- The state that a change returns an end to: an end of a controller port that left ADMITTED only because the
other end's change at the same tick took it out returns with it (R127, R681). -/
def changePrior (s : State) (u : Nat) : PState :=
  let v := if uSide u = 0 then hc8End u else asicEnd u
  let p := port s u
  let q := port s v
  if isCtrl (uPort u) && p.st == .standby && q.st == .relock && q.prior == .admitted && q.relockAt == s.reel.clock
  then .admitted else p.st

/-- A change applies at its turn as the port's state decides (R132). -/
def applyLaneChange (u : Nat) (ls : LaneSet) (s : State) : State :=
  let p := port s u
  let prior := changePrior s u
  let s := modPort u (fun p => { p with set := ls }) s
  match p.st with
  | .dark | .pattern => s
  | .training => setPort u { freshLanes s u (startAttempt s (port s u)) with attempts := p.attempts } s
  | .relock => setPort u (enterState u .relock s (port s u)) s
  | .probation | .standby | .admitted => portTo u .relock (modPort u (fun p => { p with prior := prior }) s)

def execLaneChange (unit : Nat) (s : State) : Result :=
  act (fun s =>
    match dueAction .laneChange (some unit) s with
    | some a =>
      match a.arg with
      | .lane ls => applyLaneChange unit ls (schedRemove a s)
      | _ => s
    | none => s) s

/-- The transmitter of a READY port after a change: END at tick 1,024, the first pair one block later (R126). -/
def relockEnd (u : Nat) (s : State) : State :=
  modPort u (fun p =>
    let free := s.reel.clock + ceilDiv (blockLen p.set) 5
    { p with txEnded := true, blocks := [2], sendAt := 5 * s.reel.clock, busyUntil := free, fillFrom := free })
    (newStampLag u s)

/-- A READY port returns to its prior state (R127); both ends of a controller port enter ADMITTED together (R681), an end
whose other end cannot do so enters STANDBY. -/
def relockReturn (u : Nat) (s : State) : State :=
  let prior := (port s u).prior
  let v := if uSide u = 0 then hc8End u else asicEnd u
  let q := port s v
  let back := fun (x : Nat) (st : PState) (s : State) => holdResume x (portEnter x st s)
  let s := relockEnd u s
  if prior = .admitted && isCtrl (uPort u) then
    if q.st = .standby then back v .admitted (back u .admitted s)
    else if q.st = .relock && q.rxReady && q.prior == .admitted && decide (q.relockAt + 1024 ≤ s.reel.clock) then
      back v .admitted (back u .admitted (relockEnd v s))
    else back u .standby s
  else asicCheck (uAsic u) (back u prior s)

def execRelockDeadline (unit : Nat) (s : State) : Result :=
  act (fun s =>
    let p := port s unit
    if isPortEnd unit && p.st == .relock && decide (p.relockAt + 1024 ≤ s.reel.clock) then
      (if p.rxReady then relockReturn unit s else portTo unit .training s)
    else s) s

/-! ### Loss of signal (R129) -/

/-- A port leaves service for TRAINING with its cause (R129, R130, R160, R657). -/
def portRetrain (u cause : Nat) (s : State) : State := portTo u .training (raise 0x0104 [iUnit u, iCause cause] s)

/-- A port that carries pairs: PROBATION, STANDBY or ADMITTED. -/
def inService (p : Port) : Bool := p.st == .probation || p.st == .standby || p.st == .admitted

/-- Some lanes show no signal. -/
def darkLanes (lanes : List Nat) (p : Port) : Port :=
  modLanes p fun k l => if lanes.contains k then { l with signal := false } else l

/-- SIGNAL_LOSS (R123, R129): silence is no fault while the receiver has seen IDLE. -/
def execSignalLoss (unit : Nat) (cause : SignalCause) (s : State) : Result :=
  act (fun s =>
    let p := port s unit
    if isPortEnd unit && inService p then
      match cause with
      | .silent lanes =>
        let s := modPort unit (darkLanes lanes) s
        if p.rxIdle then s else portRetrain unit 0 s
      | .train => portRetrain unit 1 s
      | .idle => modPort unit (fun p => { darkLanes [0, 1, 2, 3] p with rxIdle := true }) s
    else s) s

/-! ### Electrical idle (R123 to R125, R130, R282, R459) -/

/-- The exit part of the wake ticks at a rate (R276). -/
def exitTicks (rate : Nat) : Nat := if rate = 0 then 24 else if rate = 1 then 43 else 81

/-- What remains of the minimum dwell (R124, R276). -/
def dwellLeft (s : State) (p : Port) : Nat := 16 - (s.reel.clock - p.idleAt)

/-- The wake ticks of a transmitter (R276): 0 while it is awake. -/
def wakeTicks (s : State) (p : Port) : Nat := if p.txIdle then dwellLeft s p + exitTicks p.set.rate else 0

/-- The pitch that starts j pitches after the present one: its turn and number. -/
def pitchAfter (s : State) (j : Nat) : Nat × Nat :=
  let n := s.reel.tick / 64 + j
  ((s.reel.turn + n / 64) % 2 ^ 48, n % 64)

/-- The ticks until that pitch starts. -/
def ticksTo (s : State) (j : Nat) : Nat := (s.reel.tick / 64 + j) * 64 - s.reel.tick

/-- A PREWAKE pitch of an ASIC end starts in exactly n ticks (R282). -/
def prewakeStarts (s : State) (u n : Nat) : Bool :=
  [1, 2].any fun j => decide (ticksTo s j = n) &&
    prewakeOf (pitchEntry s (uAsic u) (uPort u) (pitchAfter s j).1 (pitchAfter s j).2)

/-- A PREWAKE pitch of an ASIC end starts within n ticks. -/
def prewakeWithin (s : State) (u n : Nat) : Bool :=
  [1, 2].any fun j => decide (ticksTo s j ≤ n) &&
    prewakeOf (pitchEntry s (uAsic u) (uPort u) (pitchAfter s j).1 (pitchAfter s j).2)

/-- The idle policy of R459; while OVER is set, PLAN acts as ANY (R453). -/
def idleAllowed (s : State) (u : Nat) : Bool :=
  match (punit s u).idleMode with
  | 0 => false
  | 1 =>
    if uSide u = 1 || (planNow s).isNone || s.tray.st == .unscheduled || s.power.overCap then true
    else
      let k := kindOf (pitchEntry s (uAsic u) (uPort u) s.reel.turn (s.reel.tick / 64))
      k != 1 && k != 2 && !prewakeWithin s u (16 + exitTicks (port s u).set.rate)
  | _ => true

/-- Lanes of a port end send what a generator gives each of them. -/
def sendLanes (u : Nat) (lanes : List Nat) (f : Nat → Lane → List Int × Lane) (s : State) : State :=
  forAll lanes (fun k s =>
    let (levels, l) := f k (laneOf (port s u) k)
    emit (.lane u k levels) (modPort u (fun p => modLaneOf p k fun _ => l) s)) s

/-- The marker of a lane's present block (R107, R134). -/
def blockMarker (s : State) (u phase k : Nat) : Nat :=
  let p := port s u
  markerWord k p.set.width p.set.rate phase p.rxReady (blockNumber s p.set p.sendAt)

/-- A training block on every lane of a port (R107, R109, R111, R123, R125); its markers are recorded beside the levels. -/
def sendBlock (u phase : Nat) (s : State) : State :=
  let lanes := List.range (laneCount (port s u))
  sendLanes u lanes (fun k => trainingBlock (blockMarker s u phase k)) (emit (.block u (lanes.map (blockMarker s u phase))) s)

/-- A block's time of the test patterns of a port (R133, R145). -/
def sendPatterns (u : Nat) (s : State) : State :=
  sendLanes u ((List.range 4).filter fun k => (laneOf (port s u) k).pattern.tx != 0)
    (fun k => patternBlock (blockMarker s u 0 k)) s

/-- What the link control word of the next pair holds (R153, R156, R157). -/
def nextLcw (l : Link) : TxPair :=
  { ackSeq := (l.rxSeq + 4095) % 4096, ackValid := l.ackValid, nak := l.nakNext, restart := l.restartNext }

/-- A codeword pair goes out (R103, R104, R114, R148, R150, R168): its link control word, the frame bytes that it takes, and
fill from FILL_FROM on. A pair of fill alone while a frame waits for room counts BUFFER_FULL (R152, R172). -/
def sendPair (u : Nat) (idleNext : Bool) (s : State) : State :=
  let p := port s u
  let l := link s u
  let n := min (min l.limit 1280) l.stream.length
  let (fill, r) := prbsBytes (1280 - n) p.txPrbs
  let head := match l.heads.head? with | some h => if h < n then h / 8 else 255 | none => 255
  let w := lcwWord l.now.ackSeq l.now.ackValid l.now.nak idleNext l.now.restart head (n / 8)
  let s := modPort u (fun p => { p with txPrbs := r, sendAt := p.sendAt + pairLen p.set }) s
  let s := modLink u (fun l =>
    { l with
      stream := l.stream.drop n, heads := (l.heads.filter fun h => decide (n ≤ h)).map fun h => h - n, limit := 1280
      now := nextLcw l, nakNext := false, restartNext := false }) s
  let stream := l.stream.take n ++ fill
  let symbols := pairSymbols (beBytes 5 w ++ stream)
  sendLanes u (List.range (laneCount p)) (fun k => sendBits (laneBits (laneCount p) k 0 symbols))
    (emit (.pair u w stream) (onlyIf (l.waiting.isSome && n == 0) (countWin (linkCtr u 12) 1) s))

/-- The port end sends training blocks (R109, R126). -/
def sendsTraining (p : Port) : Bool := (p.st == .training || p.st == .relock) && !p.txEnded

/-- The fifths of a tick that the block or pair being sent takes. -/
def sendLen (p : Port) : Nat :=
  if p.st == .pattern || sendsTraining p || !p.blocks.isEmpty then blockLen p.set else pairLen p.set

/-- The transmitter of a port end sends blocks or pairs. -/
def transmits (p : Port) : Bool := !p.txIdle && (inService p || p.st == .training || p.st == .relock)

/-- The block or pair being sent is complete: blocks that wait go first (R111, R125), then training blocks or pairs; a
port in PATTERN sends its patterns. -/
def sendNext (u : Nat) (s : State) : State :=
  let p := port s u
  let next := fun (s : State) => modPort u (fun q => { q with sendAt := q.sendAt + blockLen q.set }) s
  match p.blocks with
  | phase :: t => next (sendBlock u phase (modPort u (fun q => { q with blocks := t }) s))
  | [] =>
    if p.st = .pattern then next (sendPatterns u s)
    else if sendsTraining p then next (sendBlock u 0 s)
    else sendPair u false s

/-- IDLE_ENTRY (R123): after its last pair, with IDLE_NEXT, and an IDLE block the transmitter enters electrical idle. -/
def execIdleEntry (unit : Nat) (s : State) : Result :=
  act (fun s =>
    let p := port s unit
    if isPortEnd unit && (p.st == .standby || p.st == .admitted) && !p.txIdle && p.set.idleAfter != 0 &&
        decide (p.busyUntil ≤ s.reel.clock) && decide (p.fillFrom + p.set.idleAfter ≤ s.reel.clock) &&
        (link s unit).stream.isEmpty && (link s unit).waiting.isNone && idleAllowed s unit
    then
      let s := sendPair unit true s
      forAll (List.range (laneCount p)) (fun k => count (laneCtr unit k 5) 1)
        (modPort unit (fun p => { p with txIdle := true, idleAt := s.reel.clock }) (sendBlock unit 3 s))
    else s) s

/-- The transmitter begins its idle exit (R125): from the first grid boundary after 4 ticks on four BURST blocks and an END
block, whose symbols begin a burst (R102), then pairs; frames count from the exit ticks on. -/
def idleExit (u : Nat) (s : State) : State :=
  let p := port s u
  let free := s.reel.clock + exitTicks p.set.rate
  forAll (List.range (laneCount p)) (fun k => count (laneCtr u k 6) (s.reel.clock - p.idleAt))
    (modPort u (fun p =>
      { modLanes p (fun _ l => { l with txPre := 0, txPrbs := 0x7FFFFFFF }) with
        txIdle := false, wakeAt := none, blocks := [1, 1, 1, 1, 2], sendAt := gridFrom s p.set 20
        busyUntil := max p.busyUntil free, fillFrom := max p.fillFrom free })
      (modLink u (fun l => { l with now := nextLcw l, nakNext := false, restartNext := false }) s))

/-- A transmitter in electrical idle is to leave it (R125): at once, or when its minimum dwell has passed (R124). -/
def wakePort (u : Nat) (s : State) : State :=
  let p := port s u
  if !inService p || !p.txIdle || p.wakeAt.isSome then s
  else if dwellLeft s p = 0 then idleExit u s
  else modPort u (fun p =>
    { p with
      wakeAt := some (s.reel.clock + dwellLeft s p), busyUntil := s.reel.clock + wakeTicks s p
      fillFrom := s.reel.clock + wakeTicks s p }) s

/-- What a port end's transmitter does by itself as time passes: it leaves the retuning of a change at its tick 64 (R126),
begins an idle exit whose dwell has passed (R124), and completes a block or a pair. -/
def sendTick (u : Nat) (s : State) : State :=
  let p := port s u
  if p.st = .relock && p.txIdle then
    (if p.relockAt + 64 ≤ s.reel.clock then
      modPort u (fun p => { p with txIdle := false, rxIdle := false, sendAt := gridFrom s p.set 0 }) s
     else s)
  else if p.wakeAt.any fun w => decide (w ≤ s.reel.clock) then idleExit u s
  else if (transmits p || p.st == .pattern) && decide (p.sendAt + sendLen p ≤ 5 * s.reel.clock) then sendNext u s
  else s

/-- PREWAKE (R282): at the wake ticks before a PREWAKE pitch an idle transmitter starts its exit; in UNSCHEDULED the plan
is suspended (R82). -/
def execPrewake (unit : Nat) (s : State) : Result :=
  act (fun s =>
    let p := port s unit
    if isPortEnd unit && uSide unit == 0 && inService p && p.txIdle && s.tray.st != .unscheduled &&
        prewakeStarts s unit (wakeTicks s p)
    then wakePort unit s else s) s

/-- What one lane of an idle exit showed (R130): 0 markers valid in range, 1 not valid, 2 displaced. The framer follows
the markers by up to 32 bits (R125). DESIGN CHOICE: EXIT_FAILS counts each lane that fails (log entry 198). -/
def exitLane (u k verdict : Nat) (move : Int) (s : State) : State :=
  let l := laneOf (port s u) k
  if verdict = 0 then modPort u (fun p => modLaneOf p k fun l =>
    { l with exitRun := 0, signal := true, slip := (((l.slip : Int) + clampI (-32) 32 move) % 2720).toNat }) s
  else if verdict = 1 then
    let s := count (laneCtr u k 2) 1 (modPort u (fun p =>
      { modLaneOf p k (fun l => { l with exitRun := l.exitRun + 1, suspect := l.suspect || decide (1 ≤ l.exitRun) }) with
        exitFails := p.exitFails + 1 }) s)
    onlyIf (decide (1 ≤ l.exitRun) && !l.suspect) (raise 0x0103 [iUnit u, (2, k), iCause 1]) s
  else modPort u (fun p => modLaneOf p k fun l => { l with signal := true }) s

/-- IDLE_EXIT_CHECK (R130): every lane of the set is judged, by its verdict and the framer's move; a displaced one sends
the port to TRAINING. -/
def execIdleExitCheck (unit : Nat) (verdicts : List (Nat × Int)) (s : State) : Result :=
  act (fun s =>
    let p := port s unit
    if isPortEnd unit && inService p && p.rxIdle then
      let s := forAll (List.range (laneCount p)) (fun k => exitLane unit k (verdicts.getD k (0, 0)).1 (verdicts.getD k (0, 0)).2)
        (modPort unit (fun p => { p with rxIdle := false }) s)
      onlyIf ((List.range (laneCount p)).any fun k => (verdicts.getD k (0, 0)).1 == 2) (portRetrain unit 2) s
    else s) s

/-! ### Adaptation (R119, R120) -/

/-- One background step of a lane, or a counted skip (R119). -/
def backgroundLane (u k : Nat) (s : State) : State := if (port s u).bgOff.testBit k then s else adaptLane u k s

def execBackgroundAdapt (unit : Nat) (s : State) : Result :=
  act (fun s =>
    let p := port s unit
    if isPortEnd unit && trainingRuns s && inService p && decide (p.adaptAt + 16 ≤ s.reel.bounds) then
      forAll (List.range (laneCount p)) (backgroundLane unit) (modPort unit (fun p => { p with adaptAt := s.reel.bounds }) s)
    else s) s

/-- The turn's step of a one-shot adaptation: 16 steps over 16 turns (R120). -/
def adaptTurn (u : Nat) (s : State) : State :=
  match (port s u).adapt with
  | some a =>
    if a.steps < 16 && trainingRuns s then
      forAll a.retry (adaptLane u) (modPort u (fun p => { p with adapt := some { a with steps := a.steps + 1 } }) s)
    else s
  | none => s

/-- The turn's step of every adaptation that runs. -/
def adaptTurns (s : State) : State := forAll (s.ports.map (·.1)) adaptTurn s

/-- The lanes of a run whose mean FOM after it is lower than before it (R120), with the coefficients they revert to. -/
def adaptLost (p : Port) (a : Adapt) : List (Nat × Nat) :=
  (a.retry.zip (a.before.zip a.saved)).filterMap fun (k, b, old) =>
    let n := fomSum (laneOf p k)
    if n.1 * b.2 < b.1 * n.2 then some (k, old) else none

/-- LANE_ADAPT_DONE (R120): per lane of the run, the mean FOM over the 16 turns before and after it. A lane that
lost reverts and runs once more; a second loss ends with FAULT. -/
def laneAdaptEnd (u : Nat) (a : Adapt) (s : State) : State :=
  let lost := adaptLost (port s u) a
  let s := forAll lost (fun x => modPort u fun p => modLaneOf p x.1 fun l => { l with adapts := x.2 }) s
  if a.run = 1 && !lost.isEmpty then
    modPort u (fun p => { p with adapt := some (adaptRun a.mb a.lanes (lost.map (·.1)) 2 p s) }) s
  else
    let s := modPort u (fun p => { p with adapt := none }) s
    match longOf s a.mb with
    | none => s
    | some l =>
      let result := adaptResult (a.lanes.filter fun k => !(lost.map (·.1)).contains k) []
      if lost.isEmpty then endLong l stOk result s else endLongFault l result s

def execLaneAdaptDone (asic prt : Nat) (hc8 : Bool) (s : State) : Result :=
  act (fun s =>
    let unit := portEndOf asic prt hc8
    match (port s unit).adapt with
    | some a => if isPortEnd unit && a.steps == 16 && decide (a.start + 32 ≤ s.reel.bounds) then laneAdaptEnd unit a s else s
    | none => s) s

/-! ### Probation (R244, R245) -/

/-- The turn that has just ended lay wholly in the port's present state. -/
def wholeTurn (s : State) (p : Port) : Bool := decide (p.stepAt + 4096 + s.reel.tick ≤ s.reel.clock)

/-- A clean turn of a port (R244). -/
def cleanTurn (s : State) (u : Nat) (bitErrors foms : List Nat) : Bool :=
  let p := port s u
  !(punit s u).lasting && allLanes p fun k =>
    prbsLock s p (laneOf p k) && bitErrors.getD k 0 == 0 && decide ((laneOf p k).eff.fom ≤ foms.getD k 0)

/-- A turn that is not clean sets the count to 0 (R244, R267). -/
def probationSpoilt (u : Nat) (s : State) : State :=
  let q := punit s u
  let due := match q.resetAt with
    | none => decide (0 < q.clean)
    | some b => decide (b + 256 ≤ s.reel.bounds)
  let s := modPunit u (fun q => { q with clean := 0, resetAt := if due then some s.reel.bounds else q.resetAt }) s
  onlyIf due (raise 0x0904 [iUnit u]) s

/-- A clean turn counts; 64 pass probation, and a front port without a CTRL frame reports it once (R244, R245). -/
def probationClean (u : Nat) (s : State) : State :=
  let s := modPunit u (fun q => { q with clean := q.clean + 1, passed := q.passed || decide (64 ≤ q.clean + 1) }) s
  let q := punit s u
  if decide (64 ≤ q.clean) && isFront (uPort u) && q.first.isNone && !q.probeMissing then
    raise 0x0905 [iUnit u] (modPunit u (fun q => { q with probeMissing := true }) s)
  else probationExit u s

/-- PROBATION_TURN: the FOM samples of the turn (R116), the checker's errors in PATTERN (R141), and probation. -/
def probationTurn (u : Nat) (bitErrors foms : List Nat) (s : State) : State :=
  let s := useTurn (2 ^ 52 + u) s
  let p := port s u
  let wrong := fun k => if p.st = .pattern ∧ (laneOf p k).pattern.check ≠ 0 then bitErrors.getD k 0 else 0
  let s := forAll (List.range 4) (fun k => onlyIf (wrong k != 0) (countWin (laneCtr u k 1) (wrong k))) s
  let sampled := modPort u (fun p => modLanes p fun k l =>
    if p.st = .pattern then { l with patErrors := l.patErrors + wrong k }
    else if laneCount p ≤ k then l
    else sampleFom (foms.getD k 0) l) s
  if p.st = .probation && wholeTurn s p then
    let clean := cleanTurn s u bitErrors foms
    let s := modPunit u (fun q => { q with lasting := false }) sampled
    if clean then probationClean u s else probationSpoilt u s
  else sampled

def execProbationTurn (unit : Nat) (bitErrors foms : List Nat) (s : State) : Result :=
  act (fun s => if isPortEnd unit && trainingRuns s && (port s unit).st != .dark && firstThisTurn (2 ^ 52 + unit) s
    then probationTurn unit bitErrors foms s else s) s

end Sys2Proof.Machine
end

