-- ==== Sys2Proof/Machine/Links.lean ====
section
/-! DEFINITION. The link layer's transmitter: link sequence and replay buffer (R151, R152), acknowledgement (R153),
replay (R157, R158, R299) and the link status command (R172). -/

namespace Sys2Proof.Machine

open Sys2Proof

/-- The bytes that a replay buffer holds (R152). -/
def replayBytes (l : Link) : Nat := (l.unacked.map fun x => frameBytes x.q.f).sum

/-- The replay buffer takes a frame (R152). -/
def linkRoom (l : Link) (f : Frame) : Bool :=
  decide (l.unacked.length < 2047) && decide (replayBytes l + frameBytes f ≤ 65536)

/-- The transmit ticks of a frame at a port end (R147). -/
def portTicks (s : State) (u : Nat) (f : Frame) : Nat := frameTicks f (bytesPerTick (port s u).set)

/-- The bytes of the pair being sent that have gone out by now. -/
def bytesGone (s : State) (p : Port) : Nat := (5 * s.reel.clock - p.sendAt) * 1280 / pairLen p.set

/-- A pair of the port end is under way: neither idle nor with blocks to send first. -/
def pairRuns (s : State) (p : Port) : Bool :=
  transmits p && !sendsTraining p && p.blocks.isEmpty && decide (p.sendAt < 5 * s.reel.clock)

/-- Frame bytes join the stream (R148): right behind the bytes of the pair being sent while no more than a tick of fill
would lie between, else from byte 0 of the next pair on. -/
def pushStream (u : Nat) (bs : List Byte) (s : State) : State :=
  let p := port s u
  modLink u (fun l =>
    { l with
      limit := if pairRuns s p && l.limit = 1280 && l.stream.length < 1280 &&
          l.stream.length + bytesPerTick p.set ≤ bytesGone s p then l.stream.length else l.limit
      heads := l.heads ++ [l.stream.length], stream := l.stream ++ bs }) s

/-- The ticks that a frame runs past its pitch, or past the run of a straddling frame (R299): from the end counted before
to a later one. -/
def noteOverrun (u old stop : Nat) (s : State) : State :=
  let past := stop - max old (port s u).runEnd
  if uSide u = 0 && 0 < past && !(sendingAt s u).isEmpty then
    raiseOnce (eventKey 0x0303 + u) 0x0303 [iUnit u] (countWin (planCtr u 6) past s)
  else s

/-- A frame's head is committed to the frame stream (R148, R151, R152): the next LSEQ, the replay buffer, and the
ticks the frame takes. -/
def linkSend (u : Nat) (q : QFrame) (stomped : Bool) (s : State) : State :=
  let l := link s u
  let start := max s.reel.clock (port s u).busyUntil
  let stop := start + portTicks s u q.f
  let s := modLink u (fun l =>
    { l with
      txSeq := (l.txSeq + 1) % 4096
      unacked := l.unacked ++ [{ seq := l.txSeq, q := { q with diverted := false }, stomped := stomped }]
      lastAdvance := if l.unacked.isEmpty then s.reel.clock else l.lastAdvance })
    (pushStream u (frameWire q.f l.txSeq stomped) s)
  let s := modPort u (fun p => { p with busyUntil := stop, fillFrom := stop }) s
  emit (.frame u q.f stomped l.txSeq) (count (linkCtr u 2) (frameBytes q.f) (count (linkCtr u 0) 1 s))

/-- The tick at which the next pair of a port end begins. -/
def nextPairAt (s : State) (p : Port) : Nat :=
  if pairRuns s p then ceilDiv (p.sendAt + pairLen p.set) 5 else max s.reel.clock p.busyUntil

/-- The stream of a replay (R157): the pair under way keeps the bytes that have gone and is filled, and the next one begins
with RESTART and every unacknowledged frame in LSEQ order. -/
def replayStream (runs : Bool) (gone : Nat) (l : Link) : Link :=
  let all := l.unacked.map fun x => frameWire x.q.f x.seq x.stomped
  let n := if runs then min (min l.limit l.stream.length) (gone / 8 * 8) else 0
  let heads := (all.foldl (fun (a : List Nat × Nat) b => (a.1 ++ [a.2], a.2 + b.length)) ([], n)).1
  { l with
    stream := l.stream.take n ++ all.flatten, heads := (l.heads.filter fun h => decide (h < n)) ++ heads
    limit := if runs then n else 1280, restartNext := runs
    now := if runs then l.now else { l.now with restart := true } }

/-- Every unacknowledged frame is resent in LSEQ order (R157); an idle transmitter wakes first (R124, R125). REPLAY_TICKS
are counted, and the overrun of a frame that was being sent (R299). -/
def replay (u : Nat) (s : State) : State :=
  let l := link s u
  if l.unacked.isEmpty then s
  else
    let ticks := (l.unacked.map fun x => portTicks s u x.q.f).sum
    let old := (port s u).busyUntil
    let s := wakePort u s
    let p := port s u
    let stop := nextPairAt s p + ticks
    let s := modLink u (replayStream (pairRuns s p) (bytesGone s p)) s
    let s := forAll l.unacked (fun x => emit (.frame u x.q.f x.stomped x.seq)) s
    let s := modPort u (fun p => { p with busyUntil := stop, fillFrom := stop }) s
    onlyIf (uSide u == 0) (countWin (planCtr u 7) ticks) (noteOverrun u old stop s)

/-- A committed frame that waited for room in the replay buffer is sent once there is room (R152, R299). -/
def sendWaiting (u : Nat) (s : State) : State :=
  match (link s u).waiting with
  | some q =>
    if linkRoom (link s u) q.f then
      let s := linkSend u q false (modLink u (fun l => { l with waiting := none }) s)
      noteOverrun u 0 (port s u).busyUntil s
    else s
  | none => s

/-- The unacknowledged frames that an acknowledgement leaves (R153). -/
def ackedRest (ackSeq : Nat) (l : List Unacked) : List Unacked :=
  if l.any fun x => x.seq == ackSeq then (l.dropWhile fun x => x.seq != ackSeq).drop 1 else l

/-- The acknowledgement and NAK of a link control word (R153, R157). -/
def ackReceive (u ackSeq : Nat) (valid nak : Bool) (s : State) : State :=
  let l := link s u
  let rest := if valid then ackedRest ackSeq l.unacked else l.unacked
  let s := sendWaiting u (modLink u (fun l =>
    { l with unacked := rest, lastAdvance := if rest.length < l.unacked.length then s.reel.clock else l.lastAdvance }) s)
  if nak then
    let again := match l.lastNak with
      | some (q, t) => q == ackSeq && decide (s.reel.clock < t + 256)
      | none => false
    let s := countWin (linkCtr u 6) 1 (modLink u (fun l => { l with lastNak := some (ackSeq, s.reel.clock) }) s)
    if again then s else replay u s
  else s

/-- ACK_TIMEOUT (R158). -/
def execAckTimeout (unit : Nat) (s : State) : Result :=
  act (fun s =>
    let l := link s unit
    if isPortEnd unit && inService (port s unit) && !l.unacked.isEmpty && decide (l.lastAdvance + 256 ≤ s.reel.clock) then
      replay unit (countWin (linkCtr unit 9) 1 (modLink unit (fun l => { l with lastAdvance := s.reel.clock }) s))
    else s) s

/-- LINK_STATUS_GET's words (R172); zeros outside PROBATION, STANDBY and ADMITTED. -/
def linkWords (s : State) (u : Nat) : List Nat :=
  let p := port s u
  let l := link s u
  let w := fun k => sat 16 (windowed s (linkCtr u k))
  if inService p then
    [put 31 16 (w 5) + put 15 0 (w 6), put 31 16 (w 7) + put 15 0 (w 8), put 31 16 (w 9) + put 15 0 (w 10),
     put 31 16 (w 11) + put 15 0 (w 12),
     put 31 20 l.txSeq + put 19 8 l.rxSeq + put 3 0 (maskOf (numbers 4 fun k => (laneOf p k).suspect)),
     put 31 16 l.unacked.length + put 15 0 (ceilDiv (replayBytes l) 1024)]
  else [0, 0, 0, 0, 0, 0]

def linkStatusGetBody (c : Cmd) (s : State) : Verdict :=
  lenIs c 4 <| argChecks [(0, paBad c)] <| report (linkWords s (paUnit c)) s

def execLinkStatusGet (mb fails : Nat) (s : State) : Result := act (readCommand 0x0280 mb fails linkStatusGetBody) s

end Sys2Proof.Machine
end

