-- ==== Sys2Proof/Machine/Egress.lean ====
section
/-! DEFINITION. The egress decision of a port (R274 to R279, R82, R85, R228, R229, R268, R283, R295 to R300), the
discard of a frame that fits nowhere (R297) and the return of spilled frames (R191, R203). -/

namespace Sys2Proof.Machine

open Sys2Proof

/-! ### Heads of queues -/

/-- Frames held for a lost port stay where they are until it returns (R237, R240). -/
def heldBack (s : State) (u : Nat) (q : QFrame) : Bool := (punit s u).hold.isSome && q.diverted

/-- The released parked frame that goes first: of the first one's context the earliest PATH_SEQ (R229). -/
def releasedHead (q : List QFrame) : Option QFrame :=
  match q.find? fun f => f.parked && f.released with
  | none => none
  | some f =>
    let mine := q.filter fun g => g.parked && g.released && flowKey g.f == flowKey f.f && streamOf g == streamOf f
    some (mine.foldl (fun a b => if seqBefore 12 b.f.pathSeq a.f.pathSeq then b else a) f)

/-- head(p, c) of R277: released parked frames first, else the first frame neither parked nor held. -/
def headOf (s : State) (u cls : Nat) : Option QFrame :=
  let q := queue s u cls
  match releasedHead q with
  | some f => some f
  | none => q.find? fun f => !f.parked && !heldBack s u f

/-- Change one frame of a queue in place. -/
def replaceIn (u : Nat) (q q' : QFrame) (s : State) : State :=
  setQueue u q.cls ((queue s u q.cls).map fun g => if g = q then q' else g) s

/-- The rule of R228 at the head: true to send, false to park. -/
def mayLeave (s : State) (u : Nat) (q : QFrame) : Bool :=
  if (q.parked && q.released) || bypasses u q then true
  else match contextOf s (uAsic u) q with
    | none => true
    | some c => if q.diverted then q.f.pathSeq == c.oldest else seqBefore 12 q.f.pathSeq c.oldest

/-- A head frame is parked (R228). -/
def park (u : Nat) (q : QFrame) (s : State) : State :=
  count (fwdCtr (uAsic u) 10) 1 (replaceIn u q { q with parked := true } s)

/-! ### Sending -/

/-- A frame counts as cut-through where its queue was as it reached the head (R206) and its ingress port is no slower
(R149, R181). -/
def cutThrough (s : State) (u : Nat) (q : QFrame) : Bool :=
  q.mode.getD (queueCfg s u q.cls).mode == 0 &&
    decide (bytesPerTick (port s u).set ≤ bytesPerTick (port s q.inUnit).set)

/-- TWINE and WARP frames are counted ON_TIME or LATE by their age (R295); a frame sent as WEFT is neither (R82). -/
def conform (u : Nat) (q : QFrame) (s : State) : State :=
  match planNow s with
  | none => s
  | some k =>
    if (q.cls = 1 ∨ q.cls = 2) ∧ 0 < ageBound k then
      if s.reel.clock - q.stampClock ≤ ageBound k then countWin (planCtr u 0) 1 s
      else raiseOnce (eventKey 0x0304 + u) 0x0304 [iUnit u] (countWin (planCtr u 1) 1 s)
    else s

/-- Commit a frame of a port's queue to its frame stream; an idle transmitter wakes first. Where the replay buffer is full
the committed frame waits for room (R152). `runEnd` is the clock at which the pitch, or the run of a straddling frame, ends.
The frame stays charged until its egress completes. -/
def sendFrom (u : Nat) (q : QFrame) (runEnd : Nat) (s : State) : State :=
  let s := dequeue u q (wakePort u s)
  let s := if linkRoom (link s u) q.f then linkSend u q false s else modLink u (fun l => { l with waiting := some q }) s
  if uSide u = 1 then s
  else
    let s := modPort u (fun p => { p with runEnd := runEnd }) (modFwd (fun w => { w with sending := w.sending ++ [(u, q)] }) s)
    let s := count (queueCtr u q.cls 1) (frameBytes q.f) s
    let s := count (queueCtr u q.cls (if cutThrough s u q then 8 else 9)) 1 s
    chargeAsic q.cls (16 * frameBytes q.f) (conform u q s)

/-- The egress of a frame completes: its cells are freed and a diverted frame counts as sent (R196, R228, R230). -/
def egressEnd (u : Nat) (q : QFrame) (s : State) : State :=
  onlyIf q.diverted (retire (uAsic u) q) (modFwd (fun w => { w with sending := w.sending.erase (u, q) }) s)

/-- Every egress that ends by now completes; a frame that waits for room has not begun. -/
def egressEnds (s : State) : State :=
  forAll (s.fwd.sending.filter fun e => decide ((port s e.1).busyUntil ≤ s.reel.clock) && (link s e.1).waiting.isNone)
    (fun e => egressEnd e.1 e.2) s

/-- The ticks a frame needs (R276). -/
def needTicks (s : State) (u : Nat) (f : Frame) : Nat := portTicks s u f + wakeTicks s (port s u)

/-- A frame waits for its next eligible pitch: each such decision counts WAITED (R277, R316). -/
def noteWaited (u : Nat) (s : State) : State := countWin (planCtr u 3) 1 s

/-- How a decision lets a class send: not at all, any frame that fits in r ticks, or up to r plus the run. -/
structure Pass where
  cls : Nat
  wgroup : Option Nat
  run : Nat
  borrow : Bool
deriving DecidableEq, Repr

/-- The entry of a pitch as a decision reads it: after a step pitches 0 and 1 are CTRL until the interval ends (R300). A
step that is pending leaves the entries as they are and bars all classes but CTRL (R85). -/
def egressEntry (s : State) (u : Nat) (turn pitch : Nat) : Nat :=
  if s.reel.ctrlOnly && decide (pitch ≤ 1) then 0 else pitchEntry s (uAsic u) (uPort u) turn pitch

/-- The run after the present pitch (R275). -/
def egressRun (s : State) (u k : Nat) : Nat :=
  ((List.range (63 - k)).takeWhile fun j =>
    ownerOf (egressEntry s u s.reel.turn (k + 1 + j)) == ownerOf (egressEntry s u s.reel.turn k)).length

/-- The classes in the order in which a decision tries them, with what each may do (R277). -/
def passes (s : State) (u : Nat) : List Pass :=
  let k := s.reel.tick / 64
  let e := egressEntry s u s.reel.turn k
  let m := egressRun s u k
  ((List.range 5).filter fun c => maySend (kindOf e) c).map (fun c =>
      ⟨c, if kindOf e = 2 then some (wgroupOf e) else none, if mayStraddle (kindOf e) c then m else 0, false⟩) ++
    (if borrowOf e && kindOf e != 3 then [⟨3, none, 0, true⟩] else [])

/-- The warp group of a pass is the frame's (R277). -/
def allowed (p : Pass) (q : QFrame) : Bool :=
  match p.wgroup with
  | some g => fld q.f.w3.toNat 31 20 == g
  | none => true

/-- Try one pass at a port: the head is sent, parked in favour of the next, or waits. True once something is sent. Where
the head's context closes, a parked frame that it releases may come first (R229, R257). -/
def tryPass (u r : Nat) (p : Pass) : Nat → State → Bool × State
  | 0, s => (false, s)
  | n + 1, s =>
    match headOf s u p.cls with
    | none => (false, s)
    | some q =>
      let s := spanCheck (uAsic u) q s
      let q := (headOf s u p.cls).getD q
      if !allowed p q then (false, s)
      else
        let x := needTicks s u q.f
        if x ≤ r + 64 * p.run then
          if !mayLeave s u q then tryPass u r p n (park u q s)
          else
            let s := onlyIf (decide (r < x)) (countWin (planCtr u 2) 1) s
            let s := onlyIf p.borrow (countWin (planCtr u 4) 1) s
            (true, sendFrom u q (s.reel.clock + (if r < x then r + 64 * p.run else r)) s)
        else if p.borrow then (false, s)
        else (false, noteWaited u s)

/-- Try passes in order until one sends. -/
def tryPasses (u r : Nat) : List Pass → State → State
  | [], s => s
  | p :: t, s =>
    match tryPass u r p ((queue s u p.cls).length + 1) s with
    | (true, s) => s
    | (false, s) => tryPasses u r t s

/-- UNSCHEDULED (R82) and the HC-8's own transmitters (R268) send by precedence without pitches; r is unbounded. -/
def tryFree (u : Nat) (classes : List Nat) (s : State) : State :=
  tryPasses u (2 ^ 32) (classes.map fun c => ⟨c, none, 0, false⟩) s

/-- The classes in the order of R82: CTRL, TWINE, then all others in the order in which they became ready. -/
def freeOrder (s : State) (u : Nat) : List Nat :=
  let ready := fun c => (headOf s u c).map (·.stampClock)
  [0, 1] ++ sortBy (fun a b => decide ((ready a).getD 0 ≤ (ready b).getD 0)) ([2, 3, 4].filter fun c => (ready c).isSome)

/-- A head fits at this decision, by a pass of its class (R275, R297). -/
def headFits (s : State) (u : Nat) (q : QFrame) : Bool :=
  (passes s u).any fun p => p.cls == q.cls && allowed p q && decide (needTicks s u q.f ≤ 64 - s.reel.tick % 64 + 64 * p.run)

/-- The turn from which a head has stood at its queue's head without fitting (R297): the bolts that count for it begin
after a decision at which it fitted. -/
def noteHeads (u : Nat) (s : State) : State :=
  let next := (s.reel.turn + 1) % 2 ^ 48
  forAll (List.range 5) (fun c s =>
    match headOf s u c with
    | some q =>
      if headFits s u q then replaceIn u q { q with headSince := some next } s
      else if q.headSince.isNone then replaceIn u q { q with headSince := some (if s.reel.tick = 0 then s.reel.turn else next) } s
      else s
    | none => s) s

/-- A decision at one tick (R274, R277): what may be committed is; otherwise the port sends fill. -/
def decideEgress (u : Nat) (s : State) : State :=
  let p := port s u
  if uSide u = 1 then tryFree u (List.range 5) s
  else if s.tray.st = .unscheduled then
    (if s.reel.freqPause then s
     else if p.st != .admitted || s.reel.step.isSome || s.reel.ctrlOnly then tryFree u [0] s
     else tryFree u (freeOrder s u) s)
  else
    let s := noteHeads u s
    if s.reel.freqPause then s
    else if p.st != .admitted || s.reel.step.isSome || s.reel.ctrlOnly then
      tryPasses u (64 - s.reel.tick % 64) ((passes s u).filter fun x => x.cls == 0) s
    else tryPasses u (64 - s.reel.tick % 64) (passes s u) s

/-- EGRESS_DECISION: at a port end with no frame in progress; at pitch 0 the changes of the turn come first (R75). -/
def execEgressDecision (unit : Nat) (s : State) : Result :=
  act (fun s =>
    let p := port s unit
    if isPortEnd unit && inService p && decide (p.busyUntil ≤ s.reel.clock) && (link s unit).waiting.isNone &&
        (stepsDone s || decide (64 ≤ s.reel.tick))
    then decideEgress unit s else s) s

/-! ### Frames that no pitch carries (R297) -/

/-- The head of a queue has stood there without fitting through a whole bolt of the plan in force. -/
def wholeBolt (s : State) (q : QFrame) : Bool :=
  match planNow s, q.headSince with
  | some k, some t =>
    let b := boltTurns k
    let start := (t + b - 1) / b * b
    decide (0 < b) && decide (b ≤ tsub s.reel.turn start) && decide (tsub s.reel.turn start < 2 ^ 47)
  | _, _ => false

/-- PLAN_NO_FIT: the frame is discarded with reason NO_SPACE. -/
def execPlanNoFit (asic prt cls : Nat) (s : State) : Result :=
  act (fun s =>
    let u := unitOf asic prt
    match headOf s u cls with
    | some q =>
      if asic < 4 && prt < 92 && cls < 5 && s.tray.st != .unscheduled && wholeBolt s q then
        let s := dropFrame dropNoSpace u q.f (dequeue u q s)
        let s := raiseOnce (eventKey 0x0302 + u) 0x0302 [iUnit u, (3, cls)] (countWin (planCtr u 5) 1 s)
        onlyIf q.diverted (retire asic q) s
      else s
    | none => s) s

/-! ### Return of spilled frames (R191, R203) -/

/-- The oldest spilled frame of a queue is read and returns to the queue's tail. -/
def spillBack (u cls : Nat) (q : QFrame) (s : State) : State :=
  let (ok, s) := readBack (uAsic u) (u * 8 + cls) q s
  if ok then count (queueCtr u cls 6) 1 (notePeak u cls (setQueue u cls (queue s u cls ++ [q]) s)) else s

/-- SPILL_RETURN. -/
def execSpillReturn (asic prt cls : Nat) (reads : List Nat) (s : State) : Result :=
  act (withReads reads fun s =>
    let u := unitOf asic prt
    let cfg := queueCfg s u cls
    match (spillOf s asic).pages.find? fun g => g.frames.any fun e => e.1 == u * 8 + cls with
    | none => s
    | some g =>
      match g.frames.find? fun e => e.1 == u * 8 + cls with
      | none => s
      | some (_, q) =>
        if asic < 4 && prt < 92 && cls < 5 && (punit s u).hold.isNone && hc8Reach s asic &&
            decide (16 * depth s u cls ≤ cfg.unspill * cfg.limit) && decide (frameCells q.f ≤ freeCells s asic) then
          spillBack u cls q s
        else s) s

end Sys2Proof.Machine
end

