-- ==== Sys2Proof/Machine/Forwarding.lean ====
section
/-! DEFINITION. Frames at an ASIC's ingress (R173 to R178, R162, R164, R565), replication (R193 to R197), the
forwarding commands (R206 to R219) and the end of a grace (R198). -/

namespace Sys2Proof.Machine

open Sys2Proof

/-! ### Ingress -/

/-- FMT, CLASS or LEN32 is reserved (R162, R169). -/
def badForm (f : Frame) : Bool := f.fmt != 1 || decide (5 ≤ f.cls) || decide (129 ≤ f.len32)

/-- The first CTRL frame on a front port after TRAINING is recorded and judged (R46). -/
def noteFirst (u : Nat) (f : Frame) (s : State) : State :=
  if isFront (uPort u) && f.cls == 0 && (punit s u).first.isNone then
    judgeWiring u (modPunit u (fun p =>
      { p with first := some ⟨f.src, f.dst, ctypeOf f, f.len32, f.chan, f.w4⟩ }) s)
  else s

/-- A frame that the HC-8 of this tray originated, inside the tray. -/
def fromOwn (s : State) (u : Nat) (f : Frame) : Bool := f.src == ownEid s && !isFront (uPort u)

/-- An EID of an HC-8 (R40). -/
def hc8Eid (e : Nat) : Bool := decide (0xC00 ≤ e) && decide (e ≤ 0xCFF)

/-- The drop reason of R162, R565 or R42 for a frame at a port; none where it passes. -/
def contentFault (s : State) (u : Nat) (f : Frame) : Option Nat :=
  if badForm f then some dropContent
  else if badEid f.src || badEid f.dst then some dropBadEid
  else if (port s u).st != .admitted && f.cls != 0 then some dropContent
  else if hc8Eid f.dst && reservedWords f then some dropContent
  else if !carriesAll s && !(f.cls == 0 && (f.dst == ownEid s || fromOwn s u f)) && !(isFront (uPort u) && isTrayProbe f) then
    some dropContent
  else none

/-- The bank that was in force at a moment, as the last switch tells (R154, R198). -/
def bankAt (s : State) (turn : Nat) : Bool :=
  if s.fwd.tables.switched && !reached s.fwd.tables.switchTurn turn then !s.fwd.tables.inForce else s.fwd.tables.inForce

/-- The header rewrites of entry to the tray (R154, R155): DEFL, PATH_SEQ, STAMPED and EPOCH. A frame whose stomped copy
has gone before carries that copy's PATH_SEQ (R163). -/
def enterTray (u : Nat) (x : Arrival) (s : State) : Frame × State :=
  let f := x.f
  let now := bankAt s x.at_.turn
  if isFront (uPort u) then
    let (n, s) := match x.path with | some n => (n, s) | none => nextPathSeq (uAsic u) f s
    let f := { f with defl := 0, pathSeq := n }
    if upOrSpine s (uPort u) then
      if f.stamped then (f, s)
      else ({ f with stamped := true, epoch := now }, modFwd (fun w => { w with unstamped := w.unstamped + 1 }) s)
    else ({ f with stamped := true, epoch := now }, s)
  else if isCtrl (uPort u) then ({ f with stamped := true, epoch := now }, s)
  else (f, s)

/-- The class as which a frame is queued: in UNSCHEDULED all but CTRL and TWINE go as WEFT (R82). -/
def queueClass (s : State) (cls : Nat) : Nat := if s.tray.st = .unscheduled ∧ 2 ≤ cls then 3 else cls

/-- A frame inside the tray with its stamp, the moment of its head (R65). -/
def stampFrame (s : State) (u : Nat) (f : Frame) (m : Moment) (shared : Option Nat) : QFrame :=
  { f := f, cls := queueClass s f.cls, stampTurn := m.turn, stampTick := m.tick, stampClock := m.clock, inUnit := u,
    shared := shared }

/-- Bank choice, lookup and placing (R174, R178, R186). -/
def routeFrame (u : Nat) (f : Frame) (m : Moment) (shared : Option Nat) (s : State) : State :=
  let a := uAsic u
  let (bank, how) := bankFor s f m.turn
  let s := cacheTouch bank a f.dst (countEpoch how u s)
  place a (eptEntry s bank a f.dst) (stampFrame s u f m shared) s

/-- The instance of a TWINE frame: GROUP, GEPOCH and INSTANCE (R323). -/
def twineKey (f : Frame) : Nat := fld f.w3.toNat 31 12 * 2 ^ 16 + fld f.w4.toNat 31 16

/-- The CHUNK of a TWINE frame. -/
def chunkOf (f : Frame) : Nat := fld f.w5.toNat 31 8

/-- A frame joins the kept output of its chunk for its target (R347). -/
def keepFrame (f : Frame) (c : Coll) : Coll :=
  let mine := fun (k : Kept) => k.chunk == chunkOf f && k.dst == f.dst
  if c.kept.any mine then
    { c with kept := c.kept.map fun k => if mine k then { k with frames := k.frames ++ [f] } else k }
  else { c with kept := c.kept ++ [{ chunk := chunkOf f, dst := f.dst, frames := [f], notices := 0 }] }

/-- The byte offset of a STALL frame (R170). -/
def offsetOf (f : Frame) : Nat := f.w4.toNat + fld f.w5.toNat 15 0 * 2 ^ 32

/-- What the HC-8 knows of a copy made for it: the FLOW_SEQ that a loss notice names (R347, R383). -/
def keepCopy (f : Frame) (s : State) : State :=
  if f.cls = 1 then
    if (tabGet {} s.twine.insts (twineKey f)).st = .free then s
    else modTwine (fun t => { t with insts := tabMod {} t.insts (twineKey f) (keepFrame f) }) s
  else
    modPool (fun p =>
      { p with recalls := p.recalls.map fun r =>
          if r.stall = fld f.w3.toNat 31 16 ∧ r.tag = fld f.w5.toNat 31 16 then
            { r with sent := r.sent ++ [{ off := offsetOf f, len := 32 * f.len32, dst := f.dst, chan := f.chan, seq := f.flowSeq }] }
          else r }) s

/-- One copy of a replicated frame (R195). -/
def replCopy (u : Nat) (f : Frame) (m : Moment) (set ref k : Nat) (s : State) : State :=
  let r := replSet s (uAsic u) set
  let (eid, next) := r.targets.getD k (0, 0)
  let fl := flowOf f.src eid r.chan
  let ps := tabGet 0 s.fwd.hc8Path fl
  let s := modSet (uAsic u) set (fun r =>
    { r with targets := r.targets.set k (eid, (next + 1) % 65536), copies := r.copies + 1 }) s
  let s := modFwd (fun w => { w with hc8Path := tabSet 0 w.hc8Path fl ((ps + 1) % 4096) }) s
  let f := { f with dst := eid, chan := r.chan, flowSeq := next, pathSeq := ps }
  routeFrame u f m (some ref) (keepCopy f (count (fwdCtr (uAsic u) 13) 1 s))

/-- A replicated frame (R194, R195). -/
def replicate (u : Nat) (f : Frame) (m : Moment) (s : State) : State :=
  let r := replSet s (uAsic u) f.pathSeq
  if 1023 < f.pathSeq || !r.loaded then dropFrame dropReplSet u f s
  else
    let ref := s.fwd.refCount + 1
    forAll (List.range r.targets.length) (replCopy u f m f.pathSeq ref) (modFwd (fun w => { w with refCount := ref }) s)

/-- A held frame that R238 spills next: the oldest stamp among the held frames of an ASIC whose class may spill. -/
def nextHeld (s : State) (asic : Nat) : Option (Nat × QFrame) :=
  leastBy (fun x => x.2.stampClock) ((asicPorts asic).flatMap fun u =>
    if (punit s u).hold.isSome then
      ((queuedFor s u).filter fun q => q.diverted && s.fwd.spillClasses.testBit q.cls).map fun q => (u, q)
    else [])

/-- Held frames are spilled while fewer than 32,768 cells are free (R238). -/
def spillHeld (asic : Nat) : Nat → State → State
  | 0, s => s
  | n + 1, s =>
    if 32768 ≤ freeCells s asic then s
    else match nextHeld s asic with
      | none => s
      | some (u, q) =>
        if spillRoom s asic q.f then spillHeld asic n (spillFrame u q (dequeue u q s)) else noteQuotaFull u q s

/-- An accepted frame passes stages 1 to 6 of R173. -/
def ingress (u : Nat) (x : Arrival) (s : State) : State :=
  let f := x.f
  let s := if badForm f then s else noteFirst u f s
  match contentFault s u f with
  | some r => dropFrame r u f (countWin (linkCtr u 11) 1 s)
  | none =>
    if isFront (uPort u) && isTrayProbe f then s
    else
      let (f, s) := enterTray u x s
      if isCtrl (uPort u) && f.dst == ownEid s && f.src == ownEid s then replicate u f x.at_ s
      else routeFrame u f x.at_ none s

/-- FRAME_INGRESS: the first frame that the port's receiver has accepted. -/
def execFrameIngress (unit : Nat) (s : State) : Result :=
  act (fun s =>
    match (link s unit).arrived with
    | x :: t =>
      if isPortEnd unit && uSide unit == 0 then
        let s := ingress unit x (modLink unit (fun l => { l with arrived := t }) s)
        spillHeld (uAsic unit) (asicFrames s (uAsic unit)).length s
      else s
    | [] => s) s

/-! ### The endpoint table (R207, R211, R212) -/

/-- The grace of the last switch runs (R198). -/
def graceRuns (s : State) : Bool :=
  s.fwd.tables.inGrace && !reached ((s.fwd.tables.switchTurn + s.fwd.tables.grace) % 2 ^ 48) s.reel.turn

/-- The pending table switch. -/
def pendingTable (s : State) : Option Sched := s.sched.find? fun a => a.kind == .tableSwitch

/-- The bank may not be written (R198, R207). -/
def bankBusy (s : State) (bank : Bool) : Bool :=
  bank == s.fwd.tables.inForce || (pendingTable s).isSome || graceRuns s

/-- The four words of an entry in an argument block; its reserved bits are held as 0 (R15, R208). -/
def eptArg (c : Cmd) (i : Nat) : EptEntry :=
  let w := fun k => BitVec.ofNat 32 (argW c (2 + 4 * i + k))
  ⟨w 0, w 1, w 2 &&& 0x000FFFFF, w 3 &&& 0x80000000⟩

/-- EPT_WRITE (R174, R207, R211); the ports held under R46 on those ASICs are judged again (R47). -/
def eptWriteBody (c : Cmd) (s : State) : Verdict :=
  let w := argW c 0
  let n := fld w 19 12
  let first := fld w 31 20
  let mask := fld w 7 4
  let bank := bit w 0
  lenIs c (8 + 16 * n) <|
    argChecks ([(0, n == 0 || decide (200 < n) || mask == 0 || decide (0x1000 < first + n))] ++
        (List.range n).map fun i => (20 + 16 * i, eptValid (eptArg c i) && badEid (first + i))) <|
      check stNotNow (bankBusy s bank) <|
        let asics := numbers 4 fun a => mask.testBit a
        let put1 := fun (a i : Nat) (s : State) => modFwd (fun v =>
          { v with
            ept := tabSet {} v.ept (eptKey bank a (first + i)) (eptArg c i)
            cache := tabMod [] v.cache (bank.toNat * 4 + a) fun l => l.filter (· != first + i) }) s
        applied (forAll asics rejudgeWiring (withCarts (forAll asics fun a => forAll (List.range n) (put1 a)) s))

def execEptWrite (mb fails : Nat) (s : State) : Result := act (writeCommand 0x0200 mb fails eptWriteBody) s

/-- EPT_READ (R212). -/
def eptReadBody (c : Cmd) (s : State) : Verdict :=
  lenIs c 4 <|
    let w := argW c 0
    let n := fld w 19 12
    let first := fld w 31 20
    argChecks [(0, n == 0 || decide (200 < n) || decide (0x1000 < first + n))] <|
      report ((List.range n).flatMap fun i =>
        let e := eptEntry s (bit w 0) (fld w 5 4) (first + i)
        [e.w0.toNat, e.w1.toNat, e.w2.toNat, e.w3.toNat]) s

def execEptRead (mb fails : Nat) (s : State) : Result := act (readCommand 0x0201 mb fails eptReadBody) s

/-! ### The table switch (R199, R213, R214) -/

/-- TABLE_SWITCH (R213). -/
def tableSwitchBody (c : Cmd) (s : State) : Verdict :=
  lenIs c 12 <|
    let g := fld (argW c 0) 6 0
    let turn := argTurn c 1
    argChecks [(0, decide (64 < g)), (4, turnTooFar turn s)] <|
      check stPrecondition (untimed s) <|
      check stNotNow (turnTooNear turn s || (pendingTable s).isSome || graceRuns s) <|
      check stNoRoom (schedFull s) (applied (schedAdd ⟨.tableSwitch, 0, turn, 0x0202, false, .table g⟩ s))

def execTableSwitch (mb fails : Nat) (s : State) : Result := act (writeCommand 0x0202 mb fails tableSwitchBody) s

/-- TABLE_STATUS_GET's words (R214). -/
def tableWords (s : State) : List Nat :=
  let t := s.fwd.tables
  let (grace, turn) := match pendingTable s with
    | some a => ((match a.arg with | .table g => g | _ => 0), a.turn)
    | none => (t.grace, t.switchTurn)
  [put 14 8 grace + put 2 2 (graceRuns s).toNat + put 1 1 (pendingTable s).isSome.toNat + put 0 0 t.inForce.toNat,
   turn % 2 ^ 32, turn / 2 ^ 32, t.late, t.foreign]

def tableStatusGetBody (c : Cmd) (s : State) : Verdict := lenIs c 0 (report (tableWords s) s)

def execTableStatusGet (mb fails : Nat) (s : State) : Result :=
  act (readCommand 0x0203 mb fails tableStatusGetBody) s

/-- TABLE_GRACE_END: the old bank becomes writable at tick 0 of turn T + G (R198). -/
def execTableGraceEnd (s : State) : Result :=
  act (fun s => if s.fwd.tables.inGrace && !graceRuns s then
    modFwd (fun w => { w with tables := { w.tables with inGrace := false } }) s else s) s

/-! ### Queues, classes and spill settings (R206, R215 to R219) -/

/-- The settings of word 2 of QUEUE_CONFIG_SET (R215). -/
def qcfgArg (w : Nat) : QCfg := { limit := fld w 31 16, unspill := fld w 15 11, mark := fld w 10 6, mode := fld w 1 0 }

/-- A queue's settings are about to change: the frame at its head keeps the mode that it reached the head under (R206). -/
def keepMode (u cls : Nat) (s : State) : State :=
  match headOf s u cls with
  | some q => if q.mode.isNone then replaceIn u q { q with mode := some (queueCfg s u cls).mode } s else s
  | none => s

/-- QUEUE_CONFIG_SET (R206, R215). -/
def queueConfigSetBody (c : Cmd) (s : State) : Verdict :=
  lenIs c 12 <|
    let u := paAsicEnd c
    let mask := fld (argW c 1) 4 0
    let q := qcfgArg (argW c 2)
    let units := if bit (argW c 1) 16 then (List.range 92).map (unitOf (uAsic u)) else [u]
    argChecks [(0, paBadNoSide c), (4, mask == 0),
        (8, decide (16 ≤ q.unspill) || decide (17 ≤ q.mark) || decide (2 ≤ q.mode))] <|
      applied (forAll units (fun v => forAll (numbers 5 fun k => mask.testBit k) fun k s =>
        modFwd (fun w => { w with qcfg := tabSet (qDefault k) w.qcfg (v * 8 + k) q }) (keepMode v k s)) s)

def execQueueConfigSet (mb fails : Nat) (s : State) : Result :=
  act (writeCommand 0x0204 mb fails queueConfigSetBody) s

/-- QUEUE_CONFIG_GET (R216): the peak starts again from the present depth. -/
def queueConfigGetBody (c : Cmd) (s : State) : Verdict :=
  lenIs c 8 <|
    let u := paAsicEnd c
    let k := fld (argW c 1) 2 0
    let q := queueCfg s u k
    let d := depth s u k
    argChecks [(0, paBadNoSide c), (4, decide (5 ≤ k))] <|
      .done stOk (leWords [put 31 16 q.limit + put 15 11 q.unspill + put 10 6 q.mark + put 1 0 q.mode,
          put 31 16 (sat 16 d) + put 15 0 (sat 16 (max d (tabGet 0 s.fwd.peaks (u * 8 + k))))])
        (modFwd (fun w => { w with peaks := tabSet 0 w.peaks (u * 8 + k) d }) s)

def execQueueConfigGet (mb fails : Nat) (s : State) : Result :=
  act (readCommand 0x0205 mb fails queueConfigGetBody) s

/-- FWD_CONFIG_SET (R217). -/
def fwdConfigSetBody (c : Cmd) (s : State) : Verdict :=
  lenIs c 4 <|
    let w := argW c 0
    let t := if bit w 31 then s else modFwd (fun v =>
      { v with spillClasses := fld w 20 16, deflClasses := fld w 12 8, deflMax := fld w 1 0 }) s
    .done stOk (leWords [put 20 16 t.fwd.spillClasses + put 12 8 t.fwd.deflClasses + put 1 0 t.fwd.deflMax]) t

def execFwdConfigSet (mb fails : Nat) (s : State) : Result := act (configCommand 0x0206 mb fails fwdConfigSetBody) s

/-- SPILL_CONFIG_SET (R218). -/
def spillConfigSetBody (c : Cmd) (s : State) : Verdict :=
  lenIs c 12 <|
    let mask := fld (argW c 0) 3 0
    let quota := argW c 1
    let res := argW c 2
    let sum := ((List.range 4).map fun a => if mask.testBit a then res else (spillOf s a).reserve).sum
    argChecks [(0, mask == 0), (4, decide (786432 < quota)), (8, decide (quota < res))] <|
      check stNoRoom (decide (spillPages s < sum)) <|
        applied (forAll (numbers 4 fun a => mask.testBit a)
          (fun a => modSpill a fun sp => { sp with quota := quota, reserve := res }) s)

def execSpillConfigSet (mb fails : Nat) (s : State) : Result :=
  act (writeCommand 0x0207 mb fails spillConfigSetBody) s

/-- SPILL_STATUS_GET (R219). -/
def spillStatusGetBody (c : Cmd) (s : State) : Verdict :=
  lenIs c 4 <|
    let sp := spillOf s (fld (argW c 0) 1 0)
    report [sp.pages.length, sp.peak, sat 32 (sp.pages.flatMap fun p => p.frames).length, sp.dropsNoSpace, sp.dropsLost] s

def execSpillStatusGet (mb fails : Nat) (s : State) : Result :=
  act (readCommand 0x0208 mb fails spillStatusGetBody) s

end Sys2Proof.Machine
end

