-- ==== Sys2Proof/Machine/Pairs.lean ====
section
/-! DEFINITION. The link layer's receiver: a decoded codeword pair, its link control word and its frame stream
(R103, R114, R115, R148, R150, R153, R156 to R163, R165, R168, R171). -/

namespace Sys2Proof.Machine

open Sys2Proof

/-! ### Link errors -/

/-- The lane that a lasting fault is laid to (R159): the largest windowed sum of CORRECTED and PRBS_ERRORS. -/
def blamedLane (s : State) (u : Nat) : Nat :=
  let sum := fun k => windowed s (laneCtr u k 0) + windowed s (laneCtr u k 1)
  (leastBy (fun k => 2 ^ 70 - sum k) (List.range (laneCount (port s u)))).getD 0

/-- A lasting link fault: a lane is suspect and LANE_SUSPECT is raised (R159, R161, R244). -/
def lastingFault (u : Nat) (s : State) : State :=
  let k := blamedLane s u
  let s := modPort u (fun p => modLaneOf p k fun l => { l with suspect := true }) s
  let s := modPunit u (fun q => { q with lasting := true }) s
  raise 0x0103 [iUnit u, (2, k), iCause 0] (countWin (linkCtr u 8) 1 s)

/-- The egress port on which a frame whose head has arrived is being sent cut-through (R149, R163, R181): by the bank that
routes it (R178), where its queue is cut-through and empty, the port is awake and free, the ingress is no slower, and the
pitch is open. -/
def cutThroughPort (s : State) (u : Nat) (f : Frame) (m : Moment) : Option Nat :=
  if uSide u = 1 || (contentFault s u f).isSome then none
  else
    let e := eptEntry s (bankFor s f m.turn).1 (uAsic u) f.dst
    let cls := queueClass s f.cls
    match sprayPick s (uAsic u * 8 + cls) (routeSet s (uAsic u) e cls) (fun v => depth s v cls) with
    | none => none
    | some v =>
      let p := port s v
      let r := 64 - s.reel.tick % 64
      let q := stampFrame s u f m none
      if (queueCfg s v cls).mode == 0 && (queue s v cls).isEmpty && !p.txIdle && decide (p.busyUntil ≤ s.reel.clock) &&
          decide (bytesPerTick p.set ≤ bytesPerTick (port s u).set) && linkRoom (link s v) f && mayLeave s v q &&
          !s.reel.freqPause && s.tray.st != .unscheduled && !(s.reel.step.isSome || s.reel.ctrlOnly) &&
          (passes s v).any fun x => x.cls == cls && !x.borrow && decide (portTicks s v f ≤ r + 64 * x.run) && allowed x q
      then some v else none

/-- CUT_THROUGH_STOMP: a link error on the ingress copy of such a frame completes its egress as STOMPED (R163). The copy
takes the PATH_SEQ that the replayed one will carry. -/
def stompCopy (u : Nat) (bytes : List Byte) (m : Moment) (s : State) : State :=
  let f := parseFrame (bytes.take 32) []
  if bytes.length < 32 || fld (wordBe bytes 2) 15 0 != hcrcOf f then s
  else match cutThroughPort s u f m with
    | none => s
    | some v =>
      let body := (bytes.drop 32).take (32 * f.len32)
      let (f, s) := enterTray u { f := { f with payload := body ++ zeros (32 * f.len32 - body.length) }, at_ := m, path := (link s u).path } s
      let s := onlyIf (isFront (uPort u)) (modLink u fun l => { l with path := some f.pathSeq }) s
      linkSend v (stampFrame s u f m none) true s

/-- The transmitter that shares a port end has a link control word to send (R125): an acknowledgement or a NAK. -/
def answer (u : Nat) (nak : Bool) (s : State) : State :=
  wakePort u (onlyIf nak (modLink u fun l => { l with nakNext := true }) s)

/-- A link error (R156). The first one after an accepted frame makes the receiver send a NAK and discard; it counts against
the frame that is expected, and while the receiver discards only a transmission of that frame counts again (`expected`).
The second makes it lasting (R159), the eighth sends the port to TRAINING (R160). -/
def linkError (u : Nat) (bytes : List Byte) (m : Moment) (expected : Bool) (s : State) : State :=
  let l := link s u
  let first := !l.discarding
  let s := onlyIf (first || expected) (stompCopy u bytes m) s
  let s := modLink u (fun l => { l with partialBytes := [], lostPlace := true }) s
  if first || expected then
    let s := modLink u (fun l => { l with discarding := true, errors := l.errors + 1 }) s
    let s := onlyIf first (fun s => answer u true (emit (.nak u ((l.rxSeq + 4095) % 4096)) (countWin (linkCtr u 5) 1 s))) s
    let s := onlyIf (l.errors + 1 == 2) (lastingFault u) s
    onlyIf (l.errors + 1 == 8) (portRetrain u 3) s
  else s

/-! ### Frames -/

/-- Frames that the HC-8 keeps for its functions: mailbox traffic, notices, ledger records, TWINE and STALL. -/
def hc8Keeps (f : Frame) : Bool :=
  (f.cls == 0 && decide (2 ≤ ctypeOf f) && decide (ctypeOf f ≤ 5)) || f.cls == 1 || f.cls == 4

/-- An HC-8 end takes a frame of this class in its port's state (R164). -/
def hc8Takes (s : State) (u : Nat) (f : Frame) : Bool := f.cls == 0 || (port s u).st == .admitted

/-- An accepted frame goes to its end of the link: an ASIC end keeps it with the moment of its head for its ingress, an
HC-8 end for its functions; there a class that the port's state does not take is discarded as CONTENT (R162, R164). -/
def deliverFrame (u : Nat) (f : Frame) (m : Moment) (s : State) : State :=
  if uSide u = 0 then
    modLink u (fun l => { l with arrived := l.arrived ++ [{ f := f, at_ := m, path := l.path }], path := none }) s
  else if !hc8Takes s u f then dropFrame dropContent u f (countWin (linkCtr u 11) 1 s)
  else onlyIf (hc8Keeps f) (modLink u fun l => { l with rxq := l.rxq ++ [f] }) s

/-- A frame is accepted and acknowledged (R153), transiently at fault if one transmission of it failed (R159); a STOMPED
one is discarded (R163). -/
def acceptFrame (u status : Nat) (f : Frame) (m : Moment) (s : State) : State :=
  let s := onlyIf ((link s u).errors == 1) (countWin (linkCtr u 7) 1) s
  let s := answer u false (modLink u (fun l =>
    { l with rxSeq := (l.rxSeq + 1) % 4096, ackValid := true, errors := 0, discarding := false }) s)
  if status != 0 then countWin (linkCtr u 10) 1 s
  else deliverFrame u f m (count (linkCtr u 3) (frameBytes f) (count (linkCtr u 1) 1 s))

/-- A whole frame is checked (R153, R156, R165, R171). A receiver that discards takes only the frame it expects, and that
from a RESTART pair. -/
def frameDone (u : Nat) (bytes : List Byte) (m : Moment) (restart : Bool) (s : State) : State :=
  let n := bytes.length - 8
  let f := parseFrame (bytes.take 32) ((bytes.drop 32).take (n - 32))
  let t0 := wordBe (bytes.drop n) 0
  let t1 := wordBe (bytes.drop n) 1
  let l := link s u
  let next := fld t1 31 20 == l.rxSeq
  if l.discarding && !(restart && next) then s
  else if t0 == crc32c (bytes.take n) && next then acceptFrame u (fld t1 19 18) f m s
  else linkError u bytes m next s

/-- The length of the frame whose first bytes these are, once its header is there and its HCRC is correct;
none where the header is wrong (R165). -/
def frameLength (bytes : List Byte) : Option Nat :=
  let f := parseFrame (bytes.take 32) []
  if fld (wordBe bytes 2) 15 0 == hcrcOf f then some (frameBytes f) else none

/-- The present moment. -/
def momentNow (s : State) : Moment := ⟨s.reel.turn, s.reel.tick, s.reel.clock⟩

/-- Frames packed back to back (R148), the first with the moment of its head and whether that lay in a RESTART pair, the
others with this pair's; what is left at the end is the frame in progress. -/
def frames (u : Nat) (restart : Bool) : Nat → Moment → Bool → List Byte → State → State
  | 0, _, _, _, s => s
  | n + 1, m, r, bytes, s =>
    let hold := fun (s : State) => modLink u (fun l => { l with partialBytes := bytes, partialAt := m, partialRestart := r }) s
    if (link s u).lostPlace || !inService (port s u) || bytes.isEmpty then s
    else if bytes.length < 32 then hold s
    else match frameLength bytes with
      | none => linkError u [] m r (modLink u (fun l => { l with partialBytes := [] }) s)
      | some k =>
        if bytes.length < k then hold s
        else frames u restart n (momentNow s) restart (bytes.drop k)
          (frameDone u (bytes.take k) m r (modLink u (fun l => { l with partialBytes := [] }) s))

/-- The frame stream of a pair: the rest of a frame in progress, then the heads that HEAD_OFFSET marks (R148, R150). At a
RESTART pair any frame in progress is abandoned (R168). -/
def frameStream (u : Nat) (restart : Bool) (head : Nat) (bytes : List Byte) (s : State) : State :=
  let l := link s u
  let cut := if head = 255 then bytes.length else 8 * head
  let s := modLink u (fun l => if restart then { l with partialBytes := [], lostPlace := false } else l) s
  let s :=
    if restart || l.lostPlace || l.partialBytes.isEmpty then s
    else
      let s := frames u restart 40 l.partialAt l.partialRestart (l.partialBytes ++ bytes.take cut) s
      let p := (link s u).partialBytes
      onlyIf (head != 255 && !p.isEmpty) (linkError u p l.partialAt l.partialRestart) s
  if head = 255 then s
  else if inService (port s u) then
    frames u restart 40 (momentNow s) restart (bytes.drop cut) (modLink u (fun l => { l with lostPlace := false }) s)
  else s

/-! ### The fill -/

/-- A lane takes one bit of fill after FEC: a run of correct bits, or a wrong one (R114, R115). -/
def fillLane (bound : Nat) (ok : Bool) (l : Lane) : Lane :=
  if ok then { l with run := min 512 (l.run + 1), fillAt := bound } else { l with run := 0, fillAt := bound }

/-- One bit of fill against the checker: its first 31 bits seed the register, from then on the register runs free (R114,
DESIGN CHOICE, log entry 203). True where the bit is right. -/
def fillBit (b : Bool) (p : Port) : Bool × Port :=
  if p.rxSeen < 31 then (true, { p with rxSeen := p.rxSeen + 1, rxPrbs := (p.rxPrbs * 2 + b.toNat) % 2 ^ 31 })
  else
    let (want, r) := prbsBit p.rxPrbs
    (b == want, { p with rxPrbs := r })

/-- The fill bits of a pair from message bit n on, each counted against the lane that carried its symbol (R104, R114): the
port after them and the wrong bits of each lane. -/
def fillBits (bound : Nat) : Nat → List Bool → Port × List Nat → Port × List Nat
  | _, [], a => a
  | n, b :: t, (p, errs) =>
    let k := n / 10 % laneCount p
    let (ok, p) := fillBit b p
    fillBits bound (n + 1) t (modLaneOf p k (fillLane bound ok), if ok then errs else errs.set k (errs.getD k 0 + 1))

/-- The fill of a sound pair is checked. -/
def checkFill (u first : Nat) (fill : List Byte) (s : State) : State :=
  let (p, errs) := fillBits s.reel.bounds (40 + 8 * first) (bitsOf fill) (port s u, [0, 0, 0, 0])
  forAll (List.range 4) (fun k => onlyIf (errs.getD k 0 != 0) (countWin (laneCtr u k 1) (errs.getD k 0))) (setPort u p s)

/-! ### The pair -/

/-- The symbols that a pair's decoding corrected on its lanes (R141); each lane shows a signal. -/
def pairLanes (u : Nat) (corrected : List Nat) (s : State) : State :=
  forAll (List.range (laneCount (port s u))) (fun k s =>
    modPort u (fun p => modLaneOf p k fun l => { l with signal := true })
      (onlyIf (corrected.getD k 0 != 0) (countWin (laneCtr u k 0) (corrected.getD k 0)) s)) s

/-- A pair that cannot be corrected (R156): a link error where it held bytes of a frame in progress or of the frame
expected, as the command says. The fill checker starts afresh. -/
def badPair (u : Nat) (holds : Bool) (s : State) : State :=
  let s := modPort u (fun p => { p with rxSeen := 0 }) (countWin (linkCtr u 4) 1 s)
  let l := link s u
  if holds || !(l.partialBytes.isEmpty || l.discarding) then linkError u l.partialBytes l.partialAt true s
  else modLink u (fun l => { l with partialBytes := [], lostPlace := true }) s

/-- A pair whose message is sound: its link control word, then its frame stream and its fill. -/
def goodPair (u w : Nat) (stream : List Byte) (holds : Bool) (s : State) : State :=
  let head := fld w 23 16
  let fill := fld w 15 8
  let l := link s u
  if fld w 7 0 != crc8 (beBytes 4 (w / 256)) || (160 ≤ head && head < 255) || 161 ≤ fill then
    linkError u l.partialBytes l.partialAt holds s
  else
    let s := ackReceive u (fld w 39 28) (bit w 27) (bit w 26) s
    let s := frameStream u (bit w 24) head (stream.take (8 * fill)) s
    onlyIf (inService (port s u)) (checkFill u (8 * fill) (stream.drop (8 * fill))) s

/-- PAIR_RECEIVE: a codeword pair is decoded at a port end that carries pairs: its message, 5 bytes of link control word and
the 1,280 of its stream, whether it could not be corrected, whether it held bytes of a transmission of the frame expected
next, and the symbols corrected per lane. -/
def execPairReceive (unit : Nat) (lcw : BitVec 40) (stream : List Byte) (bad holds : Bool) (corrected : List Nat)
    (s : State) : Result :=
  act (fun s =>
    if isPortEnd unit && inService (port s unit) then
      let s := pairLanes unit corrected s
      if bad then badPair unit holds s else goodPair unit lcw.toNat stream holds s
    else s) s

end Sys2Proof.Machine
end

