-- ==== Sys2Proof/Machine/Service.lean ====
section
/-! DEFINITION. Units: the unit commands (R259, R261 to R266), admission and withdrawal at their turns (R249 to
R251), the end of a hold window (R239, R241) and the path of an ASIC to STANDBY (R246, R259). -/

namespace Sys2Proof.Machine

open Sys2Proof

/-! ### UNIT_ADMIT and UNIT_WITHDRAW (R263) -/

/-- A unit address that admission and withdrawal refuse: SIDE = 1 or out of range (R261). -/
def unitBad (c : Cmd) : Bool := uaBad c || bit (argW c 0) 15

/-- The unit that a pending action of a kind names. -/
def pendingFor (s : State) (kind : SKind) (u : Nat) : Option Sched := s.sched.find? fun a => a.kind == kind && a.unit == u

/-- The ASIC of a port or cartridge is ADMITTED or pending admission at or before a turn (R263). -/
def asicReady (s : State) (u turn : Nat) : Bool :=
  let a := if uKind u = 1 then uBay u / 4 else uAsic u
  uKind u == 2 || uKind u == 3 || (asicSt s a).st == .admitted ||
    s.sched.any fun x => x.kind == .admission && x.unit == asicUnit a && reached x.turn turn

/-- The checks that UNIT_ADMIT and UNIT_WITHDRAW share, with the state that each wants (R263). -/
def unitCommand (kind : SKind) (op : Nat) (wanted : State → Nat → Bool) (c : Cmd) (s : State) : Verdict :=
  lenIs c 12 <|
    let u := uaUnit c
    let turn := argTurn c 1
    argChecks [(0, unitBad c), (4, turnTooFar turn s)] <|
      check stPrecondition (untimed s || !boltBoundary s turn || !wanted s u ||
          (uKind u != 3 && s.tray.st != .admitted) || !asicReady s u turn) <|
      check stNotNow (turnTooNear turn s || schedTaken kind u turn s) <|
      check stNoRoom (schedFull s) (applied (schedAdd ⟨kind, u, turn, op, false, .none⟩ s))

/-- STANDBY as UNIT_ADMIT wants it at acceptance: the tray in STANDBY itself (R248). The HC-8 end of a controller port
counts at the turn (R681). -/
def inStandby (s : State) (u : Nat) : Bool := if uKind u = 3 then s.tray.st == .standby else unitState s u == 3

def unitAdmitBody (c : Cmd) (s : State) : Verdict := unitCommand .admission 0x0900 inStandby c s

/-- The driver's UNIT_ADMIT of an ASIC held by its digest lets the HC-8 load the tables again (R259). -/
def retryLoad (mb : Nat) (s : State) : State :=
  let c := cmdOf 0x0900 mb 0 s
  if atPoint 0x0900 mb s && c.len == 12 && uKind (uaUnit c) == 2 && !unitBad c then
    modAsic (uAsic (uaUnit c)) (fun x => { x with mismatches := 0 }) s
  else s

def execUnitAdmit (mb fails : Nat) (s : State) : Result :=
  act (fun s => writeCommand 0x0900 mb fails unitAdmitBody (retryLoad mb s)) s

def unitWithdrawBody (c : Cmd) (s : State) : Verdict := unitCommand .withdraw 0x0901 (fun s u => unitState s u == 4) c s

def execUnitWithdraw (mb fails : Nat) (s : State) : Result := act (writeCommand 0x0901 mb fails unitWithdrawBody) s

/-! ### Status and settings (R264 to R266) -/

/-- The frames held for a port (R237). -/
def heldCount (s : State) (u : Nat) : Nat :=
  if (punit s u).hold.isSome then ((portFrames s u).filter fun x => x.2.diverted).length else 0

/-- CLEAN_TURNS of a unit: the least among the ports that count for it (R264). -/
def cleanTurns (s : State) (u : Nat) : Nat :=
  let least := fun (l : List Nat) => min 64 ((leastBy (fun v => (punit s v).clean) l).elim 0 fun v => (punit s v).clean)
  match uKind u with
  | 0 => least [u]
  | 1 => least (usedBayPorts s (uBay u))
  | 2 => least (requiredPorts s (uAsic u))
  | _ => 0

/-- UNIT_STATUS_GET's words (R264). The HC-8 end of a controller port follows the ASIC end's actions (R681), and shows
the port's window (R265). -/
def unitWords (s : State) (u : Nat) : List Nat :=
  let v := asicEnd u
  let isPort := uKind u == 0
  let adm := pendingFor s .admission v
  let wd := pendingFor s .withdraw v
  let turn := match adm, wd with
    | some a, some b => if schedLe s.reel.turn a b then a.turn else b.turn
    | some a, none => a.turn
    | none, some b => b.turn
    | none, none => 0
  let p := punit s v
  let w := match p.hold with | some h => h.window | none => p.window
  let held := heldCount s u
  [put 31 28 (unitState s u) + put 27 27 adm.isSome.toNat + put 26 26 wd.isSome.toNat +
     put 25 25 (unitAux s v).drainTurn.isSome.toNat + put 24 24 (isPort && held != 0).toNat +
     put 23 20 (unitAux s v).lastFail + put 6 0 (cleanTurns s u),
   if isPort then put 12 0 w else 0, turn % 2 ^ 32,
   put 31 16 (if isPort then sat 16 held else 0) + put 15 0 (turn / 2 ^ 32)]

def unitStatusGetBody (c : Cmd) (s : State) : Verdict :=
  lenIs c 4 <| argChecks [(0, uaBad c)] <| report (unitWords s (uaUnit c)) s

def execUnitStatusGet (mb fails : Nat) (s : State) : Result := act (readCommand 0x0902 mb fails unitStatusGetBody) s

/-- HOLD_CONFIG_SET (R265). -/
def holdConfigSetBody (c : Cmd) (s : State) : Verdict :=
  lenIs c 8 <|
    let u := paAsicEnd c
    let n := fld (argW c 1) 12 0
    let units := if bit (argW c 1) 16 then (List.range 92).map (unitOf (uAsic u)) else [u]
    argChecks [(0, paBadNoSide c), (4, decide (4096 < n))] <|
      applied (forAll units (fun v => modPunit v fun p => { p with window := n }) s)

def execHoldConfigSet (mb fails : Nat) (s : State) : Result := act (writeCommand 0x0903 mb fails holdConfigSetBody) s

/-- RESEQ_STATUS_GET (R266). -/
def reseqWords (s : State) (a : Nat) : List Nat :=
  let r := reseqOf s a
  [put 31 16 r.peak + put 15 0 r.contexts.length, ((asicFrames s a).filter fun q => q.parked).length, r.full, r.span,
   sat 32 ((asicPorts a).map (heldCount s)).sum]

def reseqStatusGetBody (c : Cmd) (s : State) : Verdict := lenIs c 4 (report (reseqWords s (fld (argW c 0) 1 0)) s)

def execReseqStatusGet (mb fails : Nat) (s : State) : Result := act (readCommand 0x0904 mb fails reseqStatusGetBody) s

/-! ### Admission and withdrawal at their turns -/

/-- UNIT_ADMISSION (R249): the check is made with the plan in force at the turn. -/
def execUnitAdmission (unit : Nat) (s : State) : Result :=
  act (fun s =>
    match dueAction .admission (some unit) s with
    | some a => admitUnit unit a.turn (schedRemove a s)
    | none => s) s

/-- UNIT_WITHDRAWAL (R250). -/
def execUnitWithdrawal (unit : Nat) (s : State) : Result :=
  act (fun s =>
    match dueAction .withdraw (some unit) s with
    | some a => withdrawUnit unit a.turn (schedRemove a s)
    | none => s) s

/-- A unit drains in its own right, not within a containing unit that drains since the same turn. -/
def drains (s : State) (u : Nat) : Option Nat :=
  match (unitAux s u).drainTurn with
  | none => none
  | some t =>
    let inside := fun v => v != u && (unitAux s v).drainTurn == some t
    if inside trayUnit || (uKind u == 0 && (inside (asicUnit (uAsic u)) || inside (cartUnit (bayOf (uAsic u) (uPort u)))))
    then none else some t

/-- WITHDRAWAL_DRAINED: at a turn boundary at which the unit holds no frame it enters STANDBY (R250). -/
def execWithdrawalDrained (unit : Nat) (s : State) : Result :=
  act (fun s =>
    match drains s unit with
    | some t => if reached t s.reel.turn && s.reel.tick == 0 && !unitHolds s unit then withdrawDone unit s else s
    | none => s) s

/-- WITHDRAWAL_DRAIN_LIMIT: at turn T + 8 it enters STANDBY and frames still held are placed again (R250, R241). -/
def execWithdrawalDrainLimit (leaver : Reading) (s : State) : Result :=
  let unit := leaver.item
  act (withReads leaver.reads fun s =>
    match drains s unit with
    | some t =>
      if reached ((t + 8) % 2 ^ 48) s.reel.turn then
        let ports := (servingPorts s unit).filter fun u => uSide u == 0 && holdsFrames s u
        forAll ports (fun u s => placeHeld u (divertQueued u s)) (withdrawDone unit s)
      else s
    | none => s) s

/-- A window ends after W + 1 boundaries (R76, R239), or at turn L + W + 1 where a forward step brings it sooner (R679). -/
def windowOver (s : State) (h : Hold) : Bool :=
  decide (h.bound + h.window + 1 ≤ s.reel.bounds) || reached ((h.lossTurn + h.window + 1) % 2 ^ 48) s.reel.turn

/-- HOLD_WINDOW_END (R239, R241): step 8 of R75, behind the admissions of the same turn (R253). -/
def execHoldWindowEnd (asic : Nat) (prt : Reading) (s : State) : Result :=
  act (withReads prt.reads fun s =>
    let u := unitOf asic prt.item
    match (punit s u).hold with
    | some h =>
      if asic < 4 && prt.item < 92 && windowOver s h && stepsDone s then holdExpire u s else s
    | none => s) s

/-! ### ASICs (R246, R259) -/

/-- The port ends that an ASIC's bring-up trains: its required ports, the HC-8 ends of its controller ports and the
far ends of its sibling links. -/
def bringUpPorts (s : State) (a : Nat) : List Nat :=
  let req := requiredPorts s a
  req ++ ((req.filter fun u => isCtrl (uPort u)).map hc8End) ++
    ((req.filter fun u => isSibling (uPort u)).map fun u => siblingFar a (uPort u)).filter fun v => !(punit s v).disabled

/-- ASIC_ANSWER: an ASIC with power answers its management path and its required ports train (R246). -/
def execAsicAnswer (asic : Nat) (s : State) : Result :=
  act (fun s =>
    if asic < 4 && (asicSt s asic).st == .dark && domainOn s (4 + asic) then
      let s := asicTo asic .training (modAsic asic (fun x => { x with answered := true, mismatches := 0 }) s)
      forAll (bringUpPorts s asic) trainAuto s
    else s) s

/-- ASIC_TABLE_LOAD: every required port has passed probation; the tables are loaded and compared, once more after
a mismatch; the second is lasting (R246, R259). -/
def execAsicTableLoad (asic mismatches : Nat) (s : State) : Result :=
  act (fun s =>
    let x := asicSt s asic
    if asic < 4 && x.st == .probation && x.mismatches < 2 && (requiredPorts s asic).all (fun u => (punit s u).passed) then
      if 2 ≤ mismatches then
        raise 0x0907 [iUnit (asicUnit asic)] (modAsic asic (fun x => { x with mismatches := 2 }) s)
      else
        let s := asicTo asic .standby (modAsic asic (fun x => { x with mismatches := 0 }) s)
        forAll (asicPorts asic ++ (List.range 8).map fun i => hc8End (unitOf asic (72 + i))) probationExit s
    else s) s

end Sys2Proof.Machine
end

