-- ==== Sys2Proof/Machine/PlanBanks.lean ====
section
/-! DEFINITION. The plan commands (R286, R287, R303, R305 to R316) and the checks of a bank and of a swap. -/

namespace Sys2Proof.Machine

open Sys2Proof

/-! ### Writing a bank (R309 to R312) -/

/-- The bank that a command names (R309). -/
def planBankArg (c : Cmd) : Bool := bit (argW c 0) 0

/-- The bank is in force or sealed and refuses writes (R286, R309). -/
def bankClosed (s : State) (b : Bool) : Bool := s.plan.inForce == some b || (bankOf s b).sealed

/-- PLAN_HEADER_WRITE (R310): every pattern to zero and every map entry to 0x3FF. -/
def planHeaderWriteBody (c : Cmd) (s : State) : Verdict :=
  lenIs c 36 <|
    let b := planBankArg c
    check stNotNow (bankClosed s b) <|
      applied (modBank b (fun _ =>
        { header := (List.range 8).map fun i => BitVec.ofNat 32 (argW c (1 + i)), written := true }) s)

def execPlanHeaderWrite (mb fails : Nat) (s : State) : Result :=
  act (writeCommand 0x0300 mb fails planHeaderWriteBody) s

/-- PLAN_PATTERN_WRITE (R311); the range is checked against a header that exists. -/
def planPatternWriteBody (c : Cmd) (s : State) : Verdict :=
  let w := argW c 0
  let first := fld w 31 22
  let n := fld w 21 18
  lenIs c (8 + 256 * n) <|
    let b := planBankArg c
    let k := bankOf s b
    argChecks [(0, n == 0 || decide (12 < n) || (k.written && decide (patternCount k < first + n)))] <|
      check stPrecondition (!k.written) <|
      check stNotNow (bankClosed s b) <|
        applied (modBank b (fun k =>
          { k with
            patterns := (List.range (64 * n)).foldl
              (fun t i => tabSet 0 t (64 * first + i) (BitVec.ofNat 32 (argW c (2 + i)))) k.patterns }) s)

def execPlanPatternWrite (mb fails : Nat) (s : State) : Result :=
  act (writeCommand 0x0301 mb fails planPatternWriteBody) s

/-- PLAN_MAP_WRITE (R312); an odd count is padded to a whole word (R603). -/
def planMapWriteBody (c : Cmd) (s : State) : Verdict :=
  let w := argW c 0
  let n := fld w 14 11 * 1024 + fld w 10 1
  lenIs c (8 + 4 * ((n + 1) / 2)) <|
    let b := planBankArg c
    let k := bankOf s b
    let first := fld w 31 17
    let asic := fld w 16 15
    argChecks [(0, n == 0 || decide (1536 < n) || (k.written && decide (92 * boltTurns k < first + n)))] <|
      check stPrecondition (!k.written) <|
      check stNotNow (bankClosed s b) <|
        applied (modBank b (fun k =>
          { k with
            map := (List.range n).foldl (fun t i =>
              tabSet 0x3FF t (asic * 2 ^ 15 + first + i) (ofLe ((c.args.drop (8 + 2 * i)).take 2) % 1024)) k.map }) s)

def execPlanMapWrite (mb fails : Nat) (s : State) : Result := act (writeCommand 0x0302 mb fails planMapWriteBody) s

/-! ### Sealing (R273, R308, R313) -/

/-- The bytes that LOCAL_DIGEST covers (R308). -/
def digestBytes (k : Bank) : List Byte :=
  leWords ((List.range 6).map (hdrW k)) ++
    leWords ((List.range (64 * patternCount k)).map fun i => (tabGet 0 k.patterns i).toNat) ++
    (List.range 4).flatMap fun a => (List.range (92 * boltTurns k)).flatMap fun i =>
      leBytes 2 (tabGet 0x3FF k.map (a * 2 ^ 15 + i))

def localDigestOf (k : Bank) : Nat := crc64 (digestBytes k)

/-- BORROW is allowed in a pitch of a kind (R272). -/
def borrowAllowed (kind pitch : Nat) : Bool := (kind == 0 && pitch != 0) || kind == 1 || kind == 2 || kind == 4

/-- The first pattern entry that a test names, as WHERE. -/
def entryFault (k : Bank) (p : Nat → Nat → Bool) : Option Nat :=
  (k.patterns.find? fun e => decide (e.1 < 64 * patternCount k) && p (e.1 % 64) e.2.toNat).map (·.1)

/-- The first port row that mixes 0x3FF and patterns: the entry unlike the row's turn 0. -/
def mixedRow (k : Bank) : Option Nat :=
  let b := boltTurns k
  (List.range (4 * 92)).findSome? fun r =>
    let at' := fun t => (r / 92) * 2 ^ 15 + (r % 92) * b + t
    let out := fun t => tabGet 0x3FF k.map (at' t) == 0x3FF
    ((List.range b).find? fun t => out t != out 0).map at'

/-- The first error of a bank, in the order of the table, with WHERE (R313). -/
def sealError (k : Bank) : Nat × Nat :=
  let checks : List (Nat × Option Nat) :=
    [(1, if fld (hdrW k 0) 31 24 != 1 then some 0 else none),
     (2, if boltTurns k == 0 || decide (256 < boltTurns k) then some 0 else none),
     (3, if patternCount k == 0 then some 0 else none),
     (4, entryFault k fun _ e => kindOf e == 7),
     (5, entryFault k fun i e => i == 0 && (kindOf e != 0 || borrowOf e)),
     (6, entryFault k fun i e => borrowOf e && !borrowAllowed (kindOf e) i),
     (7, entryFault k fun _ e => (wgroupOf e != 0 && kindOf e != 2) || fld e 19 6 != 0 || bit e 3),
     (8, (k.map.find? fun e => decide (patternCount k ≤ e.2)).map (·.1)),
     (9, mixedRow k),
     (10, (k.map.find? fun e => !(asicMask k).testBit (e.1 / 2 ^ 15)).map (·.1)),
     (11, if localDigestOf k != localDigest k then some 0 else none)]
  match checks.find? fun c => c.2.isSome with
  | some (e, w) => (e, w.getD 0)
  | none => (0, 0)

/-- The 12-byte result of PLAN_SEAL (R313). -/
def sealResult (e wh digest : Nat) : List Byte := leWords [put 31 24 e + put 23 0 wh, digest % 2 ^ 32, digest / 2 ^ 32]

/-- PLAN_SEAL (R313); sealing a sealed bank changes nothing. -/
def planSealBody (c : Cmd) (s : State) : Verdict :=
    let b := planBankArg c
    let k := bankOf s b
    let d := localDigestOf k
    if c.len ≠ 4 then .refuse stBadArg 0xFFF (sealResult 0 0 d)
    else if bit (argW c 0) 1 then
      if s.plan.inForce == some b || (pendingSwap s).any (fun a => swapBank a == b) then
        .refuse stNotNow 0xFFF (sealResult 0 0 d)
      else .done stOk (sealResult 0 0 d) (modBank b (fun k => { k with sealed := false }) s)
    else if k.sealed then .done stOk (sealResult 0 0 d) s
    else
      let (e, wh) := sealError k
      if e = 0 then .done stOk (sealResult 0 0 d) (modBank b (fun k => { k with sealed := true }) s)
      else .refuse stBadArg 0xFFF (sealResult e wh d)

def execPlanSeal (mb fails : Nat) (s : State) : Result := act (writeCommand 0x0303 mb fails planSealBody) s

/-! ### Swapping (R287, R303, R314) -/

/-- A withdrawal of the unit, or of one that contains it, is pending at a turn (R303). -/
def leaving (s : State) (u turn : Nat) : Bool :=
  let out := fun v => schedTaken .withdraw v turn s
  out u || out trayUnit || (uKind u == 0 && (out (asicUnit (uAsic u)) || out (cartUnit (bayOf (uAsic u) (uPort u))))) ||
    (uKind u == 1 && out (asicUnit (uBay u / 4)))

/-- The exclusion check of R303 fails: the plan excludes a unit that is ADMITTED and does not leave at the turn. -/
def excludesAdmitted (s : State) (k : Bank) (turn : Nat) : Bool :=
  let units := ((List.range 4).flatMap fun a => asicUnit a :: asicPorts a) ++ (List.range 16).map cartUnit
  units.any fun u => unitState s u == 4 && !includesUnit s k u && !leaving s u turn

/-- PLAN_SWAP (R287, R314). -/
def planSwapBody (c : Cmd) (s : State) : Verdict :=
  lenIs c 12 <|
    let b := planBankArg c
    let k := bankOf s b
    let turn := argTurn c 1
    if bit (argW c 0) 1 then
      match pendingSwap s with
      | none => .refuse stNotNow 0xFFF []
      | some a => applied (schedCancel a s)
    else
      argChecks [(4, turnTooFar turn s)] <|
        check stPrecondition (untimed s || !k.sealed || !boltAt k turn ||
            (planNow s).any (fun n => !boltAt n turn) || excludesAdmitted s k turn) <|
        check stNotNow (turnTooNear turn s || (pendingSwap s).isSome || s.plan.inForce == some b) <|
        check stNoRoom (schedFull s) (applied (schedAdd ⟨.planSwap, 0, turn, 0x0304, false, .plan b⟩ s))

def execPlanSwap (mb fails : Nat) (s : State) : Result := act (writeCommand 0x0304 mb fails planSwapBody) s

/-! ### Status (R315, R316) -/

/-- PLAN_STATUS_GET's words (R315); with no plan in force IN_FORCE reads 0 and SEALED_OTHER reports bank B. -/
def planWords (s : State) : List Nat :=
  let f := s.plan.inForce
  let k := (planNow s).getD {}
  let sw := pendingSwap s
  let turn := sw.elim 0 (·.turn)
  let pd := sw.elim 0 fun a => domainDigest (bankOf s (swapBank a))
  [put 31 24 s.plan.lastRefuse + put 16 8 (boltTurns k) + put 4 4 (bankOf s (!(f.getD false))).sealed.toNat +
     put 3 3 (s.tray.st == .unscheduled).toNat + put 2 2 sw.isSome.toNat + put 1 1 f.isNone.toNat + put 0 0 (f.getD false).toNat,
   put 23 16 (if boltTurns k = 0 then 0 else s.reel.turn % boltTurns k) + put 15 0 (turn / 2 ^ 32), turn % 2 ^ 32, planId k,
   domainDigest k % 2 ^ 32, domainDigest k / 2 ^ 32, pd % 2 ^ 32, pd / 2 ^ 32]

def planStatusGetBody (c : Cmd) (s : State) : Verdict := lenIs c 0 (report (planWords s) s)

def execPlanStatusGet (mb fails : Nat) (s : State) : Result := act (readCommand 0x0305 mb fails planStatusGetBody) s

/-- PLAN_CONFORM_GET's words (R316). -/
def conformWords (s : State) (u : Nat) : List Nat :=
  let w := fun n k => sat n (windowed s (planCtr u k))
  [w 32 0, w 32 1, w 32 2, w 32 3, w 32 4, put 31 16 (w 16 5) + put 15 0 (w 16 6), w 32 7]

def planConformGetBody (c : Cmd) (s : State) : Verdict :=
  lenIs c 4 <| argChecks [(0, paBadNoSide c)] <| report (conformWords s (paAsicEnd c)) s

def execPlanConformGet (mb fails : Nat) (s : State) : Result :=
  act (readCommand 0x0306 mb fails planConformGetBody) s

end Sys2Proof.Machine
end

