-- ==== Sys2Proof/Machine/Numbers.lean ====
section
/-! DEFINITION. Floating-point numbers by bits, exactly: the formats of R170 and R374, conversion with round to
nearest, ties to even, subnormals kept (R333, R374), and the sums, maxima, products and quotients built on it. -/

namespace Sys2Proof.Machine

open Sys2Proof

/-- A value of a format: not a number, an infinity, or ± m × 2^e. -/
inductive Num where
  | nan
  | inf (neg : Bool)
  | fin (neg : Bool) (m : Nat) (e : Int)
deriving DecidableEq, Repr

/-- A binary format: exponent and mantissa widths, and whether it has infinities (E4M3 has none). -/
structure Fmt where
  ebits : Nat
  mbits : Nat
  infs : Bool
deriving DecidableEq, Repr

def fp32 : Fmt := ⟨8, 23, true⟩
def bf16 : Fmt := ⟨8, 7, true⟩
def fp16 : Fmt := ⟨5, 10, true⟩
def e4m3 : Fmt := ⟨4, 3, false⟩
def e5m2 : Fmt := ⟨5, 2, true⟩

/-- The exponent of the unit of a format's subnormals. -/
def Fmt.low (f : Fmt) : Int := 2 - (2 : Int) ^ (f.ebits - 1) - f.mbits

/-- The code of infinity, or for E4M3 the code of NaN. -/
def Fmt.top (f : Fmt) : Nat := if f.infs then (2 ^ f.ebits - 1) * 2 ^ f.mbits else 2 ^ (f.ebits + f.mbits) - 1

/-- The value of a code. -/
def numOf (f : Fmt) (w : Nat) : Num :=
  let c := w % 2 ^ (f.ebits + f.mbits)
  let neg := w.testBit (f.ebits + f.mbits)
  let mant := c % 2 ^ f.mbits
  let ex := c / 2 ^ f.mbits
  if c = f.top && f.infs then .inf neg
  else if f.top ≤ c then .nan
  else if ex = 0 then .fin neg mant f.low
  else .fin neg (mant + 2 ^ f.mbits) (f.low + (ex : Int) - 1)

/-- m ÷ 2^k to the nearest whole number, ties to even. -/
def rneShift (m k : Nat) : Nat :=
  let q := m / 2 ^ k
  let r := m % 2 ^ k
  if 2 ^ k < 2 * r || (2 * r == 2 ^ k && q % 2 == 1) then q + 1 else q

/-- The code, without sign, of m × 2^e rounded to a format as if its exponent had no upper end. -/
def magCode (f : Fmt) (m : Nat) (e : Int) : Nat :=
  if m = 0 then 0
  else
    let q := max ((Nat.log2 m : Int) + e - f.mbits) f.low
    let r := if q ≤ e then m * 2 ^ (e - q).toNat else rneShift m (q - e).toNat
    (q - f.low).toNat * 2 ^ f.mbits + r

/-- The sign bit of a format. -/
def signBit (f : Fmt) (neg : Bool) : Nat := neg.toNat * 2 ^ (f.ebits + f.mbits)

/-- A value in a format (R333): E4M3 saturates to ±448; `sat` saturates the others to their largest finite value. -/
def encNum (f : Fmt) (sat : Bool) : Num → Nat
  | .nan => if f.infs then f.top + 2 ^ (f.mbits - 1) else f.top
  | .inf neg => signBit f neg + (if f.infs && !sat then f.top else f.top - 1)
  | .fin neg m e =>
    let c := magCode f m e
    signBit f neg + (if c < f.top then c else if f.infs && !sat then f.top else f.top - 1)

/-- Signed mantissa of a finite value at an exponent not above its own. -/
def scaled (neg : Bool) (m : Nat) (e low : Int) : Int :=
  let v : Int := (m * 2 ^ (e - low).toNat : Nat)
  if neg then -v else v

/-- The exact sum; +0 and −0 give +0 (R333). -/
def addNum : Num → Num → Num
  | .nan, _ => .nan
  | _, .nan => .nan
  | .inf a, .inf b => if a = b then .inf a else .nan
  | .inf a, .fin _ _ _ => .inf a
  | .fin _ _ _, .inf b => .inf b
  | .fin a m e, .fin b n d =>
    let low := min e d
    let v := scaled a m e low + scaled b n d low
    .fin (if v = 0 then a && b else decide (v < 0)) v.natAbs low

/-- a ≤ b among numbers, −0 before +0. -/
def leNum : Num → Num → Bool
  | .inf a, .inf b => a || !b
  | .inf a, _ => a
  | _, .inf b => !b
  | .fin a m e, .fin b n d =>
    let low := min e d
    let x := scaled a m e low
    let y := scaled b n d low
    if x = y then a || !b else decide (x < y)
  | _, _ => true

/-- The larger or the smaller of two values; a NaN wins (R333). -/
def pickNum (larger : Bool) (a b : Num) : Num :=
  match a, b with
  | .nan, _ => .nan
  | _, .nan => .nan
  | a, b => if leNum a b == larger then b else a

/-- The exact product. -/
def mulNum : Num → Num → Num
  | .fin a m e, .fin b n d => .fin (a != b) (m * n) (e + d)
  | _, _ => .nan

/-- The quotient of finite values to 64 further bits with a sticky bit below, which RNE to FP32 rounds as it
would the exact quotient. -/
def divNum : Num → Num → Num
  | .fin a m e, .fin b n d =>
    if n = 0 then .nan
    else .fin (a != b) (2 * (m * 2 ^ 64 / n) + (if m * 2 ^ 64 % n = 0 then 0 else 1)) (e - d - 65)
  | .inf a, .fin b _ _ => .inf (a != b)
  | _, _ => .nan

/-! ### The formats of TWINE (R170, R325, R333) -/

/-- Bytes of an element (R325). -/
def elemBytes (tfmt : Nat) : Nat := if tfmt = 0 ∨ tfmt = 5 then 4 else if tfmt ≤ 2 then 2 else 1

/-- The floating-point format of a TFMT. -/
def tfmtOf (tfmt : Nat) : Fmt :=
  match tfmt with
  | 0 => fp32
  | 1 => bf16
  | 2 => fp16
  | 3 => e4m3
  | _ => e5m2

/-- An input element in the accumulator: exact; a NaN becomes the canonical NaN (R332, R333). -/
def intoAcc (tfmt w : Nat) : BitVec 32 :=
  if tfmt = 5 then BitVec.ofNat 32 w else BitVec.ofNat 32 (encNum fp32 false (numOf (tfmtOf tfmt) w))

/-- An accumulator as an output element (R333). -/
def outOfAcc (tfmt : Nat) (a : BitVec 32) : Nat :=
  if tfmt = 5 then a.toNat else encNum (tfmtOf tfmt) false (numOf fp32 a.toNat)

/-- An input combined with the accumulator (R332, R333): OP 1 sum, 2 maximum, 3 minimum. -/
def combine (op tfmt : Nat) (a b : BitVec 32) : BitVec 32 :=
  if tfmt = 5 then
    if op = 1 then a + b
    else if op = 2 then (if a.slt b then b else a)
    else (if b.slt a then b else a)
  else
    let x := numOf fp32 a.toNat
    let y := numOf fp32 b.toNat
    BitVec.ofNat 32 (encNum fp32 false (if op = 1 then addNum x y else pickNum (op == 2) x y))

/-- The elements of a payload (R325). -/
def elements (tfmt : Nat) (bs : List Byte) : List Nat :=
  let n := elemBytes tfmt
  (List.range (bs.length / n)).map fun j => ofLe ((bs.drop (n * j)).take n)

end Sys2Proof.Machine
end

