-- ==== Sys2Proof/Machine/Collectives.lean ====
section
/-! DEFINITION. Twine collectives (08_collectives.md): groups and their sets, instances and chunks, accumulation,
protection, tally, outputs and their resend, failure, abandonment, and the collective commands. -/

namespace Sys2Proof.Machine

open Sys2Proof

/-! ### Frames and groups (R170, R318 to R322) -/

def twTfmt (f : Frame) : Nat := fld f.w3.toNat 11 8
def twOp (f : Frame) : Nat := fld f.w3.toNat 7 4
def twTree (f : Frame) : Nat := fld f.w3.toNat 3 3
def twDir (f : Frame) : Nat := fld f.w3.toNat 2 2
def twProt (f : Frame) : Bool := bit f.w3.toNat 1
def twLast (f : Frame) : Bool := bit f.w3.toNat 0
def twMember (f : Frame) : Nat := fld f.w4.toNat 11 0
def twPart (f : Frame) : Nat := fld f.w5.toNat 7 4
def twPartsM1 (f : Frame) : Nat := fld f.w5.toNat 3 0
def twContrib (f : Frame) : Nat := fld f.w7.toNat 31 20

def keyGroup (key : Nat) : Nat := key / 2 ^ 24
def keyInstance (key : Nat) : Nat := key % 2 ^ 16

def groupOf (s : State) (n : Nat) : Group := tabGet {} s.twine.groups n
def instOf (s : State) (key : Nat) : Coll := tabGet {} s.twine.insts key

def modInst (key : Nat) (f : Coll → Coll) (s : State) : State :=
  modTwine (fun t => { t with insts := tabMod {} t.insts key f }) s

/-- The position of a tree's root (R321): the S-tree is tree 0, the Z-tree tree 1. -/
def rootPosition (g : Group) (tree : Nat) : Nat := if tree = 0 then 0 else g.trays.length - 1

/-- The neighbour on the side of the S-tree's root, or of the Z-tree's. -/
def towards (g : Group) (tree : Nat) : Option Nat :=
  if tree = 0 then (if 0 < g.pos then some (g.pos - 1) else none)
  else if g.pos + 1 < g.trays.length then some (g.pos + 1) else none

/-- The parent and the child of this tray on a tree (R321). -/
def parentOf (g : Group) (tree : Nat) : Option Nat := towards g tree
def childOf (g : Group) (tree : Nat) : Option Nat := towards g (1 - tree)

def isRootOf (g : Group) (tree : Nat) : Bool := g.pos == rootPosition g tree

/-- The HC-8 EID of a position, and its sender code. -/
def trayEid (g : Group) (p : Nat) : Nat := 0xC00 + g.trays.getD p 0
def traySender (g : Group) (p : Nat) : Nat := 0x1000 + g.trays.getD p 0

/-- The sender of a frame: a member, or 0x1000 + tray for an HC-8. -/
def senderOf (f : Frame) : Nat := if f.src < 0xC00 then twMember f else 0x1000 + (f.src - 0xC00)

/-- The chunk size (R324). -/
def chunkBytes (g : Group) : Nat := 256 * 2 ^ g.chunkLog

/-- An abandonment marker (R345). -/
def isMarker (f : Frame) : Bool :=
  f.cls == 1 && f.len32 == 0 && twDir f == 1 && twLast f && twMember f == 0xFFF && chunkOf f == 0xFFFFFF &&
    f.w5.toNat % 256 == 0

/-! ### Checks on arrival (R340, R341) -/

/-- Reasons 2 and 3: (f − e) mod 256 (R341). -/
def epochFault (g : Group) (f : Frame) : Nat :=
  let d := (fld f.w3.toNat 19 12 + 256 - g.gepoch) % 256
  if d = 0 then 0 else if d < 128 then 3 else 2

/-- The sender that R327 to R329 names for the frame's TREE and DIR, or a local member at its EID. -/
def senderNamed (g : Group) (c : Coll) (f : Frame) : Bool :=
  let t := twTree f
  let from' := fun (p : Option Nat) => match p with | some p => f.src == trayEid g p | none => false
  if f.src < 0xC00 then g.locals.contains (twMember f, f.src)
  else if isMarker f then from' (towards g 0) || from' (towards g 1)
  else if 0 < twOp f then twDir f == 0 && from' (childOf g t)
  else if twDir f = 1 then from' (parentOf g t)
  else isRootOf g t && (c.st == .free || (c.source == 0xFFF && (c.home.isNone || c.home == some f.src))) &&
    (List.range g.trays.length).any fun p => p != g.pos && f.src == trayEid g p

def chunkAt (c : Coll) (idx : Nat) : Option Chunk := c.chunks.find? fun k => k.idx == idx

/-- The length and PARTS_M1 of R324, and the sizes that the chunk's earlier frames fixed. -/
def lengthOk (g : Group) (c : Coll) (f : Frame) : Bool :=
  let bytes := 32 * f.len32
  let m := twPartsM1 f
  let whole := chunkBytes g
  let parts := ceilDiv whole 4096
  let size :=
    decide (twPart f ≤ m) && (if twLast f then decide (m < parts) else m + 1 == parts) &&
      (if twPart f < m then bytes == 4096
       else if twLast f then decide (32 ≤ bytes) && decide (bytes ≤ 4096) && decide (4096 * m + bytes ≤ whole)
       else bytes == whole - 4096 * m)
  size && match chunkAt c (chunkOf f) with
    | some k => k.partsM1 == m && (k.lastLen == 0 || twPart f != m || k.lastLen == bytes)
    | none => true

/-- LAST as R326 has it: on the chunk that ends the instance and on no other. -/
def lastOk (c : Coll) (f : Frame) : Bool :=
  let i := chunkOf f
  (match chunkAt c i with | some k => k.last == twLast f | none => true) &&
    (if c.count = 0 then !twLast f || c.chunks.all fun k => decide (k.idx ≤ i) else twLast f == (i + 1 == c.count))

/-- Reason 5. -/
def conflicts (g : Group) (c : Coll) (f : Frame) : Bool :=
  (c.st != .free && (c.op != twOp f || c.tfmt != twTfmt f || c.prot != twProt f ||
      (twOp f == 0 && decide (f.src < 0xC00) && c.source != twMember f))) ||
    twTree f != chunkOf f % 2 || !lengthOk g c f || (c.count != 0 && decide (c.count ≤ chunkOf f)) || !lastOk c f ||
    (g.requireChunk && !twProt f)

/-- Reasons 1 to 8 of R340, the first that holds; 0 for none. -/
def arrivalFault (s : State) (f : Frame) : Nat :=
  let g := groupOf s (keyGroup (twineKey f))
  let c := instOf s (twineKey f)
  if !g.valid then 1
  else if epochFault g f ≠ 0 then epochFault g f
  else if !senderNamed g c f then 4
  else if !isMarker f && conflicts g c f then 5
  else if (match chunkAt c (chunkOf f) with | some k => k.got.contains (senderOf f, twPart f) | none => false) then 6
  else if !isMarker f && (c.failed.contains (senderOf f) || c.st == .abandoned ||
      (match chunkAt c (chunkOf f) with | some k => k.done | none => false)) then 7
  else if c.st = .closed then 7
  else if c.st = .free ∧ 16384 ≤ s.twine.insts.length then 8
  else 0

/-- A frame is discarded under a reason (R340, R359, R360). -/
def collDiscard (reason : Nat) (s : State) : State :=
  raiseOnce (eventKey 0x0402 + reason) 0x0402 [iCause reason]
    (count (collCtr (reason - 1)) 1 (modTwine (fun t => { t with discards := tabMod 0 t.discards reason fun n => sat 32 (n + 1) }) s))

/-! ### Outputs (R328, R329, R347) -/

/-- The class words and payload of a frame that the tray sends for an instance. -/
def twineFrame (key : Nat) (c : Coll) (k : Chunk) (dir part contrib ccrc dst : Nat) (payload : List Byte) : Frame :=
  { dst := dst, src := 0, cls := 1, chan := c.grp.chan, len32 := payload.length / 32
    w3 := BitVec.ofNat 32 (put 31 12 (key / 2 ^ 16) + put 11 8 c.tfmt + put 7 4 c.op + put 3 3 (k.idx % 2) + put 2 2 dir +
      put 1 1 c.prot.toNat + put 0 0 k.last.toNat)
    w4 := BitVec.ofNat 32 (put 31 16 (keyInstance key) + 0xFFF)
    w5 := BitVec.ofNat 32 (put 31 8 k.idx + put 7 4 part + put 3 0 k.partsM1)
    w6 := BitVec.ofNat 32 ccrc, w7 := BitVec.ofNat 32 (put 31 20 contrib), payload := payload }

/-- An abandonment marker for a target (R345). -/
def markerFrame (key : Nat) (c : Coll) (dst : Nat) : Frame :=
  twineFrame key { c with prot := false } { idx := 0xFFFFFF, last := true } 1 0 0 0 dst []

/-- The frame as it leaves this tray. -/
def asOwn (s : State) (f : Frame) : Frame := { f with src := ownEid s }

/-- Originate one frame of an output chunk and keep it with its FLOW_SEQ (R347). -/
def sendKept (key : Nat) (f : Frame) (s : State) : State :=
  let f := asOwn s f
  modInst key (keepFrame { f with flowSeq := flowNext s f.dst f.chan }) (hc8Post f s)

/-- The frames of an output chunk for a target: payloads and contributor counts by part. -/
def outFrames (key : Nat) (c : Coll) (k : Chunk) (dir dst : Nat) (parts : List (List Byte × Nat)) : List Frame :=
  let ccrc := if c.prot then crc32c (parts.flatMap (·.1)) else 0
  (parts.zip (List.range parts.length)).map fun x => twineFrame key c k dir x.2 x.1.2 ccrc dst x.1.1

/-- A replicated frame to a set is on its way: queued for a controller port, sent and not acknowledged, or received and
not yet replicated. -/
def setBusy (s : State) (n : Nat) : Bool :=
  let names := fun (f : Frame) => f.dst == ownEid s && f.src == ownEid s && f.pathSeq == n && f.cls != 0
  (s.fwd.queues.any fun e => uSide (e.1 / 8) == 1 && e.2.any fun q => names q.f) ||
    s.links.any fun e => (e.2.unacked.any fun x => names x.q.f) || (e.2.waiting.any fun q => names q.f) ||
      e.2.arrived.any fun x => names x.f

/-- A set brought to some targets: as it is loaded, or released and loaded again (R197) while no frame to it is on its
way; none where that cannot be. -/
def setFor (n chan : Nat) (eids : List Nat) (s : State) : Option State :=
  let r := replSet s (homeOf s n) n
  if r.loaded && r.chan == chan && r.targets.map (·.1) == eids then some s
  else if setBusy s n then none
  else some (loadSet n chan eids (releaseSet n s))

/-- The tray's local members except a broadcast's source, set by set, through the group's sets (R329, R330). A set is
loaded without the source for its broadcast; while frames to its other targets are still on their way, and in a group
re-formed since, the members are addressed one by one (DESIGN CHOICE, log 206). -/
def deliver (key : Nat) (c : Coll) (frames : List Frame) (s : State) : State :=
  let g := c.grp
  let current := (groupOf s (keyGroup key)).valid && (groupOf s (keyGroup key)).gepoch == g.gepoch
  let slices := (List.range (ceilDiv g.locals.length 16)).map fun i =>
    (g.sets.getD i 0, ((g.locals.drop (16 * i)).take 16).filter fun m => m.1 != c.source)
  forAll slices (fun x s =>
    if x.2.isEmpty then s
    else match (if current then setFor x.1 g.chan (x.2.map (·.2)) s else none) with
      | some s => forAll frames (fun f s => (sendReplicated (List.range 4) x.1 (asOwn s f) s).2) s
      | none => forAll x.2 (fun m => forAll frames fun f => sendKept key { f with dst := m.2 }) s) s

/-- The smallest CONTRIB sent (R357). -/
def noteContrib (key : Nat) (parts : List (List Byte × Nat)) (s : State) : State :=
  modInst key (fun c => { c with
    minContrib := parts.foldl (fun m p => some (min (m.getD p.2) p.2)) c.minContrib }) s

/-- A chunk of the instance is changed. -/
def modChunk (key idx : Nat) (f : Chunk → Chunk) (s : State) : State :=
  modInst key (fun c => { c with chunks := c.chunks.map fun k => if k.idx = idx then f k else k }) s

/-! ### Scratch (R348, R349) -/

/-- The uses of scratch pages: the accumulator, a sender's staging, kept output, tally entries. -/
def useAcc : Nat := 0
def useStage (sender : Nat) : Nat := 1 + sender
def useKept : Nat := 0x10000
def useTally : Nat := 0x10001

/-- Take a scratch page for each use listed; none where the region has no free page. -/
def takePages (key idx : Nat) : List Nat → State → Option State
  | [], s => some s
  | u :: t, s =>
    match scratchPagePick s with
    | none => none
    | some (p, place) =>
      takePages key idx t (modChunk key idx (fun k => { k with scratch := k.scratch ++ [(u, p)] })
        (modTwine (fun w => { w with pointer := place }) s))

/-- The pages that a frame of a chunk still needs: the accumulator of a reduce, staging of a chunk that waits for
its last part, and the page that the next tally entry opens. -/
def pagesNeeded (c : Coll) (k : Chunk) (f : Frame) : List Nat :=
  let has := fun u => k.scratch.any fun p => p.1 == u
  let entries := 4096 * (k.partsM1 + 1) / elemBytes c.tfmt
  let acc := if 0 < c.op && !has useAcc then List.replicate (ceilDiv (4 * entries) 65536) useAcc else []
  let stage := if (c.prot || c.op == 0) && !has (useStage (senderOf f)) then [useStage (senderOf f)] else []
  let tally := if c.grp.tally && k.tally.length % 16384 == 0 &&
      (k.scratch.filter fun p => p.1 == useTally).length * 16384 ≤ k.tally.length then [useTally] else []
  acc ++ stage ++ tally

/-- The pages of a chunk for a use, in order. -/
def pagesFor (k : Chunk) (use : Nat) : List Nat := (k.scratch.filter fun p => p.1 == use).map (·.2)

/-- The accumulator page that holds a part: 4 bytes per element (R348). -/
def accPage (c : Coll) (k : Chunk) (part : Nat) : Option Nat := (pagesFor k useAcc)[part * (4096 / elemBytes c.tfmt) * 4 / 65536]?

/-- Bytes written to a page of scratch. -/
def scratchWrite (page : Option Nat) (bytes : Nat) (s : State) : State :=
  match page with
  | some p => poolIo true p bytes 1 s
  | none => s

/-- The chunk's output takes over a page that its accumulator or staging frees (R348). -/
def keepPage (k : Chunk) : Chunk :=
  let keep := k.scratch.filter fun p => p.1 == useTally || p.1 == useKept
  match k.scratch.find? fun p => p.1 != useTally && p.1 != useKept with
  | some p => { k with scratch := (useKept, p.2) :: keep }
  | none => { k with scratch := keep }

/-! ### Abandoning (R345, R352) -/

/-- Where an abandoning tray sends markers: its local members, its neighbours in the list but one, and, as the
root of a reduce, ROOT_EID. -/
def markerTargets (c : Coll) (but : Option Nat) : List Nat :=
  let g := c.grp
  let near := (([towards g 0, towards g 1].filterMap id).map (trayEid g)).filter fun e => some e != but
  let root := if 0 < c.op && (isRootOf g 0 || isRootOf g 1) then [g.rootEid] else []
  (g.locals.map (·.2) ++ near ++ root).eraseDups

/-- Causes of R357. -/
def causeTimeout : Nat := 1
def causeQuorum : Nat := 2
def causeMarker : Nat := 3
def causeEpoch : Nat := 4
def causeDriver : Nat := 5
def causeLost : Nat := 6
def causePool : Nat := 7

/-- An instance is abandoned with a cause (R345): markers sent, COLL_ABANDONED. -/
def abandon (key cause : Nat) (but : Option Nat) (s : State) : State :=
  let c := instOf s key
  if c.st = .free ∨ c.st = .abandoned then s
  else
    let s := modInst key (fun c => { c with st := .abandoned, cause := cause, stateAt := s.reel.bounds }) s
    let s := count (collCtr 11) 1 (modTwine (fun t => { t with abandoned := sat 32 (t.abandoned + 1) }) s)
    let s := raise 0x0401 [(12, keyGroup key), (16, keyInstance key), (4, cause)] s
    forAll (markerTargets c but) (fun e s => hc8Post (asOwn s (markerFrame key c e)) s) s

/-- Reads of scratch pages for an instance (R349): whether all are good; at a lasting failure the page is retired, the
instance abandoned, and the reads end. -/
def scratchReads (key : Nat) : List (Nat × Nat) → State → Bool × State
  | [], s => (true, s)
  | (page, bytes) :: t, s =>
    let (ok, s) := poolRead page bytes 1 s
    if ok then scratchReads key t s else (false, abandon key causePool none (retirePage page false s))

/-! ### Completion (R328, R329, R343, R352) -/

/-- The inputs of a chunk that are still wanted (R328, R329). -/
def wanted (c : Coll) (k : Chunk) : List Nat :=
  let g := c.grp
  let t := k.idx % 2
  let upper := fun (p : Option Nat) => if k.upFailed then [] else (p.map (traySender g)).toList
  let all :=
    if 0 < c.op then (g.locals.map (·.1)).filter (fun m => !c.failed.contains m) ++ upper (childOf g t)
    else
      let source := if c.source = 0xFFF then [] else [c.source]
      if isRootOf g t then (if c.source = 0xFFF then ((c.home.map fun e => 0x1000 + (e - 0xC00)).toList) else source)
      else source ++ upper (parentOf g t)
  all.filter fun x => !k.whole.contains x

/-- A free value spread over n bytes. -/
def freeBytes (n : Nat) (s : State) : List Byte × State :=
  let (v, s) := drawFree s
  (leBytes n v, s)

/-- The length of a part of a chunk (R324); a last part that no sender sent is taken at its full length. -/
def partLength (g : Group) (k : Chunk) (part : Nat) : Nat :=
  if part < k.partsM1 then 4096
  else if k.lastLen ≠ 0 then k.lastLen
  else if k.last then 32 else chunkBytes g - 4096 * k.partsM1

/-- The output payload of each part of a reduced chunk with its contributors (R333, R334); a part to which nothing
was added is a free value. -/
def reducedParts (c : Coll) (k : Chunk) (s : State) : List (List Byte × Nat) × State :=
  (List.range (k.partsM1 + 1)).foldl (fun (a : List (List Byte × Nat) × State) p =>
    let n := tabGet 0 k.contrib p
    match tabGet [] k.acc p with
    | [] =>
      let (bs, s) := freeBytes (partLength c.grp k p) a.2
      (a.1 ++ [(bs, n)], s)
    | acc => (a.1 ++ [(acc.flatMap fun x => leBytes (elemBytes c.tfmt) (outOfAcc c.tfmt x), n)], a.2)) ([], s)

/-- The instance has its chunk count and every chunk is done: OPEN becomes CLOSED (R352). -/
def closeCheck (key : Nat) (s : State) : State :=
  let c := instOf s key
  if c.st = .opened && c.count != 0 && (List.range c.count).all fun i =>
      (match chunkAt c i with | some k => k.done | none => false) then
    modInst key (fun c => { c with st := .closed, stateAt := s.reel.bounds }) s
  else s

/-- A reduced chunk is complete: its accumulators are read, and it goes as a partial to the parent, or as a result to
ROOT_EID (R328, R343). -/
def sendReduced (key : Nat) (k : Chunk) (s : State) : State :=
  let c := instOf s key
  let g := c.grp
  let t := k.idx % 2
  let (ok, s) := scratchReads key ((pagesFor k useAcc).map fun p => (p, 65536)) s
  let (parts, s) := reducedParts c k s
  if !ok then s
  else if isRootOf g t && parts.any fun p => decide (p.2 < max g.quorum 1) then abandon key causeQuorum none s
  else
    let (dir, dst) := match parentOf g t with | some p => (0, trayEid g p) | none => (1, g.rootEid)
    let s := modChunk key k.idx (fun k => keepPage { k with done := true, acc := [], staged := [] }) s
    let s := count (collCtr 12) 1 (scratchWrite (k.scratch.head?.map (·.2)) ((parts.map fun p => p.1.length).sum) (noteContrib key parts s))
    closeCheck key (forAll (outFrames key c k dir dst parts) (sendKept key) s)

/-- The chunk's inputs are all there, except those declared failed. -/
def completeReduce (key idx : Nat) (s : State) : State :=
  let c := instOf s key
  match chunkAt c idx with
  | some k => if c.st = .opened && !k.done && (wanted c k).isEmpty then sendReduced key k s else s
  | none => s

/-- A broadcast chunk from a sender moves on (R329): from the source's home a lift to the root; from the root or the
parent down to the child and to the local members. -/
def passBroadcast (key : Nat) (k : Chunk) (sender : Nat) (payloads : List (List Byte)) (s : State) : State :=
  let c := instOf s key
  let g := c.grp
  let t := k.idx % 2
  let parts := payloads.map fun p => (p, 1)
  let s := scratchWrite (k.scratch.head?.map (·.2)) ((payloads.map List.length).sum) (noteContrib key parts s)
  let s := modChunk key k.idx (fun k => keepPage { k with staged := k.staged.filter fun x => x.1 != sender }) s
  if sender < 0x1000 && !isRootOf g t then
    forAll (outFrames key c k 0 (trayEid g (rootPosition g t)) parts) (sendKept key) s
  else
    let s := match childOf g t with
      | some p => forAll (outFrames key c k 1 (trayEid g p) parts) (sendKept key) s
      | none => s
    let s := deliver key c (outFrames key c k 1 0 parts) s
    closeCheck key (modChunk key k.idx (fun k => { k with done := true }) s)

/-! ### Accumulation (R331 to R338) -/

/-- A part added to the accumulator (R332). -/
def addPart (c : Coll) (k : Chunk) (f : Frame) : Chunk :=
  let xs := (elements c.tfmt f.payload).map (intoAcc c.tfmt)
  let acc := match tabGet [] k.acc (twPart f) with
    | [] => xs
    | old => old.zipWith (combine c.op c.tfmt) xs
  let n := if f.src < 0xC00 then 1 else twContrib f
  { k with acc := tabSet [] k.acc (twPart f) acc, contrib := tabMod 0 k.contrib (twPart f) (· + n) }

/-- A tally entry (R338, R358). -/
def tallyEntry (s : State) (c : Coll) (f : Frame) : Nat :=
  put 31 20 (if f.src < 0xC00 then twMember f else 0xFFF) +
    put 19 12 (if f.src < 0xC00 then s.tray.number else f.src - 0xC00) + put 11 8 (if c.prot then 0 else twPart f)

/-- The sender's parts of a chunk are all there. -/
def senderWhole (k : Chunk) (sender : Nat) : Bool :=
  (List.range (k.partsM1 + 1)).all fun p => k.got.contains (sender, p)

/-- The staged frames of a sender in part order. -/
def stagedOf (k : Chunk) (sender : Nat) : List Frame :=
  sortBy (fun a b => decide (twPart a ≤ twPart b)) ((k.staged.filter fun x => x.1 == sender).map (·.2))

/-- The engine's input: counted and charged (R339, R450, R652). -/
def engineInput (bytes : Nat) (s : State) : State := chargePj 1 (10 * bytes) (count (collCtr 13) bytes s)

/-- A sender's chunk is there whole: CHUNK mode checks its CCRC first; then it is added or passed on. -/
def senderDone (key idx : Nat) (f : Frame) (s : State) : State :=
  let c := instOf s key
  let sender := senderOf f
  match chunkAt c idx with
  | none => s
  | some k =>
    if !senderWhole k sender then s
    else
      let fs := stagedOf k sender
      let bytes := fs.flatMap (·.payload)
      if c.prot && fs.any fun x => x.w6.toNat != crc32c bytes then
        collDiscard 10 (modChunk key idx (fun k =>
          { k with
            got := k.got.filter fun x => x.1 != sender, staged := k.staged.filter fun x => x.1 != sender
            scratch := k.scratch.filter fun x => x.1 != useStage sender }) s)
      else
        let (ok, s) := scratchReads key ((pagesFor k (useStage sender)).map fun p => (p, bytes.length)) s
        if !ok then s else
        let s := onlyIf (c.prot && c.grp.tally) (modChunk key idx fun k => { k with tally := k.tally ++ [tallyEntry s c f] }) s
        if c.op = 0 then
          passBroadcast key k sender (fs.map (·.payload)) (modChunk key idx (fun k => { k with whole := k.whole ++ [sender] }) s)
        else
          let s := if c.prot then
              engineInput bytes.length (modChunk key idx (fun k =>
                let k := fs.foldl (addPart c) k
                { k with
                  staged := k.staged.filter fun x => x.1 != sender
                  scratch := k.scratch.filter fun x => x.1 != useStage sender }) s)
            else s
          completeReduce key idx (modChunk key idx (fun k => { k with whole := k.whole ++ [sender] }) s)

/-- The context of a key, opened by its first frame (R323). -/
def openInst (key : Nat) (f : Frame) (s : State) : State :=
  if (instOf s key).st = .free then
    let c : Coll :=
      { st := .opened, grp := groupOf s (keyGroup key), op := twOp f, tfmt := twTfmt f, prot := twProt f
        source := if twOp f = 0 then (if f.src < 0xC00 then twMember f else 0xFFF) else 0
        idleAt := s.reel.bounds, stateAt := s.reel.bounds }
    let s := count (collCtr 10) 1 (modTwine (fun t => { t with insts := tabSet {} t.insts key c }) s)
    modTwine (fun t => { t with peak := max t.peak t.insts.length }) s
  else s

/-- The chunk of a frame, its sizes, the instance's count and the sender's part noted (R324, R326, R340). -/
def noteFrame (key : Nat) (f : Frame) (s : State) : State :=
  let idx := chunkOf f
  modInst key (fun c =>
    let c := if (chunkAt c idx).isSome then c
      else { c with chunks := c.chunks ++ [{ idx := idx, last := twLast f, partsM1 := twPartsM1 f }] }
    { c with
      idleAt := s.reel.bounds
      count := if twLast f && c.count == 0 then idx + 1 else c.count
      home := if twOp f = 0 ∧ 0xC00 ≤ f.src ∧ twDir f = 0 then some f.src else c.home
      chunks := c.chunks.map fun k => if k.idx = idx then
        { k with
          got := k.got ++ [(senderOf f, twPart f)]
          lastLen := if twPart f = k.partsM1 then 32 * f.len32 else k.lastLen } else k }) s

/-- An accepted frame: accumulated at its arrival (LINK), or staged until its sender's chunk is whole. -/
def twineAccept (f : Frame) (s : State) : State :=
  let key := twineKey f
  let idx := chunkOf f
  let t := noteFrame key f (openInst key f s)
  let c := instOf t key
  match chunkAt c idx with
  | none => s
  | some k =>
    match takePages key idx (pagesNeeded c k f) t with
    | none => collDiscard 9 s
    | some s =>
      let c := instOf s key
      let k := (chunkAt c idx).getD k
      if 0 < c.op && !c.prot then
        let page := accPage c k (twPart f)
        let bytes := 4 * (32 * f.len32 / elemBytes c.tfmt)
        let (ok, s) := scratchReads key (if (tabGet [] k.acc (twPart f)).isEmpty then [] else page.toList.map fun p => (p, bytes)) s
        if !ok then s else
        let s := scratchWrite page bytes (engineInput (32 * f.len32) s)
        let s := modChunk key idx (fun k => addPart c k f) s
        let s := onlyIf c.grp.tally (modChunk key idx fun k => { k with tally := k.tally ++ [tallyEntry s c f] }) s
        senderDone key idx f s
      else
        let s := scratchWrite (pagesFor k (useStage (senderOf f))).head? (32 * f.len32)
          (modChunk key idx (fun k => { k with staged := k.staged ++ [(senderOf f, f)] }) s)
        let s := onlyIf (!c.prot && c.grp.tally)
          (modChunk key idx fun k => { k with tally := k.tally ++ [tallyEntry s c f] }) s
        senderDone key idx f s

/-- A frame of an open instance restarts its idle count (R342). -/
def noteArrival (f : Frame) (s : State) : State :=
  if (instOf s (twineKey f)).st = .opened then modInst (twineKey f) (fun c => { c with idleAt := s.reel.bounds }) s else s

/-- TWINE_ARRIVAL (R340): a TWINE frame at the HC-8 that is no marker. -/
def twineArrive (f : Frame) (s : State) : State :=
  let r := arrivalFault s f
  let s := noteArrival f s
  if r ≠ 0 then collDiscard r s else twineAccept f s

def execTwineArrival (ifc : Nat) (reads : List Nat) (s : State) : Result :=
  act (withReads reads (hc8Take ifc (fun f => f.cls == 1 && !isMarker f) twineArrive)) s

/-- ABANDONMENT_MARKER (R345): further markers for a key are ignored. -/
def markerArrive (f : Frame) (s : State) : State :=
  let key := twineKey f
  let r := arrivalFault s f
  if (instOf s key).st = .abandoned && (r == 0 || 5 ≤ r) then s
  else if r ≠ 0 then collDiscard r s
  else abandon key causeMarker (some f.src) (openInst key f s)

def execAbandonmentMarker (ifc : Nat) (s : State) : Result := act (hc8Take ifc isMarker markerArrive) s

/-! ### Slow and failed members (R342 to R344, R352) -/

def idleTurns (s : State) (c : Coll) : Nat := s.reel.bounds - c.idleAt

/-- The chunks that are not complete: those begun, those below N, and, with N unknown, the next one. -/
def incomplete (c : Coll) : List Chunk :=
  let n := if c.count = 0 then (c.chunks.foldl (fun m k => max m (k.idx + 1)) 0) + 1 else c.count
  (List.range n).filterMap fun i => match chunkAt c i with
    | some k => if k.done then none else some k
    | none => some { idx := i }

/-- The local members that some incomplete chunk misses (R342); a broadcast expects only its source. -/
def missingMembers (c : Coll) : List Nat :=
  ((incomplete c).flatMap fun k => (wanted c k).filter (· < 0x1000)).eraseDups

/-- A chunk that the instance owes and of which no frame has come (R324). -/
def ensureChunk (key idx : Nat) (s : State) : State :=
  modInst key (fun c => if (chunkAt c idx).isSome then c else
    { c with chunks := c.chunks ++
        [{ idx := idx, last := idx + 1 == c.count, partsM1 := ceilDiv (chunkBytes c.grp) 4096 - 1 }] }) s

/-- The chunks that the instance is known to have: those below N, or below one that has begun. -/
def knownChunks (c : Coll) : Nat := if c.count = 0 then c.chunks.foldl (fun m k => max m (k.idx + 1)) 0 else c.count

/-- An incomplete chunk that waits for nobody, its members having failed before it began. -/
def waitsForNone (c : Coll) : Bool :=
  0 < c.op && (incomplete c).any fun k => decide (k.idx < knownChunks c) && (wanted c k).isEmpty

/-- COLL_TIMEOUT (R342, R343). -/
def execCollTimeout (inst : Reading) (s : State) : Result :=
  let key := inst.item
  act (withReads inst.reads fun s =>
    let c := instOf s key
    let missing := missingMembers c
    if c.st = .opened && decide (c.grp.timeout ≤ idleTurns s c) && (!missing.isEmpty || waitsForNone c) then
      let s := modInst key (fun c => { c with failed := c.failed ++ missing }) s
      let s := forAll missing (fun m => raiseOnce (eventKey 0x0400 + keyGroup key * 4096 + m) 0x0400
        [(12, keyGroup key), (16, keyInstance key), (12, m)]) s
      if c.grp.onFail && 0 < c.op then
        forAll (((incomplete c).map (·.idx)).filter fun i => decide (i < knownChunks c))
          (fun i s => completeReduce key i (ensureChunk key i s)) s
      else abandon key causeTimeout none s
    else s) s

/-- The trays that a tree's data passes before this tray (R344): upward for a reduce, downward for a broadcast. -/
def traysBefore (c : Coll) (tree : Nat) : Nat :=
  let g := c.grp
  let below := g.trays.length - 1 - g.pos
  if 0 < c.op then (if tree = 0 then below else g.pos)
  else if isRootOf g tree then 1
  else if tree = 0 then g.pos else below

/-- The chunk waits for another tray's data. -/
def waitsUpstream (c : Coll) (k : Chunk) : Bool :=
  !k.done && ((wanted c k).any (0x1000 ≤ ·) || (c.op == 0 && isRootOf c.grp (k.idx % 2) && c.source == 0xFFF && c.home.isNone))

/-- UPSTREAM_WAIT_END (R344). -/
def execUpstreamWaitEnd (key : Nat) (chunk : Reading) (s : State) : Result :=
  let idx := chunk.item
  act (withReads chunk.reads fun s =>
    let c := instOf s key
    match (incomplete c).find? fun k => k.idx == idx with
    | none => s
    | some k =>
      if c.st = .opened && waitsUpstream c k && decide (c.grp.timeout * (traysBefore c (idx % 2) + 1) ≤ idleTurns s c) then
        (if c.grp.onFail && 0 < c.op then
          completeReduce key idx (modChunk key idx (fun k => { k with upFailed := true }) (ensureChunk key idx s))
         else abandon key causeTimeout none s)
      else s) s

/-- CONTEXT_FREE: TIMEOUT turns in CLOSED or ABANDONED free the context, scratch and tally (R352). -/
def execContextFree (key : Nat) (s : State) : Result :=
  act (fun s =>
    let c := instOf s key
    if (c.st == .closed || c.st == .abandoned) && decide (c.stateAt + c.grp.timeout ≤ s.reel.bounds) then
      modTwine (fun t => { t with insts := tabSet {} t.insts key {} }) s
    else s) s

/-- A kept chunk is named by a loss notice (R347): its page is read and the named frames go once more; a second notice
for the chunk, or one for a chunk no longer kept, abandons the instance. -/
def keptLost (key : Nat) (k : Kept) (named : Frame → Bool) (s : State) : State :=
  if 0 < k.notices || k.gone then abandon key causeLost none s
  else
    let page := (chunkAt (instOf s key) k.chunk).elim none fun c => (pagesFor c useKept).head?
    let again := k.frames.filter named
    let s := modInst key (fun c => { c with kept := c.kept.map fun x => if x.chunk = k.chunk then { x with notices := 1 } else x }) s
    let (ok, s) := scratchReads key (page.toList.map fun p => (p, (again.map fun f => 32 * f.len32).sum)) s
    if ok then raise 0x0403 [(12, keyGroup key), (16, keyInstance key), (24, k.chunk)] (count (collCtr 14) 1 (forAll again hc8Resend s))
    else s

/-- A loss notice for a flow of the HC-8, among the kept outputs of instances (R347). -/
def collLost (dst chan : Nat) (named : Nat → Bool) (s : State) : State :=
  let it := fun (f : Frame) => f.chan == chan && named f.flowSeq
  forAll s.twine.insts (fun e s =>
    forAll (e.2.kept.filter fun k => k.dst == dst && k.frames.any it) (fun k => keptLost e.1 k it) s) s

/-- A pool half loses power (R349): every open instance with scratch in it is abandoned; the others no longer keep the
chunks that lay there (R347, R352). -/
def collHalfLost (half : Nat) (s : State) : State :=
  let lies := fun (k : Chunk) => k.scratch.any fun p => pageHalf p.2 == half
  let s := modTwine (fun t => { t with insts := t.insts.map fun e =>
    (e.1, { e.2 with kept := e.2.kept.map fun x =>
      { x with gone := x.gone || (chunkAt e.2 x.chunk).any lies } }) }) s
  forAll (s.twine.insts.filter fun e => e.2.st == .opened && e.2.chunks.any lies) (fun e => abandon e.1 causePool none) s

/-- Every open instance of a group is abandoned with a cause (R350). -/
def abandonGroup (n cause : Nat) (s : State) : State :=
  forAll (s.twine.insts.filter fun e => keyGroup e.1 == n && e.2.st == .opened) (fun e => abandon e.1 cause none) s

/-! ### GROUP_SET and GROUP_GET (R354 to R356) -/

/-- The tray list and the local members of an argument block. -/
def groupTrays (c : Cmd) : List Nat := (List.range (fld (argW c 3) 31 26 + 1)).map fun i => (c.args.getD (32 + i) 0).toNat
def groupLocals (c : Cmd) : List (Nat × Nat) :=
  (List.range (fld (argW c 3) 13 7)).map fun i => (fld (argW c (24 + i)) 31 20, fld (argW c (24 + i)) 19 8)

/-- The entry of an argument block (R354). -/
def groupArg (c : Cmd) : Group :=
  let w := argW c
  { valid := bit (w 0) 11, gepoch := fld (w 0) 19 12, onFail := bit (w 0) 10, tally := bit (w 0) 9
    requireChunk := bit (w 0) 8, chunkLog := fld (w 0) 3 0, members := fld (w 1) 31 20, rootMember := fld (w 1) 19 8
    quorum := fld (w 2) 31 20, rootEid := fld (w 2) 19 8, pos := fld (w 3) 25 20, rootPos := fld (w 3) 19 14
    chan := fld (w 3) 6 4, timeout := fld (w 4) 10 0, trays := groupTrays c, locals := groupLocals c }

/-- The checks of GROUP_SET's block (R354, R355). -/
def groupChecks (c : Cmd) (s : State) : List (Nat × Bool) :=
  let g := groupArg c
  let firstRepeat := fun (l : List Nat) => (List.range l.length).find? fun i => (l.take i).contains (l.getD i 0)
  [(0, decide (8 < g.chunkLog)),
   (4, g.members == 0 || decide (2304 < g.members) || decide (g.members ≤ g.rootMember)),
   (8, decide (g.members < g.quorum) || decide (0x8FF < g.rootEid)),
   (12, decide (g.trays.length ≤ g.pos) || decide (g.trays.length ≤ g.rootPos) || decide (72 < g.locals.length)),
   (16, g.timeout == 0 || decide (1024 < g.timeout)),
   (32 + g.pos / 4 * 4, g.trays.getD g.pos 0 != s.tray.number),
   (32 + ((firstRepeat g.trays).getD 0) / 4 * 4, (firstRepeat g.trays).isSome)] ++
    (List.range g.locals.length).map fun i =>
      let m := g.locals.getD i (0, 0)
      (96 + 4 * i, decide (g.members ≤ m.1) || ((g.locals.take i).map (·.1)).contains m.1 || decide (0x8FF < m.2))

/-- An instance of the group is OPEN. -/
def groupOpen (s : State) (n : Nat) : Bool := s.twine.insts.any fun e => keyGroup e.1 == n && e.2.st == .opened

/-- The entry takes effect (R330, R350): instances of the old epoch abandoned, old sets released, new sets loaded. -/
def groupApply (n : Nat) (g : Group) (sets : List Nat) (s : State) : State :=
  let old := groupOf s n
  let s := onlyIf (old.valid && (!g.valid || g.gepoch != old.gepoch)) (abandonGroup n causeEpoch) s
  let s := forAll old.sets releaseSet s
  let s := forAll (List.range sets.length) (fun i =>
    loadSet (sets.getD i 0) g.chan (((g.locals.drop (16 * i)).take 16).map (·.2))) s
  modTwine (fun t => { t with groups := tabSet {} t.groups n (if g.valid then { g with sets := sets } else {}) }) s

/-- GROUP_SET (R354, R355). -/
def groupSetBody (c : Cmd) (s : State) : Verdict :=
  lenIs c (96 + 4 * fld (argW c 3) 13 7) <|
    let n := fld (argW c 0) 31 20
    let g := groupArg c
    let old := groupOf s n
    let freed := modTwine (fun t => { t with groups := tabSet {} t.groups n { old with sets := [] } }) s
    let sets := if g.valid then freeSets freed (ceilDiv g.locals.length 16) else some []
    argChecks (groupChecks c s) <|
      check stNotNow (g.valid && old.valid && g.gepoch == old.gepoch && groupOpen s n) <|
      check stNoRoom sets.isNone (applied (groupApply n g (sets.getD []) s))

def execGroupSet (mb fails : Nat) (s : State) : Result := act (writeCommand 0x0400 mb fails groupSetBody) s

/-- An entry in the layout of R354. -/
def groupBytes (n : Nat) (g : Group) : List Byte :=
  if g.valid then
    leWords [put 31 20 n + put 19 12 g.gepoch + put 11 11 1 + put 10 10 g.onFail.toNat + put 9 9 g.tally.toNat +
        put 8 8 g.requireChunk.toNat + put 3 0 g.chunkLog,
      put 31 20 g.members + put 19 8 g.rootMember, put 31 20 g.quorum + put 19 8 g.rootEid,
      put 31 26 (g.trays.length - 1) + put 25 20 g.pos + put 19 14 g.rootPos + put 13 7 g.locals.length + put 6 4 g.chan,
      put 10 0 g.timeout, 0, 0, 0] ++
    ((List.range 64).map fun i => BitVec.ofNat 8 (g.trays.getD i 0)) ++
    leWords (g.locals.map fun m => put 31 20 m.1 + put 19 8 m.2)
  else zeros 96

/-- GROUP_GET (R356). -/
def groupGetBody (c : Cmd) (s : State) : Verdict :=
  lenIs c 4 <| let n := fld (argW c 0) 31 20
  .done stOk (groupBytes n (groupOf s n)) s

def execGroupGet (mb fails : Nat) (s : State) : Result := act (readCommand 0x0401 mb fails groupGetBody) s

/-! ### INSTANCE_GET, INSTANCE_ABANDON, TALLY_READ and COLL_STATUS_GET (R357 to R359) -/

/-- The key that words 0 and 1 name. -/
def instArg (c : Cmd) : Nat := fld (argW c 0) 31 12 * 2 ^ 16 + fld (argW c 1) 15 0

def cCode : CState → Nat
  | .free => 0 | .opened => 1 | .closed => 2 | .abandoned => 3

/-- INSTANCE_GET's words (R357). -/
def instWords (s : State) (c : Coll) : List Nat :=
  if c.st = .free then [0, 0, 0, 0, 0]
  else
    [put 31 28 (cCode c.st) + put 27 24 c.cause + put 23 20 c.op + put 19 16 c.tfmt + put 15 15 c.prot.toNat + put 11 0 c.source,
     put 31 8 c.count, put 31 8 (c.chunks.filter (·.done)).length,
     put 31 20 c.failed.length + put 16 0 (sat 17 (idleTurns s c)), put 31 20 (c.minContrib.getD 0)]

def instanceGetBody (c : Cmd) (s : State) : Verdict := lenIs c 8 (report (instWords s (instOf s (instArg c))) s)

def execInstanceGet (mb fails : Nat) (s : State) : Result := act (readCommand 0x0402 mb fails instanceGetBody) s

/-- INSTANCE_ABANDON (R357). -/
def instanceAbandonBody (c : Cmd) (s : State) : Verdict :=
  lenIs c 8 <| check stNotNow ((instOf s (instArg c)).st != .opened) (applied (abandon (instArg c) causeDriver none s))

def execInstanceAbandon (mb fails : Nat) (s : State) : Result :=
  act (writeCommand 0x0403 mb fails instanceAbandonBody) s

/-- The tally entries that TALLY_READ returns of a chunk, with the count of all. -/
def tallyTaken (c : Cmd) (s : State) : List Nat × Nat :=
  let all := match chunkAt (instOf s (instArg c)) (fld (argW c 2) 31 8) with | some k => k.tally | none => []
  ((all.drop (fld (argW c 3) 15 0)).take 960, all.length)

/-- The reads of the tally pages that hold them (R349). -/
def tallyScan (c : Cmd) (s : State) : Bool × State :=
  let first := fld (argW c 3) 15 0
  let got := (tallyTaken c s).1.length
  let pages := match chunkAt (instOf s (instArg c)) (fld (argW c 2) 31 8) with | some k => pagesFor k useTally | none => []
  scratchReads (instArg c) (((pages.drop (first / 16384)).take (ceilDiv (first % 16384 + got) 16384)).map fun p => (p, 4 * got)) s

/-- TALLY_READ (R358). -/
def tallyReadBody (c : Cmd) (s : State) : Verdict :=
  lenIs c 16 <|
    let (got, n) := tallyTaken c s
    check stPrecondition (!(groupOf s (keyGroup (instArg c))).tally) <|
      check stNotNow ((instOf s (instArg c)).st == .free)
        (report ((put 31 16 got.length + put 15 0 (sat 16 n)) :: got) (tallyScan c s).2)

/-- A tally page that cannot be read fails both attempts of the command (R349, R612). -/
def execTallyRead (mb : Nat) (fails : Reading) (s : State) : Result :=
  act (withReads fails.reads fun s =>
    let bad := !(tallyScan (cmdOf 0x0404 mb 0 s) s).1
    runCommand 0x0404 mb (if bad then 2 else fails.item) (fun _ => true) (fun c t => if bad then (tallyScan c t).2 else t)
      tallyReadBody s) s

/-- COLL_STATUS_GET's words (R359). -/
def collWords (s : State) : List Nat :=
  let t := s.twine
  let n := fun (p : CState → Bool) => (t.insts.filter fun e => p e.2.st).length
  [put 31 16 (n (· == .opened)) + put 15 0 (n fun x => x == .closed || x == .abandoned),
   put 31 16 (t.groups.filter fun e => e.2.valid).length + put 15 0 t.peak, (usedScratch s).length] ++
    (List.range 10).map (fun i => tabGet 0 t.discards (i + 1)) ++ [t.abandoned]

def collStatusGetBody (c : Cmd) (s : State) : Verdict := lenIs c 0 (report (collWords s) s)

def execCollStatusGet (mb fails : Nat) (s : State) : Result :=
  act (readCommand 0x0405 mb fails collStatusGetBody) s

end Sys2Proof.Machine
end

