-- ==== Sys2Proof/Machine/Stalls.lean ====
section
/-! DEFINITION. Stalls (09_session_stalls.md): compression, pushing and packing, recall, lost and retired pages,
patrol and page copies, and the stall and pool commands. -/

namespace Sys2Proof.Machine

open Sys2Proof

/-! ### Compression (R372 to R374) -/

/-- The distinct byte values of a plane, ascending. -/
def dictOf (plane : List Byte) : List Nat := numbers 256 fun v => plane.contains (BitVec.ofNat 8 v)

/-- A plane coded: its dictionary size where it is dictionary-coded, and its bytes (R372). -/
def codePlane (plane : List Byte) : Option Nat × List Byte :=
  let d := dictOf plane
  if d.length ≤ 16 then
    let ix := plane.map fun b => (d.findIdx? (· == b.toNat)).getD 0
    (some d.length, d.map (BitVec.ofNat 8) ++
      (List.range (plane.length / 2)).map fun j => BitVec.ofNat 8 (ix.getD (2 * j) 0 + 16 * ix.getD (2 * j + 1) 0))
  else (none, plane)

/-- Every second byte of a block, from byte 0 (low plane) or byte 1 (high plane). -/
def planeOf (odd : Nat) (block : List Byte) : List Byte :=
  (List.range (block.length / 2)).map fun j => block.getD (2 * j + odd) 0

/-- Lossless compression (R372). -/
def compressLossless (block : List Byte) : CBlock :=
  let hi := codePlane (planeOf 1 block)
  let lo := codePlane (planeOf 0 block)
  if hi.1.isSome || lo.1.isSome then ⟨1, false, hi.1, lo.1, hi.2 ++ lo.2⟩ else ⟨0, false, none, none, block⟩

/-- The element format of a stall (R374): BF16 or FP16. -/
def elemFmt (elem : Nat) : Fmt := if elem = 0 then bf16 else fp16

def isFin : Num → Bool
  | .fin _ _ _ => true
  | _ => false

/-- The scale of a narrowed block (R374, steps 2 and 3), as FP32 bits: amax by its FP32 bits, which order like
their values. -/
def scaleOf (xs : List Num) : Nat :=
  let amax := (xs.filter isFin).foldl (fun m x => max m (encNum fp32 false x % 2 ^ 31)) 0
  if amax = 0 then 0x3F800000
  else max 0x00800000 (encNum fp32 false (divNum (numOf fp32 amax) (.fin false 448 0)))

/-- One element narrowed (R374, step 4). -/
def narrowElem (scale : Nat) (x : Num) : Nat :=
  match x with
  | .fin _ _ _ => encNum e4m3 false (numOf fp32 (encNum fp32 false (divNum x (numOf fp32 scale))))
  | x => encNum e4m3 false x

/-- Narrowing (R374). -/
def compressNarrow (elem : Nat) (block : List Byte) : CBlock :=
  let xs := (List.range (block.length / 2)).map fun j => numOf (elemFmt elem) (ofLe ((block.drop (2 * j)).take 2))
  let scale := scaleOf xs
  ⟨2, xs.any fun x => !isFin x, none, none, leBytes 4 scale ++ xs.map fun x => BitVec.ofNat 8 (narrowElem scale x)⟩

/-- A block compressed under a stall's COMP (R372, R374). -/
def compressBlock (comp elem : Nat) (block : List Byte) : CBlock :=
  if comp = 0 then compressLossless block else compressNarrow elem block

/-- A coded plane restored, with what follows it in the body. -/
def decodePlane (d : Option Nat) (body : List Byte) : List Byte × List Byte :=
  match d with
  | none => (body.take 1024, body.drop 1024)
  | some n =>
    ((List.range 1024).map fun j =>
      let b := ((body.getD (n + j / 2) 0)).toNat
      body.getD (if j % 2 = 0 then b % 16 else b / 16) 0, body.drop (n + 512))

/-- One narrowed element on recall (R374). -/
def widenElem (elem scale q : Nat) : Nat :=
  match numOf e4m3 q with
  | .fin a m e => encNum (elemFmt elem) true (numOf fp32 (encNum fp32 false (mulNum (.fin a m e) (numOf fp32 scale))))
  | _ => encNum (elemFmt elem) true .nan

/-- The 2,048 bytes of a compressed block. -/
def decompress (elem : Nat) (b : CBlock) : List Byte :=
  if b.kind = 0 then b.body
  else if b.kind = 1 then
    let hi := decodePlane b.hiD b.body
    let lo := (decodePlane b.loD hi.2).1
    (List.range 1024).flatMap fun j => [lo.getD j 0, hi.1.getD j 0]
  else
    let scale := ofLe (b.body.take 4)
    (b.body.drop 4).flatMap fun q => leBytes 2 (widenElem elem scale q.toNat)

/-- The header of a compressed block (R373). -/
def blockHeader (b : CBlock) : Nat :=
  put 31 30 b.kind + put 29 29 b.nonfinite.toNat + put 28 28 b.hiD.isSome.toNat + put 27 27 b.loD.isSome.toNat +
    put 26 23 (b.hiD.getD 1 - 1) + put 22 19 (b.loD.getD 1 - 1) + put 11 0 b.body.length

/-- A compressed block as it stands in its page (R373). -/
def blockWire (b : CBlock) : List Byte := leBytes 4 (blockHeader b) ++ b.body

/-- The bytes of a compressed block with its header (R373). -/
def blockBytes (b : CBlock) : Nat := 4 + b.body.length

/-! ### Stalls, pages and staging (R361 to R371) -/

/-- Bytes of a position (R364). -/
def strideBytes (x : Stall) : Nat := 2048 * x.stride

/-- NEXT: the first block not yet packed (R368). -/
def nextBlock (x : Stall) : Nat := x.positions * x.stride

/-- The header of page i of a stall's list (R392). -/
def pageHeader (n i : Nat) (x : Stall) (g : StallPage) : List Nat :=
  let payload := g.blocks.flatMap blockWire
  let ws := [put 31 16 0x57A1 + put 15 8 1 + put 7 4 x.comp + put 3 0 x.elem, put 31 16 n + put 15 0 x.gen,
    put 31 12 i + put 4 0 x.stride, put 31 12 g.first + put 11 6 g.positions, put 31 16 payload.length + put 15 0 g.blocks.length,
    crc32c payload, put 31 31 (decide (i + 1 = x.pages.length)).toNat + put 30 30 (g.blocks.any (·.nonfinite)).toNat] ++
    List.replicate 8 0
  ws ++ [crc32c (leWords ws)]

/-- The bytes of a stall page (R27, R392). -/
def pageImage (n i : Nat) (x : Stall) (g : StallPage) : List Byte :=
  let used := leWords (pageHeader n i x g) ++ g.blocks.flatMap blockWire
  used ++ zeros (65536 - used.length)

/-- The staging area can give k pages beyond those listed. -/
def stagingHas (s : State) : Nat → List Nat → Bool
  | 0, _ => true
  | k + 1, used => match stagingPickFrom s used with
    | some p => stagingHas s k (used ++ [p])
    | none => false

/-- The staged blocks and staging pages of a stall are dropped. -/
def dropStaging (x : Stall) : Stall := { x with staged := [], stage := [], halt := false }

/-- STALL_PARKED once POSITIONS has reached END (R369, R391). -/
def parkCheck (n : Nat) (s : State) : State :=
  let x := stallOf s n
  match x.st, x.endPos with
  | .filling, some e =>
    if e ≤ x.positions then
      raise 0x0500 [(16, n), (20, x.positions)] (modStall n (fun x => { dropStaging x with st := .parked, endPos := none }) s)
    else s
  | _, _ => s

/-- Packing halts (R371). -/
def packHalt (n cause : Nat) (s : State) : State :=
  if (stallOf s n).halt then s
  else raise 0x0502 [(16, n), iCause cause] (modStall n (fun x => { x with halt := true }) s)

/-- A position's blocks go into a page of the list (R369), written under R450. -/
def packInto (n : Nat) (blocks : List CBlock) (page : StallPage) (fresh : Bool) (s : State) : State :=
  let bytes := (blocks.map blockBytes).sum
  let s := modStall n (fun x =>
    let p := x.positions
    let keep := fun (b : Nat) => decide ((p + 1) * x.stride ≤ b)
    let staged := x.staged.filter fun e => keep e.1
    { x with
      positions := p + 1
      nonfinite := x.nonfinite || blocks.any (·.nonfinite)
      pages := (if fresh then x.pages else x.pages.dropLast) ++
        [{ page with positions := page.positions + 1, blocks := page.blocks ++ blocks }]
      staged := staged
      stage := x.stage.filter fun g => staged.any fun e => e.1 / 32 == g.1 }) s
  count (poolCtr 6) blocks.length (poolIo true page.page bytes 4 s)

/-- Pack complete positions in order while a page takes them (R369, R371). -/
def packLoop (n : Nat) : Nat → State → State
  | 0, s => s
  | k + 1, s =>
    let x := stallOf s n
    let blocks := (List.range x.stride).filterMap fun i => (tabGet {} x.staged (nextBlock x + i)).packed
    if x.st = .filling && 0 < x.stride && blocks.length == x.stride then
      let bytes := (blocks.map blockBytes).sum
      let room := match x.pages.getLast? with
        | some g => !g.lost && decide ((g.blocks.map blockBytes).sum + bytes ≤ 65472)
        | none => false
      match room, x.pages.getLast? with
      | true, some g => packLoop n k (parkCheck n (packInto n blocks g false s))
      | _, _ =>
        if x.budget ≤ x.pages.length then packHalt n 0 s
        else match stallPagePick s n (x.chanPtr.getD (37 * n % 128)) with
          | none => packHalt n 1 s
          | some (page, place) =>
            let s := modStall n (fun x => { x with chanPtr := some place, halt := false }) s
            packLoop n k (parkCheck n (poolLowCheck (packInto n blocks ⟨page, x.positions, 0, false, []⟩ true s)))
    else s

/-- Packing of a stall goes on. -/
def packStall (n : Nat) (s : State) : State := packLoop n ((stallOf s n).staged.length + 1) s

/-- Pages were freed: packing that halted resumes (R371). -/
def resumePacking (s : State) : State :=
  poolLowCheck (forAll ((s.pool.stalls.filter fun e => e.2.halt).map (·.1))
    (fun n s => packStall n (modStall n (fun x => { x with halt := false }) s)) s)

/-! ### Push frames (R366, R367, R381) -/

def sopOf (f : Frame) : Nat := fld f.w3.toNat 15 12
def stallIdOf (f : Frame) : Nat := fld f.w3.toNat 31 16

/-- The blocks and 32-byte units that a push frame carries, with their bytes. -/
def pushUnits (f : Frame) : List (Nat × Nat × List Byte) :=
  (List.range f.len32).map fun i =>
    let u := offsetOf f / 32 + i
    (u / 64, u % 64, (f.payload.drop (32 * i)).take 32)

/-- The first check of R381 that a frame fails; 0 for none. -/
def pushFault (s : State) (f : Frame) : Nat :=
  let x := stallOf s (stallIdOf f)
  let off := offsetOf f
  let stop := off + 32 * f.len32
  let sb := strideBytes x
  let w3 := f.w3.toNat
  if x.st = .empty then 1
  else if x.st = .recalling then 2
  else if x.st = .damaged then 3
  else if fld w3 11 8 != x.comp || fld w3 7 4 != x.elem || (x.comp == 1 && x.elem == 2) ||
      fld f.w6.toNat 19 0 != off / sb || off % 32 != 0 || fld f.w5.toNat 31 16 != 0 || sopOf f == 2 ||
      (sopOf f == 1 && stop % sb != 0) || decide (524288 * sb < stop) then 4
  else if decide (0 < f.len32) && decide (off < 2048 * nextBlock x) then 5
  else if 2048 * (nextBlock x + 1024) < stop then 6
  else if (pushUnits f).any fun u =>
      let g := tabGet {} x.staged u.1
      g.packed.isSome || !(tabGet [] g.units u.2.1).isEmpty then 7
  else
    let groups := ((pushUnits f).map fun u => u.1 / 32).eraseDups.filter fun g => !(x.stage.any fun e => e.1 == g)
    if stagingPages < (usedStaging s).length + groups.length || !stagingHas s groups.length (usedStaging s) then 8 else 0

/-- A push frame is discarded and counted under a reason (R381). -/
def pushDiscard (n reason : Nat) (s : State) : State :=
  let s := modPool (fun p => { p with pushDiscards := tabMod 0 p.pushDiscards reason fun k => sat 32 (k + 1) }) s
  let s := onlyIf ((stallOf s n).st != .empty) (modStall n fun x => { x with discards := sat 16 (x.discards + 1) }) s
  raiseOnce (eventKey 0x0503 + reason) 0x0503 [(16, n), iCause reason] (count (poolCtr 9) 1 s)

/-- A staging page for each group of 32 blocks that has none. -/
def stageGroup (n g : Nat) (s : State) : State :=
  if (stallOf s n).stage.any fun e => e.1 == g then s
  else match stagingPick s with
    | none => s
    | some p => modStall n (fun x => { x with stage := x.stage ++ [(g, p)] }) s

/-- An accepted push frame: staged; a PARKED stall fills again (R368, R381, R391). -/
def pushAccept (f : Frame) (s : State) : State :=
  let n := stallIdOf f
  let us := pushUnits f
  let s := modStall n (fun x => { x with st := .filling, source := f.src, idleAt := s.reel.bounds }) s
  let s := forAll (us.map fun u => u.1 / 32).eraseDups (stageGroup n) s
  let s := modStall n (fun x =>
    { x with
      staged := us.foldl (fun t u => tabMod {} t u.1 fun g => { g with units := tabSet [] g.units u.2.1 u.2.2 }) x.staged
      endPos := if sopOf f = 1 then some ((offsetOf f + 32 * f.len32) / strideBytes x) else x.endPos }) s
  let page := ((((stallOf s n).stage.find? fun e => some e.1 == us.head?.map fun u => u.1 / 32).map (·.2)).getD stagingBase)
  parkCheck n (poolIo true page (32 * f.len32) 4 (count (poolCtr 5) (32 * f.len32) s))

/-- STALL_PUSH (R381). -/
def stallPushArrive (f : Frame) (s : State) : State :=
  let r := pushFault s f
  if r = 0 then pushAccept f s else pushDiscard (stallIdOf f) r s

def execStallPush (ifc : Nat) (s : State) : Result := act (hc8Take ifc (fun f => f.cls == 4) stallPushArrive) s

/-- A push ends without its END (R382): staged blocks dropped, POSITIONS kept. An END that no frame set is free. -/
def pushEnds (n : Nat) (s : State) : State :=
  let x := stallOf s n
  let (e, s) := match x.endPos with
    | some e => (e, s)
    | none => drawFree s
  raise 0x0501 [(16, n), (20, x.positions), (20, e)]
    (modStall n (fun x => { dropStaging x with st := .parked, endPos := none }) s)

/-- BLOCK_COMPRESSED: a packer that is not deferred reads a block whose bytes are all there and compresses it (R368 to
R370). Where its staging page cannot be read the page is retired and the push ends (R384; DESIGN CHOICE, log 204). -/
def execBlockCompressed (stall : Nat) (staged : Reading) (s : State) : Result :=
  let block := staged.item
  act (withReads staged.reads fun s =>
    let x := stallOf s stall
    let g := tabGet {} x.staged block
    let bytes := (List.range 64).flatMap fun i => tabGet [] g.units i
    if x.st = .filling && g.packed.isNone && g.units.length == 64 && !(s.power.packers.contains ((stall + block) % 16)) then
      let page := (((x.stage.find? fun e => e.1 == block / 32).map (·.2)).getD stagingBase)
      let (ok, s) := poolRead page 2048 4 s
      if ok then
        packStall stall (modStall stall (fun x =>
          { x with staged := tabSet {} x.staged block { units := [], packed := some (compressBlock x.comp x.elem bytes) } }) s)
      else pushEnds stall (retirePage page false s)
    else s) s

/-- STALL_PUSH_TIMEOUT (R382). -/
def execStallPushTimeout (stall : Nat) (s : State) : Result :=
  act (fun s =>
    let x := stallOf s stall
    if x.st = .filling && decide (x.idleAt + x.timeout ≤ s.reel.bounds) then pushEnds stall s else s) s

/-! ### Lost pages (R388, R390) -/

/-- FIRST_LOST: the first lost position; 0xFFFFF for none (R399). -/
def firstLost (x : Stall) : Nat := ((x.pages.find? (·.lost)).map (·.first)).getD 0xFFFFF

/-- The positions of a page within a recall's range. -/
def lostIn (r : Recall) (g : StallPage) : Nat × Nat :=
  let lo := max g.first r.first
  (lo, min (g.first + g.positions) (r.first + r.count) - lo)

/-- The pages of a recall's range in page order. -/
def recallPages (r : Recall) (x : Stall) : List StallPage := x.pages.filter fun g => decide (0 < (lostIn r g).2) && decide (g.first < r.first + r.count) && decide (r.first < g.first + g.positions)

/-- A page of a stall is LOST (R388): the stall becomes DAMAGED, a RECALLING one at the end of its recall. The recall
loses the page's positions unless it has read the page already (R389). -/
def pageLost (n page : Nat) (s : State) : State :=
  let x := stallOf s n
  match x.pages.find? fun g => g.page == page && !g.lost with
  | none => s
  | some g =>
    let s := modStall n (fun x =>
      { x with pages := x.pages.map fun h => if h.page = page then { h with lost := true, blocks := [] } else h }) s
    let s := modPool (fun p => { p with copying := p.copying.filter fun c => c.1 != page }) s
    if x.st = .recalling then
      modPool (fun p =>
        { p with recalls := p.recalls.map fun r =>
            if r.stall = n then
              let unread := ((recallPages r x).drop r.page).any fun h => h.page == page
              let l := if unread then lostIn r g else (0, 0)
              { r with
                damaged := true
                firstLost := if l.2 = 0 then r.firstLost else some (min l.1 (r.firstLost.getD l.1))
                lostCount := r.lostCount + l.2 }
            else r }) s
    else if x.st = .damaged then s
    else
      let s := modStall n (fun x => { (if x.st = .filling then dropStaging x else x) with st := .damaged, endPos := none }) s
      raise 0x0505 [(16, n), (20, firstLost (stallOf s n))] s

/-- A lasting fault on a stall page (R384, R388). -/
def stallPageFault (n page : Nat) (s : State) : State := pageLost n page (retirePage page false (poolLasting s))

/-- A stall page is read (R384): whether it is good; a block of the reserved KIND 3 makes it uncorrectable (R373), and a
lasting fault loses it (R388). -/
def readPage (n : Nat) (g : StallPage) (s : State) : Bool × State :=
  let (ok, s) := poolRead g.page 65536 4 s
  if !ok then (false, pageLost n g.page (retirePage g.page false s))
  else if g.blocks.all fun b => decide (b.kind < 3) then (true, s)
  else (false, stallPageFault n g.page s)

/-- A pool half loses power: its stall pages are lost, its staging dropped (R390). -/
def stallHalfLost (half : Nat) (s : State) : State :=
  let lost := s.pool.stalls.flatMap fun e =>
    ((e.2.pages.filter fun g => !g.lost && pageHalf g.page == half).map fun g => (e.1, g.page))
  let s := forAll lost (fun x => pageLost x.1 x.2) s
  let hit := (s.pool.stalls.filter fun e => e.2.st == .filling && e.2.stage.any fun g => pageHalf g.2 == half).map (·.1)
  poolLowCheck (forAll hit pushEnds (modPool (fun p => { p with copying := p.copying.filter fun c => pageHalf c.2.1 != half }) s))

/-! ### Recall (R376 to R380, R383, R389) -/

/-- The blocks of a position, none where its page is lost (R375). -/
def positionBlocks (x : Stall) (p : Nat) : Option (List CBlock) :=
  match (x.pages.reverse.find? fun g => decide (g.first ≤ p)) with
  | some g => if g.lost then none else some ((g.blocks.drop ((p - g.first) * x.stride)).take x.stride)
  | none => none

/-- Uncompressed bytes of a range in one stretch of positions that are there. -/
def rangeBytes (x : Stall) (a b : Nat) : List Byte :=
  let sb := strideBytes x
  let ps := (List.range ((b + sb - 1) / sb - a / sb)).map (a / sb + ·)
  let all := ps.flatMap fun p => ((positionBlocks x p).getD []).flatMap (decompress x.elem)
  (all.drop (a - a / sb * sb)).take (b - a)

/-- What a page of a recall's range gives once it is read and decompressed: bytes and their offset in the stall. -/
def pageStretch (r : Recall) (x : Stall) (g : StallPage) : Nat × List Byte :=
  let (lo, n) := lostIn r g
  (lo * strideBytes x, rangeBytes x (lo * strideBytes x) ((lo + n) * strideBytes x))

/-- A stretch joins what is carried, as one stretch where they meet. -/
def carryOn (l : List (Nat × List Byte)) (e : Nat × List Byte) : List (Nat × List Byte) :=
  match l.getLast? with
  | some (o, bs) => if o + bs.length = e.1 then l.dropLast ++ [(o, bs ++ e.2)] else l ++ [e]
  | none => [e]

/-- The carried stretches of a piece: a recall sends no frame for what a lost page held (R389). -/
def stretches (l : List (Nat × List Byte)) (a b : Nat) : List (Nat × List Byte) :=
  l.filterMap fun (o, bs) =>
    let lo := max o a
    let hi := min (o + bs.length) b
    if lo < hi then some (lo, (bs.drop (lo - o)).take (hi - lo)) else none

/-- What is carried from an offset on. -/
def carryFrom (l : List (Nat × List Byte)) (b : Nat) : List (Nat × List Byte) :=
  l.filterMap fun (o, bs) => if o + bs.length ≤ b then none else some (max o b, bs.drop (b - o))

/-- A recall frame for a stretch of bytes (R377). -/
def recallFrame (r : Recall) (x : Stall) (chan : Nat) (a : Nat) (bytes : List Byte) : Frame :=
  { dst := 0, src := 0, cls := 4, chan := chan, len32 := bytes.length / 32
    w3 := BitVec.ofNat 32 (put 31 16 r.stall + put 15 12 2 + put 11 8 x.comp + put 7 4 x.elem)
    w4 := BitVec.ofNat 32 a, w5 := BitVec.ofNat 32 (put 31 16 r.tag + put 15 0 (a / 2 ^ 32))
    w6 := BitVec.ofNat 32 (put 19 0 (a / strideBytes x)), payload := bytes }

def modRecall (n : Nat) (f : Recall → Recall) (s : State) : State :=
  modPool (fun p => { p with recalls := p.recalls.map fun r => if r.stall = n then f r else r }) s

def recallOf (s : State) (n : Nat) : Option Recall := s.pool.recalls.find? fun r => r.stall == n

/-- The bytes of piece i (R376). -/
def pieceRange (r : Recall) (x : Stall) (i : Nat) : Nat × Nat :=
  let a := r.first * strideBytes x + i * r.pmax
  (a, min (a + r.pmax) ((r.first + r.count) * strideBytes x))

def pieceCount (r : Recall) (x : Stall) : Nat := ceilDiv (r.count * strideBytes x) r.pmax

/-- Piece i goes to share i mod U (R376); a piece that no controller port takes is lost to every target. -/
def sendPiece (n i : Nat) (s : State) : State :=
  match recallOf s n with
  | none => s
  | some r =>
    let x := stallOf s n
    let u := r.asics.length
    let j := i % u
    let (a, b) := pieceRange r x i
    let s := forAll (stretches r.carry a b) (fun w s =>
      let (ok, s) := sendReplicated [r.asics.getD j 0] (r.sets.getD j 0) (recallFrame r x ((r.chan + j) % 8) w.1 w.2) s
      let s := count (poolCtr 7) w.2.length s
      if ok then s else modRecall n (fun r => { r with lostTargets := List.range r.targets.length }) s) s
    modRecall n (fun r => { r with next := i + 1, carry := carryFrom r.carry b }) s

/-- The next page of a recall is read and decompressed once and every piece that it completes is handed on (R376, R389). -/
def recallStep (stall : Nat) (r : Recall) (s : State) : State :=
  let x := stallOf s stall
  let pages := recallPages r x
  let s := match pages[r.page]? with
    | none => s
    | some g =>
      if g.lost then s
      else
        let (ok, s) := readPage stall g s
        if ok then modRecall stall (fun r => { r with carry := carryOn r.carry (pageStretch r x g) }) s else s
  let reach := match pages[r.page]?, pages[r.page + 1]? with
    | some g, some _ => (g.first + g.positions) * strideBytes x
    | _, _ => (r.first + r.count) * strideBytes x
  let ready := (numbers (pieceCount r x) fun i => decide (r.next ≤ i) && decide ((pieceRange r x i).2 ≤ reach))
  let s := forAll ready (sendPiece stall) s
  let s := modRecall stall (fun r => { r with page := r.page + 1 }) s
  match recallOf s stall with
  | some r => onlyIf (decide (pieceCount r x ≤ r.next)) (modRecall stall fun r => { r with handedAt := some s.reel.bounds }) s
  | none => s

/-- RECALL_PROGRESS: a granted recall that is not handed on reads its next page. -/
def execRecallProgress (stall : Nat) (reads : List Nat) (s : State) : Result :=
  act (withReads reads fun s =>
    match recallOf s stall with
    | none => s
    | some r => if !r.granted || r.handedAt.isSome then s else recallStep stall r s) s

/-- A stall's entry becomes EMPTY: its pages and staging are freed; its generation, its settings and what STALL_GET
tells of its pushes stay (R391, R398). -/
def emptyStall (n : Nat) (s : State) : State :=
  let pages := (stallOf s n).pages.map (·.page)
  let s := modPool (fun p => { p with copying := p.copying.filter fun c => !pages.contains c.1 }) s
  resumePacking (modStall n (fun x =>
    { dropStaging x with st := .empty, positions := 0, endPos := none, pages := [], nonfinite := false }) s)

/-- STALL_RECALL_DONE (R378, R379). -/
def recallEnds (r : Recall) (s : State) : State :=
  let n := r.stall
  let whole := r.lostTargets.isEmpty && r.lostCount == 0
  let s := forAll r.sets releaseSet s
  let s := modPool (fun p => { p with recalls := p.recalls.filter fun q => q.stall != n }) s
  let s := raise 0x0504 [(16, n), (16, r.tag), (8, if r.lostCount = 0 then stOk else stFault), (20, r.firstLost.getD 0xFFFFF),
    iCount r.lostCount, (16, maskOf r.lostTargets), iFlag (r.release && !whole)] (count (poolCtr 8) 1 s)
  if r.release && whole then emptyStall n s
  else
    let s := modStall n (fun x => { x with st := if x.pages.any (·.lost) then .damaged else .parked }) s
    onlyIf r.damaged (fun s => raise 0x0505 [(16, n), (20, firstLost (stallOf s n))] s) s

def execStallRecallDone (stall : Nat) (s : State) : Result :=
  act (fun s =>
    match recallOf s stall with
    | some r => match r.handedAt with
      | some t => if t + r.linger ≤ s.reel.bounds then recallEnds r s else s
      | none => s
    | none => s) s

/-- The pages that hold bytes a to b of a stall. -/
def pagesOver (x : Stall) (a b : Nat) : List StallPage :=
  let sb := strideBytes x
  x.pages.filter fun g => decide (g.first * sb < b) && decide (a < (g.first + g.positions) * sb)

/-- Pages of a stall are read: whether all are good (R384). -/
def readPages (n : Nat) : List StallPage → State → Bool × State
  | [], s => (true, s)
  | g :: t, s =>
    let (ok, s) := readPage n g s
    let (rest, s) := readPages n t s
    (ok && rest, s)

/-- A target has lost data of a recall. -/
def targetLost (n k : Nat) (s : State) : State :=
  modRecall n (fun r => { r with lostTargets := if r.lostTargets.contains k then r.lostTargets else r.lostTargets ++ [k] }) s

/-- A named piece goes once more: its pages are read again and decompressed (R383). A piece whose page is lost, or that a
target loses a second time, is lost to that target; a page lost since is read as such a loss (DEDUCED, log 113). -/
def pieceLost (r : Recall) (k : Nat) (e : SentPiece) (s : State) : State :=
  let x := stallOf s r.stall
  let pages := pagesOver x e.off (e.off + e.len)
  if r.resent.contains (e.off, k) || pages.any (·.lost) then targetLost r.stall k s
  else
    let (ok, s) := readPages r.stall pages s
    if !ok then targetLost r.stall k s
    else
      let f := { recallFrame r x e.chan e.off (rangeBytes x e.off (e.off + e.len)) with dst := e.dst, src := ownEid s, flowSeq := e.seq }
      let s := hc8Resend f s
      modRecall r.stall (fun r =>
        { r with resent := r.resent ++ [(e.off, k)], handedAt := r.handedAt.map fun _ => s.reel.bounds }) s

/-- A loss notice for a flow of the HC-8, among the running recalls (R383); one of class STALL that names no piece of a
running recall is for a recall that has ended: counted and ignored. -/
def recallLost (dst chan cls : Nat) (named : Nat → Bool) (s : State) : State :=
  let hits := s.pool.recalls.map fun r => (r, r.sent.filter fun e => e.dst == dst && e.chan == chan && named e.seq)
  let s := onlyIf (cls == 4 && hits.all fun h => h.2.isEmpty) (modPool fun p => { p with lateNotices := sat 32 (p.lateNotices + 1) }) s
  forAll hits (fun h s => forAll h.2 (pieceLost h.1 ((h.1.targets.findIdx? (· == dst)).getD 0)) s) s

/-! ### Patrol, copies and migration (R385 to R387, R461) -/

/-- A page of the firmware region's 3 GiB of firmware, page lists and tables, all of them in use (R361, R362). -/
def isFirmwarePage (s : State) (p : Nat) : Bool :=
  if p < stagingBase then !isRetired s p else (standIns s 0 stagingBase).contains p

/-- How many of them have power. -/
def firmwarePages (s : State) : Nat :=
  let up := fun h => if halfUp s h then stagingBase / 2 - ((s.pool.retired ++ s.pool.retiredNow).filter fun p => decide (p < stagingBase) && pageHalf p == h).length else 0
  up 0 + up 1 + ((standIns s 0 stagingBase).filter fun p => halfUp s (pageHalf p)).length

/-- The pages in use outside them. -/
def pagesInUse (s : State) : List Nat := usedStall s ++ usedSpill s ++ usedScratch s ++ usedStaging s

/-- A lasting fault on a page of any region (R203, R349, R388). -/
def pageFault (page : Nat) (s : State) : State :=
  match pageOwner s page with
  | some n => stallPageFault n page s
  | none =>
    match (List.range 4).find? fun a => (spillOf s a).pages.any fun g => g.page == page with
    | some a => match (spillOf s a).pages.find? fun g => g.page == page with
      | some g => spillPageLost a g (poolLasting s)
      | none => s
    | none =>
      match s.twine.insts.find? fun e => e.2.chunks.any fun k => k.scratch.any fun p => p.2 == page with
      | some e => abandon e.1 causePool none (retirePage page false (poolLasting s))
      | none =>
        match s.pool.stalls.find? fun e => e.2.stage.any fun g => g.2 == page with
        | some e => pushEnds e.1 (retirePage page false (poolLasting s))
        | none => retirePage page false (poolLasting s)

/-- The patrol as it stands: a new pass of 2^23 turns begins with no page read (R385). -/
def patrolPass (s : State) : State :=
  let fresh := match s.pool.patrolAt with | none => true | some t => decide (t + 2 ^ 23 ≤ s.reel.bounds)
  if fresh then modPool (fun p => { p with patrolAt := some s.reel.bounds, patrolled := [], passDone := false }) s else s

/-- The patrol may read a page: in use, with power, and not yet read in this pass (R385). -/
def patrolDue (s : State) (page : Nat) : Bool :=
  (isFirmwarePage s page || (pagesInUse s).contains page) && halfUp s (pageHalf page) && !s.pool.patrolled.contains page

/-- Every page in use has been read in this pass. -/
def passWhole (s : State) : Bool :=
  (pagesInUse s).all (fun q => !halfUp s (pageHalf q) || s.pool.patrolled.contains q) &&
    (s.pool.patrolled.filter (isFirmwarePage s)).length == firmwarePages s

/-- A page is patrolled (R385), and a pass counted once. `result`: 0 clean, 1 corrected, 2 good on the second read,
3 lasting. -/
def patrolPage (page result : Nat) (s : State) : State :=
  let cls := if (usedSpill s).contains page then 3 else if (usedScratch s).contains page then 1 else 4
  let s := poolIo false page 65536 cls (modPool (fun p => { p with patrolled := p.patrolled ++ [page] }) s)
  let s := onlyIf (!s.pool.passDone && passWhole s) (fun s =>
    count (poolCtr 4) 1 (modPool (fun p => { p with patrols := sat 32 (p.patrols + 1), passDone := true }) s)) s
  if result = 0 then s
  else if result = 1 then poolIo true page 65536 cls (noteCorrection page s)
  else if result = 2 then poolTransient s
  else pageFault page s

/-- PATROL_READ: a page in use is read once in 2^23 turns (R385). -/
def execPatrolRead (page result : Nat) (s : State) : Result :=
  act (fun s =>
    if s.power.patrolGranted && patrolDue (patrolPass s) page then
      patrolPage page result (patrolPass s)
    else s) s

/-- A page of a stall has been read and copied: its list names the new page; the old one is retired or free (R386, R461). A
page that cannot be read is lost (R388). -/
def copyDone (n : Nat) (g : StallPage) (new : Nat) (retire : Bool) (s : State) : State :=
  let old := g.page
  let s := modPool (fun p => { p with copying := p.copying.filter fun c => c.1 != old }) s
  let (ok, s) := readPage n g s
  if !ok then resumePacking s else
  let s := modStall n (fun x => { x with pages := x.pages.map fun g => if g.page = old then { g with page := new } else g }) s
  let s := poolIo true new 65536 4 s
  resumePacking (if retire then retirePage old true s else count (stackCtr (pageStack new) 3) 1 s)

/-- PAGE_COPY_DONE: a copy waits while its stall is RECALLING, a migration unless it is PARKED (R386, R461). -/
def execPageCopyDone (copied : Reading) (s : State) : Result :=
  let page := copied.item
  act (withReads copied.reads fun s =>
    match s.pool.copying.find? fun c => c.1 == page, pageOwner s page with
    | some (_, new, retire), some n =>
      let st := (stallOf s n).st
      if st = .recalling || !halfUp s (pageHalf new) || (!retire && st != .parked) || !(if retire then s.power.copyGranted else s.power.migrateGranted) then s
      else match (stallOf s n).pages.find? fun g => g.page == page && !g.lost with
        | some g => copyDone n g new retire s
        | none => s
    | _, _ => s) s

/-- The bytes read from a stack since the last comparison. -/
def readOf (s : State) (stack : Nat) : Nat := tabGet 0 s.pool.stackRead stack

/-- The moves of one half (R461): from the most-read stack, where it exceeds the mean by more than IMBALANCE_PCT, to the
least-read one. -/
def migrateHalf (half : Nat) (s : State) : State :=
  let four := (List.range 4).map (4 * half + ·)
  let total := (four.map (readOf s)).sum
  let most := (leastBy (fun k => 2 ^ 80 - readOf s k) four).getD 0
  let least := (leastBy (readOf s) four).getD 0
  if total * (100 + s.power.cfg.imbalance) < 400 * readOf s most && most != least then
    let parked := s.pool.stalls.filter fun e => e.2.st == .parked
    let pages := (parked.flatMap fun e => (e.2.pages.filter fun g => !g.lost && pageStack g.page == most).map (·.page)).take s.power.cfg.migrate
    let base := stallBase s
    forAll pages (fun page s =>
      if s.pool.copying.any fun c => c.1 == page then s
      else match (List.range 32).findSome? fun j => freePageOn s base (poolPages - base) (takenStall s) (32 * least + j) with
        | some q => modPool (fun p => { p with copying := p.copying ++ [(page, q, false)] }) s
        | none => s) s
  else s

/-- POOL_MIGRATION: every 2^20 turns (R461). -/
def execPoolMigration (s : State) : Result :=
  act (fun s =>
    if s.reel.tick = 0 && 0 < s.reel.bounds && s.reel.bounds % 2 ^ 20 == 0 && coreUp s && firstThisTurn (eventKey 0x0D00) s then
      modPool (fun p => { p with stackRead := [] }) (poolLowCheck (migrateHalf 1 (migrateHalf 0 (useTurn (eventKey 0x0D00) s))))
    else s) s

/-! ### Commands (R394 to R402) -/

def stallArg (c : Cmd) : Nat := fld (argW c 0) 31 16

/-- STALL_OPEN (R394). -/
def stallOpenBody (c : Cmd) (s : State) : Verdict :=
  lenIs c 12 <|
    let n := stallArg c
    let comp := fld (argW c 0) 11 8
    let elem := fld (argW c 0) 7 4
    let timeout := fld (argW c 1) 31 16
    let stride := fld (argW c 1) 4 0
    let budget := argW c 2
    argChecks [(0, decide (2 ≤ comp) || decide (3 ≤ elem) || (comp == 1 && elem == 2)), (4, stride == 0),
        (8, budget == 0 || decide (stallRegion s < budget))] <|
      check stNotNow ((stallOf s n).st != .empty) <|
        applied (modStall n (fun x =>
          { st := .filling, gen := (x.gen + 1) % 65536, comp := comp, elem := elem, stride := stride, budget := budget
            timeout := if timeout = 0 then 1024 else timeout, idleAt := s.reel.bounds }) s)

def execStallOpen (mb fails : Nat) (s : State) : Result := act (writeCommand 0x0500 mb fails stallOpenBody) s

/-- STALL_BUDGET_SET (R395). -/
def stallBudgetSetBody (c : Cmd) (s : State) : Verdict :=
  lenIs c 8 <|
    let n := stallArg c
    let x := stallOf s n
    let budget := argW c 1
    argChecks [(4, budget == 0 || decide (stallRegion s < budget))] <|
      check stPrecondition (decide (budget < x.pages.length)) <|
      check stNotNow (x.st == .empty) <|
        let s := modStall n (fun x => { x with budget := budget }) s
        applied (if x.halt then packStall n (modStall n (fun x => { x with halt := false }) s) else s)

def execStallBudgetSet (mb fails : Nat) (s : State) : Result :=
  act (writeCommand 0x0501 mb fails stallBudgetSetBody) s

/-- The targets of STALL_RECALL. -/
def recallTargets (c : Cmd) : List Nat := (List.range (fld (argW c 3) 3 0 + 1)).map fun k => fld (argW c (4 + k)) 11 0

/-- An entry in force of an ASIC lists a port to an EID. -/
def listsPort (s : State) (a eid : Nat) : Bool :=
  let e := eptEntry s s.fwd.tables.inForce a eid
  eptValid e && !(eptPorts e).isEmpty

/-- The ADMITTED ASICs that list a port to every target (R376). -/
def recallAsics (s : State) (targets : List Nat) : List Nat :=
  numbers 4 fun a => (asicSt s a).st == .admitted && targets.all (listsPort s a)

/-- PMAX: the largest payload of the slowest port listed for any target on any ASIC (R280, R281, R376). -/
def pmaxOf (s : State) (targets : List Nat) : Nat :=
  let ports := (List.range 4).flatMap fun a => targets.flatMap fun t => (eptPorts (eptEntry s s.fwd.tables.inForce a t)).map (unitOf a)
  ports.foldl (fun m u => min m ((64 * bytesPerTick (port s u).set - 40) / 32 * 32)) 4096

/-- The range of a recall touches a lost page. -/
def touchesLost (x : Stall) (first n : Nat) : Bool :=
  x.pages.any fun g => g.lost && decide (g.first < first + n) && decide (first < g.first + g.positions)

/-- STALL_RECALL (R376, R396). -/
def stallRecallBody (c : Cmd) (s : State) : Verdict :=
  lenIs c (16 + 4 * (fld (argW c 3) 3 0 + 1)) <|
    let n := stallArg c
    let x := stallOf s n
    let tag := fld (argW c 0) 15 0
    let first := fld (argW c 1) 31 12
    let num := fld (argW c 2) 31 12
    let w := argW c 3
    let spread := 2 ^ fld w 30 29
    let linger := fld w 25 13
    let targets := recallTargets c
    let asics := (recallAsics s targets).take spread
    let sets := freeSets s asics.length
    argChecks ([(0, tag == 0), (4, decide (x.positions < first + num)), (8, num == 0 || decide (524288 < num)),
        (12, fld w 30 29 == 3 || decide (4096 < linger))] ++
        (List.range targets.length).map fun k =>
          (16 + 4 * k, decide (0x8FF < targets.getD k 0) || (targets.take k).contains (targets.getD k 0))) <|
      check stPrecondition (touchesLost x first num || asics.isEmpty) <|
      check stNotNow (x.st != .parked && x.st != .damaged) <|
      check stNoRoom (decide (256 ≤ s.pool.recalls.length) || sets.isNone) <|
        let chan := fld w 28 26
        let sets := sets.getD []
        let s := forAll (List.range sets.length) (fun j => loadSet (sets.getD j 0) ((chan + j) % 8) targets) s
        let r : Recall :=
          { stall := n, tag := tag, first := first, count := num, targets := targets, chan := chan
            linger := if linger = 0 then 16 else linger, release := bit w 31, pmax := pmaxOf s targets
            asics := asics, sets := sets }
        applied (modPool (fun p => { p with recalls := p.recalls ++ [r] }) (modStall n (fun x => { x with st := .recalling }) s))

def execStallRecall (mb fails : Nat) (s : State) : Result := act (writeCommand 0x0502 mb fails stallRecallBody) s

/-- A stall cut to fewer positions (R397). -/
def trimStall (to' : Nat) (x : Stall) : Stall :=
  let pages := (x.pages.filter fun g => decide (g.first < to')).map fun g =>
    if to' < g.first + g.positions then
      { g with positions := to' - g.first, blocks := g.blocks.take ((to' - g.first) * x.stride) } else g
  { x with
    positions := to', pages := pages, st := if pages.any (·.lost) then .damaged else .parked
    nonfinite := pages.any fun g => g.blocks.any (·.nonfinite) }

/-- STALL_TRIM (R397): the header of the page that is cut is written anew. -/
def stallTrimBody (c : Cmd) (s : State) : Verdict :=
  lenIs c 8 <|
    let n := stallArg c
    let x := stallOf s n
    let p := fld (argW c 1) 31 12
    argChecks [(4, decide (x.positions < p))] <|
      check stNotNow (x.st != .parked && x.st != .damaged) <|
        let cut := x.pages.filter fun g => decide (g.first < p) && decide (p < g.first + g.positions) && !g.lost
        let t := forAll cut (fun g => poolIo true g.page 64 4) (modStall n (trimStall p) s)
        let kept := (stallOf t n).pages.map (·.page)
        let gone := (x.pages.map (·.page)).filter fun g => !kept.contains g
        applied (resumePacking (modPool (fun q => { q with copying := q.copying.filter fun k => !gone.contains k.1 }) t))

def execStallTrim (mb fails : Nat) (s : State) : Result := act (writeCommand 0x0503 mb fails stallTrimBody) s

/-- STALL_FREE (R398). -/
def stallFreeBody (c : Cmd) (s : State) : Verdict :=
  lenIs c 4 <| check stNotNow ((stallOf s (stallArg c)).st == .recalling) (applied (emptyStall (stallArg c) s))

def execStallFree (mb fails : Nat) (s : State) : Result := act (writeCommand 0x0504 mb fails stallFreeBody) s

def sCode : SState → Nat
  | .empty => 0 | .filling => 1 | .parked => 2 | .recalling => 3 | .damaged => 4

/-- STALL_GET's words (R399). -/
def stallWords (s : State) (n : Nat) : List Nat :=
  let x := stallOf s n
  let tag := ((recallOf s n).map (·.tag)).getD 0
  [put 31 28 (sCode x.st) + put 27 24 x.comp + put 23 20 x.elem + put 19 15 x.stride + put 14 14 x.halt.toNat +
     put 13 13 x.nonfinite.toNat,
   put 31 12 x.positions, x.pages.length, x.budget, put 31 12 (firstLost x) + put 11 0 x.gen,
   put 31 16 (sat 16 x.staged.length) + put 15 0 x.discards,
   put 31 16 tag + put 15 0 (if x.st = .empty then 0 else sat 16 (s.reel.bounds - x.idleAt)), put 31 20 x.source]

def stallGetBody (c : Cmd) (s : State) : Verdict := lenIs c 4 (report (stallWords s (stallArg c)) s)

def execStallGet (mb fails : Nat) (s : State) : Result := act (readCommand 0x0505 mb fails stallGetBody) s

/-- STALL_MAP_READ (R400). -/
def stallMapReadBody (c : Cmd) (s : State) : Verdict :=
  lenIs c 8 <|
    let pages := (stallOf s (stallArg c)).pages
    let got := (pages.drop (argW c 1)).take 500
    report ((put 31 23 got.length + put 22 0 pages.length) :: got.flatMap fun g =>
      [put 31 31 g.lost.toNat + put 22 0 g.page, put 31 12 g.first + put 11 6 g.positions]) s

def execStallMapRead (mb fails : Nat) (s : State) : Result := act (readCommand 0x0506 mb fails stallMapReadBody) s

/-- Every retired page below the stall region gets its replacement anew (R362). -/
def replaceAll (s : State) : State :=
  forAll (s.pool.retired ++ s.pool.retiredNow) replacePage (modPool (fun p => { p with replaced := [] }) s)

/-- POOL_REGIONS_SET (R401). -/
def poolRegionsSetBody (c : Cmd) (s : State) : Verdict :=
  lenIs c 8 <|
    let spill := fld (argW c 0) 7 0
    let scratch := fld (argW c 1) 6 0
    let t := modPool (fun p => { p with spillGib := spill, scratchGib := scratch }) s
    let reserves := ((List.range 4).map fun a => (spillOf s a).reserve).sum
    argChecks [(0, decide (192 < spill)), (4, scratch == 0 || decide (64 < scratch))] <|
      check stPrecondition (decide (stallRegion t < 1048576) || decide (spillPages t < reserves)) <|
      check stNotNow (s.tray.st != .standby || (s.pool.stalls.any fun e => e.2.st != .empty) || !(usedSpill s).isEmpty ||
          !s.twine.insts.isEmpty) <|
        applied (poolLowCheck (replaceAll t))

def execPoolRegionsSet (mb fails : Nat) (s : State) : Result :=
  act (writeCommand 0x0507 mb fails poolRegionsSetBody) s

/-- POOL_STATUS_GET's words (R402). -/
def poolWords (s : State) : List Nat :=
  let p := s.pool
  [stallRegion s, stallFree s, put 31 24 p.spillGib + put 23 16 p.scratchGib + put 15 0 (usedStaging s).length,
   (p.stalls.filter fun e => e.2.st != .empty).length, put 31 16 p.recalls.length + put 15 0 (16384 - p.retired.length),
   p.retired.length + p.retiredNow.length, p.corrected, p.transient, p.lasting, p.patrols]

def poolStatusGetBody (c : Cmd) (s : State) : Verdict := lenIs c 0 (report (poolWords s) s)

def execPoolStatusGet (mb fails : Nat) (s : State) : Result :=
  act (readCommand 0x0508 mb fails poolStatusGetBody) s

end Sys2Proof.Machine
end

