-- ==== Sys2Proof/Machine/Annealing.lean ====
section
/-! DEFINITION. The annealing engine (10_annealing_engine.md): the problem image, the continuous phase and the polish
bit for bit with the engine's time, the four slots and the annealing commands. -/

namespace Sys2Proof.Machine

open Sys2Proof

/-! ### The problem image (R429 to R431) -/

def slotOf (s : State) (n : Nat) : Slot := tabGet {} s.anneal.slots n

def modSlot (n : Nat) (f : Slot → Slot) (s : State) : State :=
  modAnneal (fun a => { a with slots := tabMod {} a.slots n f }) s

/-- Word i of an image. -/
def imWord (m : Tab Byte) (i : Nat) : Nat := ofLe (tabRead m (4 * i) 4)

/-- A problem as its image spells it (R429 to R431). -/
structure Problem where
  n : Nat
  colours : Nat
  couplings : List (Nat × Nat × Int)
  points : List (Nat × Nat × Nat)
  steps : Nat
  a0 : Nat
  dt : Nat
  damp : Nat
  shift : Nat
  sweeps : Nat
  sampleLog : Nat
  sampleEn : Bool
  initGiven : Bool
  seed : Nat
  xinit : List Int
  bias : List Int
  colour : List Nat
deriving DecidableEq, Repr

def imVars (w : Nat → Nat) : Nat := fld (w 0) 21 8 + 1
def imCouplings (w : Nat → Nat) : Nat := fld (w 1) 18 0
def imSize (w : Nat → Nat) : Nat := 320 + 4 * imVars w + 8 * imCouplings w

/-- The word places of variable i and of coupling i. -/
def varWord (i : Nat) : Nat := 80 + i
def couplingWord (w : Nat → Nat) (i : Nat) : Nat := 80 + imVars w + 2 * i

def problemOf (w : Nat → Nat) : Problem :=
  { n := imVars w, colours := fld (w 0) 5 0 + 1
    couplings := (List.range (imCouplings w)).map fun i =>
      let c := couplingWord w i
      (fld (w c) 29 16, fld (w c) 13 0, sgn 5 (fld (w (c + 1)) 4 0))
    points := (List.range (fld (w 2) 25 21 + 1)).map fun i =>
      (fld (w (16 + 2 * i)) 20 0, fld (w (17 + 2 * i)) 31 16, fld (w (17 + 2 * i)) 15 0)
    steps := fld (w 2) 20 0, a0 := fld (w 3) 31 16, dt := fld (w 3) 15 0, damp := fld (w 4) 31 16
    shift := fld (w 4) 3 0, sweeps := fld (w 5) 31 24, sampleLog := fld (w 5) 23 20, sampleEn := bit (w 5) 19
    initGiven := bit (w 5) 18, seed := w 6
    xinit := (List.range (imVars w)).map fun i => sgn 16 (fld (w (varWord i)) 31 16)
    bias := (List.range (imVars w)).map fun i => sgn 7 (fld (w (varWord i)) 15 9)
    colour := (List.range (imVars w)).map fun i => fld (w (varWord i)) 5 0 }

/-- The conflicts of a problem: couplings within one colour (R417). -/
def conflictCount (p : Problem) : Nat :=
  (p.couplings.filter fun c => p.colour.getD c.1 0 == p.colour.getD c.2.1 0).length

/-! ### Arithmetic of the engine (R405, R406, R408, R411, R413) -/

def roundShift (v : Int) (n : Nat) : Int := if n = 0 then v else (v + (2 : Int) ^ (n - 1)) / (2 : Int) ^ n
def mul14 (a b : Int) : Int := roundShift (a * b) 14
def mul16 (a b : Int) : Int := roundShift (a * b) 16

/-- One shift of the noise register (R411). -/
def lfsrShift (x : Nat) : Nat := if x % 2 = 1 then (x / 2) ^^^ 0x80200003 else x / 2

/-- A draw: 16 shifts, then the low 16 bits as a signed value. -/
def lfsrDraw (x : Nat) : Int × Nat :=
  let y := lfsrShift^[16] x
  (sgn 16 (y % 65536), y)

/-- n draws in order. -/
def lfsrDraws : Nat → Nat → List Int × Nat
  | 0, x => ([], x)
  | n + 1, x =>
    let (v, y) := lfsrDraw x
    let (t, z) := lfsrDraws n y
    (v :: t, z)

/-- P_k and T_k of the curve (R413). -/
def curveAt (points : List (Nat × Nat × Nat)) (k : Nat) : Int × Int :=
  match points.reverse.find? (fun p => decide (p.1 ≤ k)), points.find? (fun p => decide (k < p.1)) with
  | some (a, p, t), some (b, q, u) =>
    let step := fun (x y : Nat) => (x : Int) + (((y : Int) - x) * ((k : Int) - a)).tdiv ((b : Int) - a)
    (step p q, step t u)
  | some (_, p, t), none => (p, t)
  | none, _ => (0, 0)

/-- Σ_j J_ij v_j over the couplings that name i. -/
def fieldSum (p : Problem) (v : List Int) (i : Nat) : Int :=
  p.couplings.foldl (fun a c =>
    if c.1 = i then a + c.2.2 * v.getD c.2.1 0 else if c.2.1 = i then a + c.2.2 * v.getD c.1 0 else a) 0

/-- Signs as ±1. -/
def signs (s : List Bool) : List Int := s.map fun b => if b then 1 else -1

/-- The energy (R405). -/
def energy (p : Problem) (s : List Bool) : Int :=
  let v := signs s
  let pairs := p.couplings.foldl (fun a c => a + c.2.2 * v.getD c.1 0 * v.getD c.2.1 0) 0
  let single := (p.bias.zip v).foldl (fun a x => a + x.1 * x.2) 0
  0 - pairs - single

/-! ### A run (R409 to R417, R420, R422) -/

/-- A run in progress: positions, momenta, noise register, spins and what the result reports. `phase` is 0 in the
continuous phase, 1 in the polish, 2 at the final energy. -/
structure Run where
  x : List Int
  y : List Int
  lfsr : Nat
  spins : List Bool := []
  best : Option (Int × List Bool × Nat) := none
  steps : Nat := 0
  sweeps : Nat := 0
  passes : Nat := 0
  flips : Nat := 0
  satCount : Nat := 0
  eStart : Option Int := none
  ns : Nat := 0
  phase : Nat := 0
  halted : Bool := false
deriving DecidableEq, Repr

def stepNs (p : Problem) : Nat := 8 + ceilDiv p.n 512 + ceilDiv (2 * p.couplings.length) 8192

def finalNs (p : Problem) : Nat := 8 + ceilDiv (2 * p.couplings.length) 8192

/-- The time of a class pass (R420). -/
def passNs (p : Problem) (c : Nat) : Nat :=
  let mine := fun (i : Nat) => p.colour.getD i 0 == c
  let nc := (p.colour.filter (· == c)).length
  let dc := (p.couplings.map fun k => (mine k.1).toNat + (mine k.2.1).toNat).sum
  let kc := (p.couplings.filter fun k => mine k.1 && mine k.2.1).length
  8 + ceilDiv nc 512 + ceilDiv dc 8192 + 4 * kc

/-- The positions before step 0 and the noise register after the initial draws (R411). -/
def runInit (p : Problem) (seed : Nat) : Run :=
  let l := if seed = 0 then 1 else seed
  if p.initGiven then { x := p.xinit, y := List.replicate p.n 0, lfsr := l, ns := 8 + ceilDiv p.n 512 }
  else
    let (r, l) := lfsrDraws p.n l
    { x := r.map fun v => roundShift v 8, y := List.replicate p.n 0, lfsr := l, ns := 8 + ceilDiv p.n 512 }

/-- One variable's update (R409) with the saturations it counts (R422). -/
def updateVar (p : Problem) (pk tk : Int) (xs : List Int) (i : Nat) (x y r : Int) : Int × Int × Nat :=
  let u := fieldSum p xs i + 16384 * p.bias.getD i 0
  let g := roundShift u p.shift
  let g' := satI 32 g
  let f := g' - mul14 ((p.a0 : Int) - pk) x - mul14 p.damp y + mul16 tk r
  let y1 := y + mul14 p.dt f
  let y2 := satI 16 y1
  let x1 := x + mul14 p.dt (mul14 p.a0 y2)
  let n := (g != g').toNat + (y1 != y2).toNat
  if 16384 < x1 then (16384, 0, n) else if x1 < -16384 then (-16384, 0, n) else (x1, y2, n)

def signsOf (xs : List Int) : List Bool := xs.map fun x => decide (0 ≤ x)

/-- One continuous step, with its sample where one falls (R409, R414). -/
def contStep (p : Problem) (r : Run) : Run :=
  let (pk, tk) := curveAt p.points r.steps
  let (noise, l) := lfsrDraws p.n r.lfsr
  let out := (List.range p.n).map fun i => updateVar p pk tk r.x i (r.x.getD i 0) (r.y.getD i 0) (noise.getD i 0)
  let r := { r with
    x := out.map (·.1), y := out.map (·.2.1), lfsr := l, steps := r.steps + 1, ns := r.ns + stepNs p
    satCount := sat 32 (r.satCount + (out.map (·.2.2)).sum) }
  if p.sampleEn && (r.steps % 2 ^ p.sampleLog == 0 || r.steps == p.steps) then
    let sp := signsOf r.x
    let e := energy p sp
    let better := match r.best with | none => true | some b => decide (e < b.1)
    { r with ns := r.ns + stepNs p, best := if better then some (e, sp, r.steps - 1) else r.best }
  else r

/-- The continuous phase: steps until a boundary at which the run halts. -/
def continuous (p : Problem) (halt : Run → Bool) : Nat → Run → Run
  | 0, r => r
  | k + 1, r =>
    if halt r then { r with halted := true } else continuous p halt k (contStep p r)

/-- The spins from which a result or the polish starts (R414). -/
def startSpins (p : Problem) (r : Run) : List Bool :=
  match p.sampleEn, r.best with
  | true, some b => b.2.1
  | _, _ => signsOf r.x

/-- One class pass (R415, R417), variable by variable in index order. -/
def classPass (p : Problem) (c : Nat) (r : Run) : Run :=
  let out := (List.range p.n).foldl (fun (a : List Bool × Nat) i =>
    if p.colour.getD i 0 = c then
      let h := fieldSum p (signs a.1) i + p.bias.getD i 0
      let old := a.1.getD i false
      let new := if 0 < h then true else if h < 0 then false else old
      (a.1.set i new, a.2 + (old != new).toNat)
    else a) (r.spins, 0)
  { r with spins := out.1, flips := sat 24 (r.flips + out.2), passes := r.passes + 1, ns := r.ns + passNs p c }

/-- One sweep over the classes in ascending order, class pass by class pass. -/
def sweep (p : Problem) (halt : Run → Bool) (r : Run) : Run :=
  (List.range p.colours).foldl (fun r c =>
    if r.halted then r else if halt r then { r with halted := true } else classPass p c r) r

/-- The polish (R416): up to a number of sweeps, ending after one without a change. -/
def polish (p : Problem) (halt : Run → Bool) : Nat → Run → Run
  | 0, r => r
  | k + 1, r =>
    let t := sweep p halt r
    if t.halted then t
    else
      let t := { t with sweeps := t.sweeps + 1 }
      if t.spins = r.spins then t else polish p halt k t

/-- A whole run, or one that halts at the first step or class-pass boundary that a test names. -/
def runProblem (p : Problem) (seed : Nat) (halt : Run → Bool) : Run :=
  let r := continuous p halt p.steps (runInit p seed)
  let r := { r with spins := startSpins p r }
  let r := if !r.halted && halt r then { r with halted := true, phase := if 0 < p.sweeps then 1 else 2, eStart := some (energy p r.spins) }
    else if r.halted then r
    else
      let t := polish p halt p.sweeps { r with phase := 1, eStart := some (energy p r.spins) }
      { t with phase := if t.halted then 1 else 2 }
  { r with ns := r.ns + finalNs p }

/-- The result that a run reports (R438); E_START is free where no polish started. -/
def resultOf (p : Problem) (outcome : Nat) (r : Run) (free : Nat) : AResult :=
  { outcome := outcome, steps := r.steps, sweeps := r.sweeps, flips := r.flips
    eStart := r.eStart.getD (sgn 32 free), eFinal := energy p r.spins
    bestStep := match r.best with | some b => b.2.2 | none => 0
    satCount := r.satCount, ns := r.ns, spins := r.spins, pos := r.x }

/-! ### Slots and runs (R418, R419, R425, R426) -/

/-- The problem in a slot. -/
def slotProblem (s : State) (n : Nat) : Problem := problemOf (imWord (slotOf s n).image)

/-- Engine time of the run in progress, in ns. -/
def engineNs (s : State) : Nat := s.anneal.ran + (if s.anneal.paused then 0 else 2 * (s.reel.clock - s.anneal.since))

/-- A slot becomes DONE with a result; the engine is free again where it ran there. -/
def slotDone (n : Nat) (r : AResult) (fault : Option Nat) (s : State) : State :=
  let wasRunning := s.anneal.running == some n
  let s := modSlot n (fun x => { x with st := .done, result := r }) s
  let s := modAnneal (fun a =>
    if wasRunning then { a with running := none, paused := false, stopAt := none, faultAt := none, runs := sat 32 (a.runs + 1) }
    else { a with order := a.order.erase n }) s
  match fault with
  | some k => raise 0x0601 [(2, n), (21, k)] s
  | none => raise 0x0600 [(2, n), (4, r.outcome), (32, enc 32 r.eFinal)] s

/-- The run in a slot as it stands at an engine time: the first boundary at or after it. -/
def runUntil (s : State) (n ns : Nat) : Run :=
  runProblem (slotProblem s n) (slotOf s n).seed fun r => decide (ns ≤ r.ns)

/-- Draw a free value for E_START where the run needs one. -/
def finishRun (n outcome : Nat) (r : Run) (fault : Option Nat) (s : State) : State :=
  if r.eStart.isSome then slotDone n (resultOf (slotProblem s n) outcome r 0) fault s
  else
    let (v, s) := drawFree s
    slotDone n (resultOf (slotProblem s n) outcome r v) fault s

/-- A boundary of a run is that of the step or class pass at which the run's lasting parity error lies (R426). -/
def faultHere (p : Problem) (f : Option (Nat × Nat)) (r : Run) : Bool :=
  match f with
  | some (step, pass) => if r.phase = 0 && r.steps < p.steps then decide (step ≤ r.steps) else decide (pass ≤ r.passes)
  | none => false

/-- A run that halts at a test's boundary or at its lasting fault. -/
def runTo (s : State) (n : Nat) (halt : Run → Bool) : Run :=
  let p := slotProblem s n
  runProblem p (slotOf s n).seed fun r => halt r || faultHere p s.anneal.faultAt r

/-- A lasting parity error ends the run in a slot (R426): the state of the last completed step or pass, no polish. -/
def faultRun (n : Nat) (f : Nat × Nat) (r : Run) (s : State) : State :=
  let p := slotProblem s n
  let cont := r.phase = 0 && r.steps < p.steps
  finishRun n 2 (if cont then { r with spins := signsOf r.x } else r) (some (if cont then f.1 else f.2))
    (modAnneal (fun a => { a with lasting := sat 16 (a.lasting + 1) }) s)

/-- The run in a slot ends: with its fault where it halted there with no stop asked for, else stopped or complete. -/
def endRun (n : Nat) (r : Run) (stopped : Bool) (s : State) : State :=
  match s.anneal.faultAt with
  | some f => if r.halted && !stopped then faultRun n f r s else finishRun n (if r.halted then 1 else 0) r none s
  | none => finishRun n (if r.halted then 1 else 0) r none s

/-- ANNEAL_RUN_START: with the engine free the first QUEUED slot runs (R418, R419). `parity` is 1 for a parity error
that the repeat heals, 2 for a lasting one, met at a step or at a class pass of the polish (R426). -/
def execAnnealRunStart (parity atStep pass : Nat) (s : State) : Result :=
  act (fun s =>
    match s.anneal.running, s.anneal.order with
    | none, n :: rest =>
      if domainOn s 1 && (slotOf s n).st == .queued then
        let s := modSlot n (fun x => { x with st := .running }) s
        let s := modAnneal (fun a =>
          { a with
            order := rest, running := some n, paused := false, ran := 0, since := s.reel.clock, stopAt := none
            faultAt := if 2 ≤ parity then some (atStep, pass) else none }) s
        onlyIf (parity == 1) (modAnneal fun a => { a with transient := sat 16 (a.transient + 1) }) s
      else s
    | _, _ => s) s

/-- ANNEAL_DONE: the engine has had the time of the whole run (R416, R419, R420), or of what comes before its lasting
fault (R426). -/
def execAnnealDone (s : State) : Result :=
  act (fun s =>
    match s.anneal.running with
    | some n =>
      if s.anneal.stopAt.isSome || s.anneal.paused then s
      else
        let r := runTo s n fun _ => false
        if r.ns ≤ engineNs s + (if r.halted then finalNs (slotProblem s n) else 0) then endRun n r false s else s
    | none => s) s

/-- ANNEAL_STOP_EFFECT: the next step or class-pass boundary after the stop is reached (R425); where the run ends
first its result stands as OK. -/
def execAnnealStopEffect (s : State) : Result :=
  act (fun s =>
    match s.anneal.running, s.anneal.stopAt with
    | some n, some t =>
      let r := runTo s n fun r => decide (t ≤ r.ns)
      if s.anneal.paused || r.ns ≤ engineNs s + finalNs (slotProblem s n) then
        endRun n r (decide (t + finalNs (slotProblem s n) ≤ r.ns)) s
      else s
    | _, _ => s) s

/-- The annealing domain goes off (R419, R428). -/
def annealOff (s : State) : State :=
  let s := forAll (numbers 4 fun n => (slotOf s n).st != .empty) (fun n => raise 0x0602 [(2, n)]) s
  modAnneal (fun a => { a with slots := [], order := [], running := none, paused := false, stopAt := none, faultAt := none }) s

/-- The ledger pauses or resumes a RUNNING slot (R427): a pause takes effect at the next boundary. -/
def annealPause (on : Bool) (s : State) : State :=
  match s.anneal.running with
  | none => s
  | some n =>
    if on && s.anneal.paused then modAnneal (fun a => { a with paused := false, since := s.reel.clock }) s
    else if !on && !s.anneal.paused then
      let r := runUntil s n (engineNs s)
      modAnneal (fun a => { a with paused := true, ran := r.ns - finalNs (slotProblem s n) }) s
    else s

/-! ### Commands (R433 to R439) -/

def slotArg (c : Cmd) : Nat := fld (argW c 0) 31 30

/-- The engine has power (R428). -/
def annealOn (s : State) : Bool := domainOn s 1

/-- A range of words joined to the ranges covered. -/
def cover (a b : Nat) (l : List (Nat × Nat)) : List (Nat × Nat) :=
  let touch := l.filter fun r => decide (r.1 ≤ b) && decide (a ≤ r.2)
  let rest := l.filter fun r => !(decide (r.1 ≤ b) && decide (a ≤ r.2))
  (touch.foldl (fun m r => min m r.1) a, touch.foldl (fun m r => max m r.2) b) :: rest

/-- ANNEAL_LOAD (R423, R433). -/
def annealLoadBody (c : Cmd) (s : State) : Verdict :=
  let n := slotArg c
  let x := slotOf s n
  let off := fld (argW c 0) 21 0
  let bytes := fld (argW c 1) 11 0
  let data := (c.args.drop 8).take bytes
  let size := if off = 0 then imSize (wordLe data) else imSize (imWord x.image)
  let inUse := x.st == .queued || x.st == .running
  let reset := off == 0 && x.st != .loading
  argChecks [(0, off % 4 != 0), (4, bytes % 4 != 0 || decide (bytes < 4) || decide (3072 < bytes))] <|
    lenIs c (8 + bytes) <|
    argChecks [(4, off == 0 && decide (bytes < 64)), (0, (off == 0 || x.st != .empty) && decide (size < off + bytes))] <|
      check stPrecondition (!annealOn s || (off != 0 && x.st != .loading && !inUse)) <|
      check stNotNow inUse <|
        applied (modSlot n (fun x =>
          let x : Slot := if reset then { st := .loading } else x
          { x with image := tabWrite x.image off data, covered := cover off (off + bytes) x.covered }) s)

def execAnnealLoad (mb fails : Nat) (s : State) : Result := act (writeCommand 0x0600 mb fails annealLoadBody) s

/-- The first index below n that a test names, as a fault. -/
def firstAt (n : Nat) (p : Nat → Bool) : Option Nat := (List.range n).find? p

/-- The first error of an image, in the order of the table, with WHERE (R434). -/
def annealError (x : Slot) : Nat × Nat :=
  let w := imWord x.image
  let p := problemOf w
  let size := imSize w
  let head := fld (w 0) 31 24 != 1 || fld (w 0) 23 22 != 0 || fld (w 0) 7 6 != 0 || fld (w 1) 31 19 != 0 ||
    fld (w 2) 31 26 != 0 || fld (w 4) 15 4 != 0 || fld (w 5) 17 0 != 0 || ((List.range 8).any fun i => w (7 + i) != 0) ||
    decide (262144 < imCouplings w) || decide (1048576 < p.steps)
  let cw := couplingWord w
  let checks : List (Nat × Option Nat) :=
    [(1, if head then some 0 else none),
     (1, firstAt p.points.length fun i => fld (w (16 + 2 * i)) 31 21 != 0),
     (1, firstAt p.n fun i => fld (w (varWord i)) 8 6 != 0),
     (1, firstAt p.couplings.length fun i => fld (w (cw i)) 31 30 != 0 || fld (w (cw i)) 15 14 != 0 || fld (w (cw i + 1)) 31 5 != 0),
     (2, if x.covered.any fun r => r.1 == 0 && decide (size ≤ r.2) then none else some 0),
     (3, firstAt 32 fun i =>
       if i < p.points.length then
         (if i = 0 then (p.points.getD 0 (0, 0, 0)).1 != 0
          else decide ((p.points.getD i (0, 0, 0)).1 ≤ (p.points.getD (i - 1) (0, 0, 0)).1))
       else w (16 + 2 * i) != 0 || w (17 + 2 * i) != 0),
     (4, firstAt p.n fun i => p.bias.getD i 0 == -64),
     (5, firstAt p.n fun i => decide (p.colours ≤ p.colour.getD i 0)),
     (6, firstAt p.n fun i => decide (16384 < (p.xinit.getD i 0).natAbs)),
     (7, p.couplings.findIdx? fun c => decide (c.2.1 ≤ c.1) || decide (p.n ≤ c.2.1)),
     (8, firstAt p.couplings.length fun i =>
       let b := p.couplings.getD i (0, 0, 0)
       let a := p.couplings.getD (i - 1) (0, 0, 0)
       i != 0 && decide (b.1 * 65536 + b.2.1 ≤ a.1 * 65536 + a.2.1)),
     (9, p.couplings.findIdx? fun c => c.2.2 == 0 || c.2.2 == -16),
     (10, if crc32c (tabRead x.image 0 60 ++ zeros 4 ++ tabRead x.image 64 (size - 64)) == w 15 then none else some 0)]
  match checks.find? fun c => c.2.isSome with
  | some (e, i) => (e, i.getD 0)
  | none => (0, 0)

/-- The 12-byte result of ANNEAL_SEAL. -/
def annealSealResult (e wh conflicts size : Nat) : List Byte := leWords [put 31 24 e + put 23 0 wh, conflicts, size]

/-- ANNEAL_SEAL (R434); the result block is returned under every status. -/
def annealSealBody (c : Cmd) (s : State) : Verdict :=
  let n := slotArg c
  let x := slotOf s n
  let size := if x.st = .empty then 0 else imSize (imWord x.image)
  let res := annealSealResult 0 0 x.conflicts size
  if c.len ≠ 4 then .refuse stBadArg 0xFFF res
  else if !annealOn s then .refuse stPrecondition 0xFFF res
  else if x.st != .loading then .refuse stNotNow 0xFFF res
  else
    let (e, w) := annealError x
    let k := conflictCount (slotProblem s n)
    if e = 0 then .done stOk (annealSealResult 0 0 k size) (modSlot n (fun x => { x with st := .ready, conflicts := k }) s)
    else .refuse stBadArg 0xFFF (annealSealResult e w 0 size)

def execAnnealSeal (mb fails : Nat) (s : State) : Result := act (writeCommand 0x0601 mb fails annealSealBody) s

/-- The charge of a RUNNING slot per turn (R447). -/
def annealCharge : Nat := 491520

/-- A kind is deferred whatever the energy (R457, R458, R462, R467); during a warm restart every kind but the running
slot, which completes (R570). -/
def kindBlocked (s : State) (k : Nat) : Bool :=
  (s.tray.restart == .warming && decide (k < 5)) || s.power.sensorFault || s.power.coolantFault || (s.power.hotDefer.any fun n => n == 16 || n == 17) ||
    (!s.power.hotDefer.isEmpty && decide (k < 5)) || (s.pool.retrain && (k == 3 || k == 4))

/-- ANNEAL_RUN (R419, R427, R435, R449): refused where the annealing unit would be deferred in this turn. -/
def annealRunBody (c : Cmd) (s : State) : Verdict :=
  lenIs c 8 <|
    let n := slotArg c
    let x := slotOf s n
    check stPrecondition (!annealOn s) <|
      check stNotNow (x.st != .ready && x.st != .done) <|
      check stBudget (kindBlocked s 5 || decide (s.power.avail < (annealCharge : Int))) <|
        let seed := if bit (argW c 0) 29 then argW c 1 else (slotProblem s n).seed
        applied (modAnneal (fun a => { a with order := a.order ++ [n] })
          (modSlot n (fun x => { x with st := .queued, seed := seed, result := {} }) s))

def execAnnealRun (mb fails : Nat) (s : State) : Result := act (writeCommand 0x0602 mb fails annealRunBody) s

/-- ANNEAL_STOP (R425, R436): a QUEUED slot is DONE at once, with no result state but its initial positions (R439). -/
def annealStopBody (c : Cmd) (s : State) : Verdict :=
  lenIs c 4 <|
    let n := slotArg c
    let x := slotOf s n
    check stPrecondition (!annealOn s) <|
      check stNotNow (x.st != .queued && x.st != .running) <|
        if x.st = .queued then
          applied (slotDone n { outcome := 1, pos := (runInit (slotProblem s n) x.seed).x } none s)
        else if s.anneal.stopAt.isSome then applied s
        else applied (modAnneal (fun a => { a with stopAt := some (engineNs s) }) s)

def execAnnealStop (mb fails : Nat) (s : State) : Result := act (writeCommand 0x0603 mb fails annealStopBody) s

/-- ANNEAL_CLEAR (R419, R423, R436). -/
def annealClearBody (c : Cmd) (s : State) : Verdict :=
  lenIs c 4 <|
    let n := slotArg c
    let x := slotOf s n
    check stPrecondition (!annealOn s) <|
      check stNotNow (x.st != .loading && x.st != .ready && x.st != .done) (applied (modSlot n (fun _ => {}) s))

def execAnnealClear (mb fails : Nat) (s : State) : Result := act (writeCommand 0x0604 mb fails annealClearBody) s

def nCode : NState → Nat
  | .empty => 0 | .loading => 1 | .ready => 2 | .queued => 3 | .running => 4 | .done => 5

/-- PHASE and STEP of the run in progress (R437): the last boundary passed. -/
def annealProgress (s : State) : Nat × Nat :=
  match s.anneal.running with
  | none => (0, 0)
  | some n =>
    let p := slotProblem s n
    let next := fun (r : Run) => r.ns + (if r.phase = 0 && r.steps < p.steps then stepNs p else passNs p (r.passes % p.colours))
    let r := runProblem p (slotOf s n).seed fun r => decide (engineNs s < next r)
    (r.phase, if r.phase = 0 then r.steps else r.sweeps)

/-- ANNEAL_STATUS_GET's words (R437). -/
def annealWords (s : State) : List Nat :=
  let a := s.anneal
  let (phase, step) := annealProgress s
  [((List.range 4).map fun n => nCode (slotOf s n).st * 16 ^ n).sum,
   put 31 30 (a.running.getD 0) + put 29 29 a.running.isSome.toNat + put 28 28 a.paused.toNat + put 27 26 phase + put 20 0 step,
   a.runs, put 31 16 a.transient + put 15 0 a.lasting]

def annealStatusGetBody (c : Cmd) (s : State) : Verdict :=
  lenIs c 0 <| check stPrecondition (!annealOn s) (report (annealWords s) s)

def execAnnealStatusGet (mb fails : Nat) (s : State) : Result :=
  act (readCommand 0x0605 mb fails annealStatusGetBody) s

/-- Spins as words. -/
def spinWords (n : Nat) (spins : List Bool) : List Nat :=
  (List.range (ceilDiv n 32)).map fun w => maskOf (numbers 32 fun i => spins.getD (32 * w + i) false)

/-- ANNEAL_RESULT_GET's words (R438). -/
def resultWords (x : Slot) (n : Nat) : List Nat :=
  let r := x.result
  [put 31 28 r.outcome + put 20 0 r.steps, put 31 24 r.sweeps + put 23 0 r.flips, x.conflicts, enc 32 r.eStart,
   enc 32 r.eFinal, r.bestStep, r.satCount, sat 32 r.ns] ++ spinWords n r.spins

def annealResultGetBody (c : Cmd) (s : State) : Verdict :=
  lenIs c 4 <|
    let n := slotArg c
    let x := slotOf s n
    check stPrecondition (!annealOn s) <|
      check stNotNow (x.st != .done) (report (resultWords x (slotProblem s n).n) s)

def execAnnealResultGet (mb fails : Nat) (s : State) : Result :=
  act (readCommand 0x0606 mb fails annealResultGetBody) s

/-- ANNEAL_STATE_READ (R439). -/
def annealStateReadBody (c : Cmd) (s : State) : Verdict :=
  lenIs c 8 <|
    let x := slotOf s (slotArg c)
    check stPrecondition (!annealOn s) <|
      check stNotNow (x.st != .done) <|
        let got := (x.result.pos.drop (fld (argW c 1) 13 0)).take 1536
        .done stOk (leBytes 4 (put 31 16 got.length) ++ (got.flatMap fun v => leBytes 2 (enc 16 v))) s

def execAnnealStateRead (mb fails : Nat) (s : State) : Result :=
  act (readCommand 0x0607 mb fails annealStateReadBody) s

end Sys2Proof.Machine
end

