-- ==== Sys2Proof/Machine/Losses.lean ====
section
/-! DEFINITION. Loss notices (R235, R236, R242, R260): one notice per flow and turn of drops, and the notices that
name frames of this tray's HC-8. -/

namespace Sys2Proof.Machine

open Sys2Proof

/-- The oldest turn that has ended and of which a flow's losses still wait, with those losses. -/
def lossGroup (s : State) (flow : Nat) : Option (Nat × List Loss) :=
  match s.fwd.losses.find? fun l => l.flow == flow && decide (l.bound < s.reel.bounds) with
  | none => none
  | some l => some (l.bound, s.fwd.losses.filter fun m => m.flow == flow && m.bound == l.bound)

/-- How far b lies after a in flow order. -/
def seqAfter (a b : Nat) : Nat := (b + 65536 - a % 65536) % 65536

/-- The shortest span that covers the lost values: its start and its length (R260). -/
def lossSpan (seqs : List Nat) : Nat × Nat :=
  let reach := fun a => seqs.foldl (fun m b => max m (seqAfter a b)) 0
  match leastBy reach seqs with
  | some a => (a, reach a)
  | none => (0, 0)

/-- The CARG words of a notice (R260). -/
def lossArgs (flow : Nat) (ls : List Loss) : Nat × Nat × Nat × Nat :=
  let (first, len) := lossSpan (ls.map (·.seq))
  let map := maskOf (((ls.map fun l => seqAfter first l.seq).eraseDups).filter (· < 64))
  let h := ls.head?
  (put 31 20 (flow / 8 % 4096) + put 19 17 (flow % 8) + put 16 16 (decide (len < 64)).toNat +
     put 15 8 (h.elim 0 (·.reason)) + put 7 5 (h.elim 0 (·.cls)),
   put 31 16 first + put 15 0 ((first + len) % 65536), map / 2 ^ 32, map % 2 ^ 32)

/-- The FLOW_SEQ values that CARG words name (R260): MAP where EXACT, else the whole span. -/
def namedBy (c4 c5 c6 c7 seq : Nat) : Bool :=
  let d := seqAfter (fld c5 31 16) seq
  if bit c4 16 then decide (d < 64) && (c6 * 2 ^ 32 + c7).testBit d
  else decide (d ≤ seqAfter (fld c5 31 16) (fld c5 15 0))

/-- A loss among the HC-8's own frames goes to the recall or the collective that sent them (R236, R347, R383). -/
def ownLost (c4 c5 c6 c7 : Nat) (s : State) : State :=
  let dst := fld c4 31 20
  let chan := fld c4 19 17
  collLost dst chan (namedBy c4 c5 c6 c7) (recallLost dst chan (fld c4 7 5) (namedBy c4 c5 c6 c7) s)

/-- LOSS_NOTICE (R235, R236). -/
def execLossNotice (loss : Reading) (s : State) : Result :=
  let flow := loss.item
  act (withReads loss.reads fun s =>
    if !coreUp s then s
    else match lossGroup s flow with
      | none => s
      | some (b, ls) =>
        let s := modFwd (fun w => { w with losses := w.losses.filter fun l => !(l.flow == flow && l.bound == b) }) s
        let (c4, c5, c6, c7) := lossArgs flow ls
        let src := flow / 2 ^ 15
        if src = ownEid s then ownLost c4 c5 c6 c7 s
        else
          let (ok, t) := hc8Send (ctrlFrame (ownEid s) src 0 4 ((ls.head?.elim 0 (·.turn)) % 65536) c4 c5 c6 c7 []) s
          if ok then count (hc8Ctr 0) 1 t
          else noticeLost src s) s

/-- LOSS_NOTICE_RECEIVE (R236): a notice that another tray sent about this HC-8's frames. -/
def noticeArrive (f : Frame) (s : State) : State :=
  ownLost f.w4.toNat f.w5.toNat f.w6.toNat f.w7.toNat s

def execLossNoticeReceive (ifc : Reading) (s : State) : Result :=
  act (withReads ifc.reads (hc8Take ifc.item (fun f => f.cls == 0 && ctypeOf f == 4) noticeArrive)) s

end Sys2Proof.Machine
end

