-- ==== Sys2Proof/Machine/Power.lean ====
section
/-! DEFINITION. Power (11_power_ledger.md): calibration and sensors, the power domains, the levels and their frequency
steps, the ledger's turn, the voltage loop, coolant and sensor faults, and the power commands. -/

namespace Sys2Proof.Machine

open Sys2Proof

/-! ### Calibration (R21, R476, R477) -/

/-- The factory value of an item. -/
def calFactoryOf (i : Nat) : Int :=
  match i with
  | 0x25 => 95 | 0x26 => 100 | 0x27 => 110 | 0x28 => 85 | 0x29 => 90 | 0x2A => 100 | 0x2B => 5200
  | _ => sgn 16 (enc 16 (Config.calFactory i))

/-- The overlay range of an item. -/
def calRange (i : Nat) : Int × Int :=
  if i < 0x20 then (-32, 32) else if i = 0x20 then (-655, 655) else if i < 0x25 then (-10, 25)
  else if i < 0x2B then (-15, 0) else (-4200, 0)

/-- The effective range of an item. -/
def calLimits (i : Nat) : Int × Int :=
  if i < 0x20 then (-128, 128) else if i = 0x20 then (62259, 68813) else if i < 0x25 then (0, 50)
  else if i < 0x28 then (80, 110) else if i < 0x2B then (70, 100) else (1000, 5200)

/-- The factory value of the busbar gain, an unsigned half-word. -/
def calFactoryGain : Int := (enc 17 (Config.calFactory 0x20) : Nat)

def calBase (i : Nat) : Int := if i = 0x20 then calFactoryGain else calFactoryOf i

/-- The value in effect: the clamp of factory plus overlay (R21). -/
def calEffective (s : State) (i : Nat) : Int :=
  clampI (calLimits i).1 (calLimits i).2 (calBase i + tabGet 0 s.power.overlays i)

/-- The overlay as stored: one that awaits tick 0 before the one in effect. -/
def calStored (s : State) (i : Nat) : Int :=
  ((s.power.overlaysNext.reverse.find? fun e => e.1 == i).map (·.2)).getD (tabGet 0 s.power.overlays i)

/-- An overlay is stored; it takes effect at the next tick 0 (R476). -/
def calStore (i : Nat) (v : Int) (s : State) : State :=
  modPower (fun p => { p with overlaysNext := (p.overlaysNext.filter fun e => e.1 != i) ++ [(i, v)] }) s

/-! ### Sensors (R475) -/

/-- The calibrated value of a raw reading. -/
def sensorCal (s : State) (n : Nat) (raw : Int) : Int := satI 16 (raw + calEffective s n)

/-- The calibrated value of a sensor, where it has a valid reading. -/
def sensorValue (s : State) (n : Nat) : Option Int :=
  let (raw, valid) := tabGet (0, false) s.power.sensors n
  if valid then some (sensorCal s n raw) else none

/-- The turns over which the coolant inlet must be stable (R466). -/
def inletTurns : Nat := 976563

/-- The inlet readings that still count: those of the last 8 s and the one before them. -/
def inletKeep (now : Nat) : List (Nat × Int) → List (Nat × Int)
  | [] => []
  | e :: t => if e.1 + inletTurns ≤ now then [e] else e :: inletKeep now t

/-- A sensor is read. -/
def sensorSet (n : Nat) (raw : Int) (s : State) : State :=
  let s := modPower (fun p => { p with sensors := tabSet (0, false) p.sensors n (raw, true) }) s
  if n = 26 then
    modPower (fun p => { p with inlet := inletKeep s.reel.bounds ((s.reel.bounds, sensorCal s 26 raw) :: p.inlet) }) s
  else s

/-- The readings of the window with the turns for which each stood, newest first. -/
def inletSpans (now start : Nat) : Nat → List (Nat × Int) → List (Nat × Int)
  | _, [] => []
  | upto, e :: t => (upto - max start e.1, e.2) :: inletSpans now start (min upto (max start e.1)) t

/-- The inlet has stayed within 0.5 °C (4 units) of its mean for the last 8 s (R466). -/
def inletStable (s : State) : Bool :=
  let now := s.reel.bounds
  let l := inletKeep now s.power.inlet
  let spans := inletSpans now (now - inletTurns) now l
  let total : Int := (spans.map fun e => (e.1 : Int) * e.2).sum
  (l.getLast?.any fun e => decide (e.1 + inletTurns ≤ now)) &&
    spans.all fun e => decide (e.2 * inletTurns - total ≤ 4 * inletTurns) && decide (total - e.2 * inletTurns ≤ 4 * inletTurns)

/-! ### Power domains (R441 to R444, R464) -/

/-- The on-charge of a domain in W. -/
def onCharge (d : Nat) : Nat :=
  match d with
  | 0 => 150 | 1 => 5 | 2 => 60 | 3 => 60 | 8 => 16 | 9 => 80
  | _ => 100

/-- The ready time of a domain in ticks. -/
def readyTicks (d : Nat) : Nat :=
  match d with
  | 1 => 500000 | 2 => 100000000 | 3 => 100000000 | 8 => 5000000 | 9 => 1000000000
  | _ => 25000000

/-- DOMAIN_STATE causes (R654). -/
def causeCommand : Nat := 0
def causeBoot : Nat := 1
def causePowerDown : Nat := 2
def causeTrip : Nat := 3
def causeRampTimeout : Nat := 4
def causeBrownOut : Nat := 5

/-- DOMAIN_STATE (R479). -/
def raiseDomain (d cause : Nat) (s : State) : State := raise 0x0707 [(4, d), (8, cause)] s

/-- A pool half loses power: stall pages and staging (R390), scratch (R349) and spilled frames; spill does without the half
until the tray next leaves STANDBY (R204). -/
def poolHalfLost (half : Nat) (s : State) : State :=
  let s := modFwd (fun w => { w with spillOut := w.spillOut.filter (· != half) ++ [half] }) (collHalfLost half (stallHalfLost half s))
  forAll (List.range 4) (fun a s =>
    let lost := (spillOf s a).pages.filter fun g => pageHalf g.page == half
    let s := modSpill a (fun sp => { sp with pages := sp.pages.filter fun g => pageHalf g.page != half }) s
    forAll (lost.flatMap (·.frames)) (fun e s => retire a e.2 (dropFrame dropSpillLost (e.1 / 8) e.2.f s)) s) s

/-- A domain is switched off: what it holds is lost (R428, R204, R246, R349, R390). -/
def domainOff (d cause : Nat) (s : State) : State :=
  if !s.power.on.contains d then s
  else
    let s := modPower (fun p => { p with
      on := p.on.filter (· != d), ramping := if p.ramping = some d then none else p.ramping }) s
    let s := raiseDomain d cause s
    if d = 1 then annealOff s
    else if d = 2 then poolHalfLost 0 s
    else if d = 3 then poolHalfLost 1 s
    else if 4 ≤ d && d ≤ 7 then asicDown (d - 4) s
    else s

/-- A domain is switched on and ramps (R441, R442). -/
def domainStart (d cause : Nat) (s : State) : State :=
  raiseDomain d cause (modPower (fun p => { p with on := p.on ++ [d], ramping := some d }) s)

/-- A switch-on exceeds the cap less the mean measured power of the last 64 turns (R443). -/
def overBudget (s : State) (d : Nat) : Bool :=
  let h := s.power.history
  if h.isEmpty then decide (s.power.cfg.cap < onCharge d)
  else decide (s.power.cfg.cap * 8192 * h.length < onCharge d * 8192 * h.length + h.sum)

/-- A switch-off that R441 forbids. -/
def offForbidden (s : State) (d : Nat) : Bool :=
  if d = 0 then true
  else if d = 2 || d = 3 then s.tray.st != .standby
  else if 4 ≤ d && d ≤ 7 then (asicSt s (d - 4)).st == .admitted
  else if d = 9 then s.power.on.any fun k => decide (k ≤ 8)
  else false

/-- POWER_DOMAIN_SET (R472). -/
def powerDomainSetBody (c : Cmd) (s : State) : Verdict :=
  lenIs c 4 <|
    let d := fld (argW c 0) 3 0
    let on := bit (argW c 0) 8
    let isOn := s.power.on.contains d
    argChecks [(0, decide (10 ≤ d))] <|
      check stPrecondition (!on && isOn && offForbidden s d) <|
      check stBusy ((s.mail.long.any fun l => l.opcode == 0x0702) || (on && !isOn && s.power.ramping.isSome)) <|
      check stBudget (on && !isOn && overBudget s d) <|
      if on && !isOn then .start 0 (2 * readyTicks d) (domainStart d causeCommand s)
      else if on then applied s
      else applied (domainOff d causeCommand s)

def execPowerDomainSet (mb fails : Nat) (s : State) : Result := act (writeCommand 0x0702 mb fails powerDomainSetBody) s

/-! ### Levels and frequency steps (R451, R452, R455, R463) -/

/-- The level in effect under R451: the lowest frequency, so the greatest code. -/
def targetLevel (s : State) : Nat := max s.power.setLevel (max s.power.ledgerLevel s.power.thermalLevel)

/-- The tray places a step at the first turn from now + 4 on that holds none (R452). -/
def placeStep (reason : Nat) (s : State) : State :=
  let turn := ((List.range (s.sched.length + 1)).findSome? fun j =>
    let t := (s.reel.turn + 4 + j) % 2 ^ 48
    if schedTaken .freqStep 0 t s then none else some t).getD ((s.reel.turn + 4) % 2 ^ 48)
  schedAdd ⟨.freqStep, 0, turn, 0, true, .freq 0 reason⟩ s

/-- A change of the ledger or thermal level; where it changes the level in effect, a step is placed. -/
def withLevels (reason : Nat) (f : Power → Power) (s : State) : State :=
  let t := modPower f s
  if targetLevel t = targetLevel s then t else placeStep reason t

/-- At least 64 turns have passed since a level's last step (R451). -/
def stepFree (s : State) : Option Nat → Bool
  | none => true
  | some t => decide (t + 64 ≤ s.reel.bounds)

/-- The thermal level steps down, at most once per 64 turns (R451). -/
def thermalDown (reason : Nat) (s : State) : State :=
  if s.power.thermalLevel < 2 && stepFree s s.power.thermalStepAt then
    withLevels reason (fun p => { p with thermalLevel := p.thermalLevel + 1, thermalStepAt := some s.reel.bounds, coolRun := 0 }) s
  else s

/-- The core voltage of an ASIC in mV: the factory target of the level where the loop has set none (R454, R471). -/
def vddOf (s : State) (a : Nat) : Nat :=
  match tabGet 0 s.power.vdd a with
  | 0 => Config.vddFactory a s.power.level 0 % 2 ^ 16
  | v => v

def setVdd (a mv : Nat) (s : State) : State := modPower (fun p => { p with vdd := tabSet 0 p.vdd a (mv % 2 ^ 16) }) s

/-- Every ASIC's voltage goes to the factory target of a level (R455). -/
def vddTarget (level : Nat) (s : State) : State :=
  forAll (List.range 4) (fun a s =>
    modPower (fun p => { p with avsTarget := tabSet 0 p.avsTarget a 0 }) (setVdd a (Config.vddFactory a level 0) s)) s

/-- A frequency step at its turn (R92, R451, R463): the set level where the driver named it, then the level in effect;
where that differs, egress pauses, FREQ_STEPPED is raised and the voltages follow. -/
def applyFreqStep (a : Sched) (s : State) : State :=
  let s := match a.arg, a.trayPlaced with
    | .freq l _, false => modPower (fun p => { p with setLevel := l }) s
    | _, _ => s
  let reason := match a.arg, a.trayPlaced with
    | .freq _ r, true => r
    | _, _ => 0
  let old := s.power.level
  let new := targetLevel s
  if old = new then s
  else
    let s := modPower (fun p => { p with level := new, freqAt := some s.reel.bounds }) (modReel (fun r => { r with freqPause := true }) s)
    count (powerCtr 8) 1 (raise 0x0702 [(2, old), (2, new), (8, reason)] (vddTarget new s))

/-- FREQ_STEP: step 3 of R75. -/
def execFreqStep (s : State) : Result :=
  act (fun s =>
    match dueAction .freqStep none s with
    | some a => applyFreqStep a (schedRemove a s)
    | none => s) s

/-- FREQ_STEP_EGRESS_RESUME: the new clock is stable (R92). -/
def execFreqStepEgressResume (s : State) : Result := act (modReel fun r => { r with freqPause := false }) s

/-- POWER_FREQ_SET (R473). -/
def powerFreqSetBody (c : Cmd) (s : State) : Verdict :=
  lenIs c 12 <|
    let level := fld (argW c 0) 1 0
    let turn := argTurn c 1
    argChecks [(0, level == 3), (4, turnTooFar turn s)] <|
      check stPrecondition (untimed s) <|
      check stNotNow (turnTooNear turn s || schedTaken .freqStep 0 turn s) <|
      check stNoRoom (schedFull s) (applied (schedAdd ⟨.freqStep, 0, turn, 0x0703, false, .freq level 0⟩ s))

def execPowerFreqSet (mb fails : Nat) (s : State) : Result := act (writeCommand 0x0703 mb fails powerFreqSetBody) s

/-! ### The ledger's turn (R445 to R450, R453) -/

/-- The credit of a turn in nJ (R445). -/
def turnCredit (s : State) : Nat := s.power.cfg.cap * 8192

def balanceFloor (s : State) : Int := -2 * (s.power.cfg.debt : Int) * turnCredit s
def balanceBank (s : State) : Int := (s.power.cfg.bank : Int) * turnCredit s

/-- The balance within its bounds (R445). -/
def clampBalance (s : State) (b : Int) : Int := clampI (balanceFloor s) (balanceBank s) b

/-- B is below the debt limit. -/
def belowDebt (s : State) : Bool := decide (s.power.balance < -((s.power.cfg.debt : Int) * turnCredit s))

/-- The busy plane packers, ascending (R369): those with a full block that is not packed. -/
def busyPackers (s : State) : List Nat :=
  numbers 16 fun k => s.pool.stalls.any fun e => e.2.st == .filling &&
    e.2.staged.any fun b => (e.1 + b.1) % 16 == k && b.2.packed.isNone && b.2.units.length == 64

/-- The deferrable units that have work, in the order of R447: kind, number and charge. -/
def powerUnits (s : State) : List (Nat × Nat × Nat) :=
  ((List.range s.pool.recalls.length).filter fun i => (s.pool.recalls[i]?).any fun r => r.handedAt.isNone).map (fun i => (0, i, 65536)) ++
    (busyPackers s).map (fun k => (1, k, 49152)) ++
    (if s.pool.copying.any fun c => c.2.2 then [(2, 0, 32768)] else []) ++
    (if s.pool.copying.any fun c => !c.2.2 then [(3, 0, 32768)] else []) ++
    (if firmwarePages s = 0 && (pagesInUse s).isEmpty then [] else [(4, 0, 16384)]) ++
    (if s.anneal.running.isSome then [(5, 0, annealCharge)] else [])

/-- Grants in order (R448): the units deferred, what is left, and the charges granted. -/
def grantUnits (blocked : Nat → Bool) : Int → List (Nat × Nat × Nat) → List (Nat × Nat) × Int × Nat
  | avail, [] => ([], avail, 0)
  | avail, (k, i, c) :: t =>
    if !blocked k && decide ((c : Int) ≤ avail) then
      let (d, a, g) := grantUnits blocked (avail - c) t
      (d, a, g + c)
    else
      let (d, a, g) := grantUnits blocked avail t
      ((k, i) :: d, a, g)

/-- The grants of a turn reach their units (R447). -/
def applyGrants (deferred : List (Nat × Nat)) (s : State) : State :=
  let off := fun (k : Nat) => kindBlocked s k || deferred.any fun d => d.1 == k
  let s' := modPool (fun p => { p with recalls :=
    (List.range p.recalls.length).filterMap fun i => (p.recalls[i]?).map fun r =>
      { r with granted := !(kindBlocked s 0 || deferred.contains (0, i)) } }) s
  let packers := if kindBlocked s 1 then List.range 16 else (deferred.filter fun d => d.1 == 1).map (·.2)
  annealPause (!off 5) (modPower (fun p =>
    { p with packers := packers, copyGranted := !off 2, migrateGranted := !off 3, patrolGranted := !off 4 }) s')

/-- Lane energy of a turn in nJ (R450): every lane of a port end that is not DARK. -/
def laneEnergy (s : State) : Nat :=
  (s.ports.map fun e =>
    if e.2.st = .dark then 0
    else laneCount e.2 * (if e.2.txIdle then 1024 else match e.2.set.rate with | 0 => 10240 | 1 => 6144 | _ => 4096)).sum

/-- The energy of a turn reported as BASE (R450): lanes and domain on-charges. -/
def baseEnergy (s : State) : Nat := laneEnergy s + (s.power.on.map fun d => onCharge d * 8192).sum

/-- Every ASIC junction sensor stands at or below JUNCTION_STEP − 5 °C (R451). -/
def junctionsCool (s : State) : Bool :=
  (List.range 16).all fun n => (sensorValue s n).all fun v => decide (v ≤ 8 * (calEffective s 0x26 - 5))

/-- Some ASIC junction sensor stands at or above JUNCTION_STEP (R451). -/
def junctionHot (s : State) : Bool :=
  (List.range 16).any fun n => (sensorValue s n).any fun v => decide (8 * calEffective s 0x26 ≤ v)

/-- BALANCE_UJ: rounded toward zero (R471). -/
def balanceUj (s : State) : Nat := enc 32 (satI 32 (s.power.balance.tdiv 1000))

/-- The ledger's own level (R451): down below the debt limit, up after B has equalled BANK for RECOVER_TURNS turns. -/
def ledgerLevelTurn (s : State) : State :=
  let atBank := s.power.balance = balanceBank s
  let s := modPower (fun p => { p with bankRun := if atBank then p.bankRun + 1 else 0 }) s
  if belowDebt s && s.power.ledgerLevel < 2 && stepFree s s.power.ledgerStepAt then
    withLevels 1 (fun p => { p with ledgerLevel := p.ledgerLevel + 1, ledgerStepAt := some s.reel.bounds }) s
  else if s.power.cfg.recover ≤ s.power.bankRun && s.power.setLevel < s.power.ledgerLevel then
    withLevels 1 (fun p => { p with ledgerLevel := p.ledgerLevel - 1, bankRun := 0 }) s
  else s

/-- OVER and POWER_OVER (R453). -/
def overTurn (wasLow : Bool) (s : State) : State :=
  let isOver := wasLow && belowDebt s
  let s := modPower (fun p => { p with overCap := isOver }) s
  let due := match s.power.overCapAt with | none => true | some t => decide (t + 1024 ≤ s.reel.bounds)
  if isOver && due then
    raise 0x0701 [(32, balanceUj s)] (modPower (fun p => { p with overCapAt := some s.reel.bounds }) s)
  else s

/-- Ahead of a step up the voltage is raised to the new level's factory target (R455). -/
def vddAhead (s : State) : State :=
  let soon := s.sched.any fun a => a.kind == .freqStep && decide (tsub a.turn s.reel.turn ≤ 4)
  let new := (s.sched.filterMap fun a => match a.kind, a.arg, a.trayPlaced with
    | .freqStep, .freq l _, false => if tsub a.turn s.reel.turn ≤ 4 then some l else none
    | _, _, _ => none).foldl (fun _ l => l) s.power.setLevel
  let level := max new (max s.power.ledgerLevel s.power.thermalLevel)
  if soon && level < s.power.level then vddTarget level s else s

/-- The measured energy of a turn, after calibration; the last valid one where there is no reading (R448, R462). -/
def measuredOf (s : State) (raw : Option Nat) : Nat :=
  match raw with
  | some r => r * (calEffective s 0x20).toNat / 65536
  | none => s.power.measured

/-- LEDGER_TURN: at tick 0 of every turn, after every change of R75 (R448). -/
def ledgerTurnStep (raw : Option Nat) (s : State) : State :=
  let m := measuredOf s raw
  let s := modPower (fun p =>
    { p with
      goodRun := if raw.isSome then p.goodRun + 1 else 0, badRun := if raw.isSome then 0 else p.badRun + 1 }) s
  let s := modPower (fun p => { p with sensorFault := p.sensorFault && decide (p.goodRun < 16) }) s
  let f := m - s.power.granted
  let b := clampBalance s (s.power.balance + turnCredit s - m)
  let avail : Int := b + turnCredit s - f
  let (deferred, left, granted) := grantUnits (kindBlocked s) avail (powerUnits s)
  let mask := maskOf ((deferred.map (·.1)).eraseDups)
  let wasLow := s.power.ledgerLevel == 2
  let before := s.power.deferred
  let cool := junctionsCool s
  let s := applyGrants deferred s
  let s := modPower (fun p =>
    { p with
      balance := b, forced := f, measured := m, history := (m :: p.history).take 64, avail := left
      granted := granted, deferred := mask, coolRun := if cool then p.coolRun + 1 else 0
      deferTurns := if mask = 0 then p.deferTurns else sat 16 (p.deferTurns + 1) }) s
  let s := countWin (powerCtr 5) (baseEnergy s) (countWin (powerCtr 6) m s)
  let s := if mask = 0 then s else
    onlyIf (before == 0) (raise 0x0700 [(6, mask)]) (count (powerCtr 7) 1 s)
  let s := onlyIf (junctionHot s && s.tray.restart != .warming) (thermalDown 2) s
  if s.tray.restart = .warming then s else vddAhead (overTurn wasLow (ledgerLevelTurn s))

def execLedgerTurn (raw : Option Nat) (s : State) : Result :=
  act (fun s =>
    if coreUp s && s.reel.tick == 0 && firstThisTurn (eventKey 0x0D01) s && !(s.sched.any (schedDue s)) then
      ledgerTurnStep raw (useTurn (eventKey 0x0D01) s)
    else s) s

/-! ### Faults and recovery (R451, R457, R458, R462) -/

/-- SENSOR_FAULT (R462). -/
def execSensorFault (s : State) : Result :=
  act (fun s =>
    if 16 ≤ s.power.badRun && !s.power.sensorFault then
      raise 0x0708 [] (modPower (fun p => { p with sensorFault := true }) s)
    else s) s

/-- The minimum coolant flow in 0.01 L/min (17_electrical_mechanical.md). -/
def minFlow : Int := 800

/-- COOLANT_FAULT (R458): the flow, a reading of sensor 30, has stayed below the minimum for `turns` turns. -/
def execCoolantFault (flow turns : Nat) (s : State) : Result :=
  act (fun s =>
    if coreUp s && !s.power.coolantFault && decide (sensorCal s 30 flow < minFlow) && decide (244141 ≤ turns) then
      let s := sensorSet 30 flow s
      let s := stick 25 <| raise 0x0705 [(16, enc 16 (sensorCal s 30 flow))] (modPower (fun p => { p with coolantFault := true }) s)
      withLevels 3 (fun p => { p with thermalLevel := 2, coolRun := 0 }) s
    else s) s

/-- COOLANT_RECOVERY (R458): flow at or above the minimum for 8 s. -/
def execCoolantRecovery (flow turns : Nat) (s : State) : Result :=
  act (fun s =>
    if s.power.coolantFault && decide (minFlow ≤ sensorCal s 30 flow) && decide (inletTurns ≤ turns) then
      sensorSet 30 flow (modPower (fun p => { p with coolantFault := false, coolRun := 0 }) s)
    else s) s

/-- THERMAL_RECOVERY (R451): the thermal level steps up one level, never above the set level. -/
def execThermalRecovery (s : State) : Result :=
  act (fun s =>
    if s.power.cfg.recover ≤ s.power.coolRun && s.power.setLevel < s.power.thermalLevel && !s.power.coolantFault then
      withLevels 2 (fun p => { p with thermalLevel := p.thermalLevel - 1, coolRun := 0 }) s
    else s) s

/-! ### The voltage loop (R454 to R456) -/

/-- The loop may not act: 4 turns before a frequency step until 16 turns after it (R455). -/
def avsQuiet (s : State) : Bool :=
  (s.sched.any fun a => a.kind == .freqStep && decide (tsub a.turn s.reel.turn ≤ 4)) ||
    match s.power.freqAt with
    | some t => decide (s.reel.bounds ≤ t + 16)
    | none => false

/-- One change of at most 5 mV toward the target, 16 turns after the last (R454). -/
def avsMove (a : Nat) (s : State) : State :=
  let target := tabGet 0 s.power.avsTarget a
  let v := vddOf s a
  let free := match tabGet 0 s.power.avsMoved a with | 0 => true | t => decide (t + 15 ≤ s.reel.bounds)
  if target = 0 || target = v || !free then s
  else
    let next := if v < target then min target (v + 5) else max target (v - 5)
    count (powerCtr 9) 1 (setVdd a next (modPower (fun p => { p with avsMoved := tabSet 0 p.avsMoved a (s.reel.bounds + 1) }) s))

/-- The reading of the delay monitors, once every 1,024 turns (R454, R456). -/
def avsRead (a needed : Nat) (s : State) : State :=
  let level := s.power.level
  let bottom := Config.vddFactory a level 1
  let top := Config.vddFactory a level 2
  let want := needed + (calEffective s (0x21 + a)).toNat
  let s := modPower (fun p => { p with
    avsAt := tabSet 0 p.avsAt a (s.reel.bounds + 1), avsTarget := tabSet 0 p.avsTarget a (min top (max bottom want)) }) s
  if top < want then thermalDown 4 (raise 0x0706 [(2, a)] s) else s

/-- AVS_UPDATE: a reading where one is due, and a change toward the target (R454). `needed` is the lowest voltage in mV
at which the monitors pass at the level in effect. -/
def execAvsUpdate (asic needed : Nat) (s : State) : Result :=
  act (fun s =>
    if asic < 4 && domainOn s (4 + asic) && !avsQuiet s && fwUp s then
      let due := match tabGet 0 s.power.avsAt asic with | 0 => true | t => decide (t + 1023 ≤ s.reel.bounds)
      avsMove asic (if due then avsRead asic needed s else s)
    else s) s

/-! ### Settings and status (R465, R470, R471, R474, R475) -/

/-- POWER_CONFIG_SET's block of the values in effect (R470). -/
def powerCfgWords (p : PowerCfg) : List Nat :=
  [put 12 0 p.cap, put 28 16 p.bank + put 10 0 p.debt, put 15 0 p.recover, put 23 16 p.imbalance + put 15 0 p.migrate]

/-- POWER_CONFIG_SET (R470): cap, bank and debt take effect at the next tick 0, B is clamped to their bounds at once
(R465). -/
def powerConfigSetBody (c : Cmd) (s : State) : Verdict :=
  lenIs c 16 <|
    if bit (argW c 0) 31 then report (powerCfgWords s.power.cfg) s
    else
      let n : PowerCfg :=
        { cap := fld (argW c 0) 12 0, bank := fld (argW c 1) 28 16, debt := fld (argW c 1) 10 0
          recover := fld (argW c 2) 15 0, imbalance := fld (argW c 3) 23 16, migrate := fld (argW c 3) 15 0 }
      argChecks [(0, decide (n.cap < 1000) || decide (calEffective s 0x2B < n.cap)),
          (4, decide (4096 < n.bank) || decide (1024 < n.debt)), (8, decide (n.recover < 16)),
          (12, decide (n.imbalance < 10) || decide (100 < n.imbalance))] <|
        let t := modPower (fun p => { p with
          balance := clampBalance (modPower (fun p => { p with cfg := n }) s) p.balance
          cfg := { p.cfg with recover := n.recover, imbalance := n.imbalance, migrate := n.migrate }, cfgNext := some n }) s
        report (powerCfgWords t.power.cfg) t

def execPowerConfigSet (mb fails : Nat) (s : State) : Result := act (configCommand 0x0700 mb fails powerConfigSetBody) s

/-- What tick 0 puts in effect (R465, R476): settings and overlays. -/
def powerBoundary (s : State) : State :=
  let s := match s.power.cfgNext with
    | some n => modPower (fun p => { p with cfg := n, cfgNext := none }) s
    | none => s
  modPower (fun p => { p with
    overlays := p.overlaysNext.foldl (fun t e => tabSet 0 t e.1 e.2) p.overlays, overlaysNext := [] }) s

/-- POWER_STATUS_GET's words (R471). -/
def powerWords (s : State) : List Nat :=
  let p := s.power
  let uj := fun (k : Nat) => sat 32 (windowed s (powerCtr k) / 1000)
  [put 31 30 p.level + put 29 28 p.setLevel + put 27 27 p.overCap.toNat + put 26 26 p.sensorFault.toNat +
     put 25 25 p.coolantFault.toNat + put 24 24 (decide (p.setLevel < p.thermalLevel)).toNat + put 5 0 p.deferred,
   balanceUj s, put 31 16 (sat 16 (p.forced / 8192)) + put 15 0 (sat 16 (p.measured / 8192)),
   put 31 16 p.deferTurns + put 9 0 (maskOf p.on), uj 0, uj 1, uj 2, uj 3, uj 4, uj 5,
   put 31 16 (vddOf s 0) + put 15 0 (vddOf s 1), put 31 16 (vddOf s 2) + put 15 0 (vddOf s 3)]

def powerStatusGetBody (c : Cmd) (s : State) : Verdict := lenIs c 0 (report (powerWords s) s)

def execPowerStatusGet (mb fails : Nat) (s : State) : Result := act (readCommand 0x0701 mb fails powerStatusGetBody) s

/-- The port ends that POWER_IDLE_SET names (R474). -/
def idlePorts (c : Cmd) : List Nat :=
  if bit (argW c 1) 16 then
    let a := fld (argW c 0) 8 7
    if bit (argW c 0) 11 then (List.range 8).map fun i => hc8End (unitOf a (72 + i)) else asicPorts a
  else [paUnit c]

/-- POWER_IDLE_SET (R474). -/
def powerIdleSetBody (c : Cmd) (s : State) : Verdict :=
  lenIs c 8 <|
    let mode := fld (argW c 1) 1 0
    argChecks [(0, !bit (argW c 1) 16 && paBad c), (4, mode == 3)] <|
      applied (forAll (idlePorts c) (fun u => modPunit u fun p => { p with idleMode := mode }) s)

def execPowerIdleSet (mb fails : Nat) (s : State) : Result := act (writeCommand 0x0704 mb fails powerIdleSetBody) s

/-- SENSOR_READ's words (R475). -/
def sensorWords (s : State) : List Nat :=
  (List.range 32).map fun n =>
    let (raw, valid) := tabGet (0, false) s.power.sensors n
    put 31 16 (enc 16 (sensorCal s n raw)) + put 0 0 valid.toNat

def sensorReadBody (c : Cmd) (s : State) : Verdict := lenIs c 0 (report (sensorWords s) s)

def execSensorRead (mb fails : Nat) (s : State) : Result := act (readCommand 0x0705 mb fails sensorReadBody) s

/-! ### Calibration commands (R466 to R468, R476, R478) -/

def calItem (c : Cmd) : Nat := fld (argW c 0) 7 0

/-- POWER_CAL_SET (R476); BUSY while a calibration runs (R601). -/
def powerCalSetBody (c : Cmd) (s : State) : Verdict :=
  lenIs c 8 <|
    let i := calItem c
    let v := sgn 16 (fld (argW c 1) 15 0)
    argChecks [(0, decide (0x2C ≤ i)), (4, decide (v < (calRange i).1) || decide ((calRange i).2 < v))] <|
      check stBusy ((longOp s 0x0708).isSome) (applied (calStore i v s))

def execPowerCalSet (mb fails : Nat) (s : State) : Result := act (writeCommand 0x0706 mb fails powerCalSetBody) s

/-- POWER_CAL_GET (R476). -/
def powerCalGetBody (c : Cmd) (s : State) : Verdict :=
  lenIs c 4 <|
    let i := calItem c
    argChecks [(0, decide (0x2C ≤ i))] <|
      report [put 31 16 (enc 16 (calBase i)) + put 15 0 (enc 16 (calStored s i)), put 31 16 (enc 16 (calEffective s i))] s

def execPowerCalGet (mb fails : Nat) (s : State) : Result := act (readCommand 0x0707 mb fails powerCalGetBody) s

/-- The pool halves are idle (R467). -/
def poolIdle (s : State) : Bool :=
  s.tray.st == .standby && (s.pool.stalls.all fun e => e.2.st != .filling && e.2.st != .recalling) &&
    ((List.range 4).all fun a => (spilledOf s a).isEmpty) && s.twine.insts.all fun e => e.2.st == .free

/-- POWER_CAL_RUN (R466, R467, R478): a long command of at most 3 s; its subject records the target. -/
def powerCalRunBody (c : Cmd) (s : State) : Verdict :=
  lenIs c 4 <|
    let target := fld (argW c 0) 1 0
    argChecks [(0, decide (2 ≤ target))] <|
      check stPrecondition (if target = 0 then s.tray.st != .standby || !inletStable s else !poolIdle s) <|
      check stBusy ((longOp s 0x0708).isSome) <|
      .start target 1500000000 (if target = 1 then modPool (fun p => { p with retrain := true }) s else s)

def execPowerCalRun (mb fails : Nat) (s : State) : Result := act (writeCommand 0x0708 mb fails powerCalRunBody) s

/-- CAL_DONE (R479). -/
def raiseCalDone (l : Long) (status : Nat) (s : State) : State :=
  raise 0x0709 [(2, l.subject), (8, status)] (modPool (fun p => { p with retrain := false }) s)

/-- The trim's result (R466): each sensor 0 to 25 reads the inlet temperature plus its factory idle rise. -/
def trimSensors (readings : List Int) (s : State) : State :=
  let inlet := (sensorValue s 26).getD 0
  forAll (List.range 26) (fun n =>
    calStore n (clampI (-32) 32 (inlet + Config.idleRise n - (readings.getD n 0) - calFactoryOf n))) s

/-- CAL_DONE (R466 to R468). `readings` are the raw values that a trim measured for 1 s. A calibration that fails is
run once more: `attempts` 3 marks that second run. -/
def execCalDone (ok inletHeld : Bool) (readings : List Int) (s : State) : Result :=
  act (fun s =>
    match longOp s 0x0708 with
    | none => s
    | some l =>
      let shown : Long := { l with attempts := min l.attempts 2 }
      let gone := modMail (fun m => { m with long := (m.long.erase l) ++ [shown] }) s
      if l.subject = 0 && decide (s.reel.clock + 1000000000 < l.limit) then s
      else if l.subject = 0 && !inletHeld then endLong shown stPrecondition [] (raiseCalDone l stPrecondition gone)
      else if ok then
        let t := if l.subject = 0 then trimSensors readings gone else gone
        endLong shown stOk [] (raiseCalDone l stOk (onlyIf (l.attempts == 3) (noteTransient 1) t))
      else if l.attempts = 1 then
        modMail (fun m => { m with long := m.long.map fun x => if x = l then { x with attempts := 3 } else x }) s
      else endLongFault shown [] (raiseCalDone l stFault gone)) s

end Sys2Proof.Machine
end

