-- ==== Sys2Proof/Machine/Crier.lean ====
section
/-! DEFINITION. Crier and the domain ledger (12_crier_and_agreement.md): the record, its exchange and the vote, the table
switch, the plan swap and the exit from UNSCHEDULED that rest on it, the busbar's slots and frames, and the commands. -/

namespace Sys2Proof.Machine

open Sys2Proof

/-! ### The ledger record (R489, R490, R512) -/

/-- The bytes of a group entry under GROUP_DIGEST (R490): words 0 to 4 without POS, LOCAL_COUNT, CHANNEL and TALLY, then
the tray list. -/
def groupDigestBytes (n : Nat) (g : Group) : List Byte :=
  (groupBytes n { g with pos := 0, locals := [], chan := 0, tally := false }).take 20 ++ g.trays.map (BitVec.ofNat 8)

def groupDigest (s : State) : Nat :=
  crc64 ((s.twine.groups.filter fun e => e.2.valid).flatMap fun e => groupDigestBytes e.1 e.2)

/-- PLAN_DIGEST (R289): of the pending plan, else of the plan in force, 0 with none. -/
def planDigest (s : State) : Nat :=
  match pendingSwap s with
  | some a => domainDigest (bankOf s (swapBank a))
  | none => (planNow s).elim 0 domainDigest

/-- RECORD_CRC: the CRC-64 of words 0 to 7 in sending order (R512). -/
def recordCrc (ws : List Nat) : Nat := crc64 (beWords (ws.take 8))

/-- The tray's own record, sampled with a turn (R489, R512). -/
def sampleWords (turn : Nat) (s : State) : List Nat :=
  let sw := pendingTable s
  let p := planDigest s
  let g := groupDigest s
  let ws := [put 31 24 1 + put 23 16 s.tray.number + put 15 8 (stCode s.tray.st) + put 7 7 s.reel.timeValid.toNat +
      put 6 6 (pendingSwap s).isSome.toNat + put 5 5 sw.isSome.toNat + put 4 4 s.fwd.tables.inForce.toNat,
    put 31 16 (ownCompat s) + put 15 0 (turn / 2 ^ 32), turn % 2 ^ 32, put 31 16 (sw.elim 0 (·.turn)),
    p / 2 ^ 32, p % 2 ^ 32, g / 2 ^ 32, g % 2 ^ 32]
  let c := recordCrc ws
  ws ++ [c / 2 ^ 32, c % 2 ^ 32]

def sampleRecord (turn : Nat) (s : State) : Record :=
  { words := (sampleWords turn s).map (BitVec.ofNat 32), viaCrier := false, rxTurn := s.reel.turn
    rxBound := s.reel.bounds, offset := some 0 }

def recW (r : Record) (i : Nat) : Nat := (r.words.getD i 0).toNat
def recTray (r : Record) : Nat := fld (recW r 0) 23 16
def recTimed (r : Record) : Bool := bit (recW r 0) 7
def recEpoch (r : Record) : Nat := fld (recW r 0) 4 4
def recCompat (r : Record) : Nat := fld (recW r 1) 31 16
def recTurn (r : Record) : Nat := fld (recW r 1) 15 0 * 2 ^ 32 + recW r 2
def recPlan (r : Record) : Nat := recW r 4 * 2 ^ 32 + recW r 5

/-- The pair (SW_PEND, SW_TURN) as one number. -/
def recSwitch (r : Record) : Nat := fld (recW r 0) 5 5 * 65536 + fld (recW r 3) 31 16

/-- The record in sending order. -/
def ledgerBytes (r : Record) : List Byte := beWords ((List.range 10).map (recW r))

/-! ### The vote (R493 to R497) -/

/-- A record is current: received within the last 262,144 turns (R493). -/
def recCurrent (s : State) (r : Record) : Bool := decide (s.reel.bounds ≤ r.rxBound + 262144)

def recordOf (s : State) (tray : Nat) : Option Record := tabGet none s.ledger.records tray

/-- The tray's own record (R489): the one it sent last; before the first, one sampled now. -/
def ownRecord (s : State) : Record := s.ledger.own.getD (sampleRecord s.reel.turn s)

/-- The record of a peer that was held before tick 0 of this turn (R495). -/
def heldRecord (s : State) (tray : Nat) : Option Record :=
  (recordOf s tray).bind fun r => if r.rxBound = s.reel.bounds then tabGet none s.ledger.older tray else some r

/-- The voters (R494): the own record and every current record of the peer set held before tick 0 of this turn (R495),
by ascending tray number. -/
def voters (s : State) : List (Nat × Record) :=
  let peers := s.ledger.peers.filterMap fun n =>
    (heldRecord s n).bind fun r => if recCurrent s r then some (n, r) else none
  sortBy (fun a b => decide (a.1 ≤ b.1)) ((s.tray.number, ownRecord s) :: peers)

/-- The prevailing value of a field (R494), with the tray whose view prevails where no value has a majority. -/
def prevails (v : List (Nat × Record)) (f : Record → Int) : Int × Option Nat :=
  match v.find? fun e => decide (v.length < 2 * (v.filter fun x => f x.2 == f e.2).length) with
  | some e => (f e.2, none)
  | none => match v with
    | [] => (0, none)
    | e :: _ => (f e.2, some e.1)

/-- The check period P (R491). -/
def checkPeriod (s : State) : Nat :=
  match planNow s with
  | some k => if boltTurns k = 0 then 16 else ceilDiv 16 (boltTurns k) * boltTurns k
  | none => 16

/-- Raise an event at most once per 131,072 turns for its key. -/
def raiseSeldom (key code : Nat) (items : List (Nat × Nat)) (s : State) : State :=
  let last := tabGet 0 s.once key
  if last = 0 || last + 131072 ≤ s.reel.bounds + 1 then useTurn key (raise code items s) else s

/-- The receiver keeps time of its own (R485, R499): LOCKED, HOLDOVER or BENCH. -/
def reelTimed (s : State) : Bool := s.reel.st == .locked || s.reel.st == .holdover || s.reel.st == .bench

/-- The prevailing offset (R498): among the records that have offsets. -/
def timeVote (v : List (Nat × Record)) : Int × Option Nat :=
  prevails (v.filter fun e => e.2.offset.isSome) fun r => r.offset.getD 0

/-- LEDGER_TIME and what follows from a prevailing offset (R499). -/
def timeRule (o : Int) (s : State) : State :=
  if o = 0 then modLedger (fun l => { l with timeMinority := false }) s
  else
    let s := raiseSeldom (eventKey 0x0820) 0x0820 [(48, enc 48 o)] s
    if reelTimed s then modLedger (fun l => { l with timeMinority := true }) s
    else modLedger (fun l => { l with stepBy := some o }) s

/-- Ties of a comparison: LEDGER_TIE once per field per 131,072 turns (R494). -/
def noteTies (ties : List (Nat × Option Nat)) (s : State) : State :=
  let hit := ties.filterMap fun t => t.2.map fun n => (t.1, n)
  let s := forAll hit (fun t => raiseSeldom (eventKey 0x0824 + t.1) 0x0824 [(8, t.1), (8, t.2)]) s
  modLedger (fun l =>
    { l with
      tie := !hit.isEmpty, ties := if hit.isEmpty then l.ties else sat 32 (l.ties + 1)
      prevailing := (hit.getLast?.map (·.2)).or l.prevailing }) s

/-- Why a comparison is made (R495): at the check period, in a table switch turn, in a plan swap turn. -/
inductive Why where
  | period | tableSwitch | planSwap
deriving DecidableEq, Repr

/-- The peer set as stored, in effect or not (R517). -/
def peersStored (l : Ledger) : List Nat := l.peersNext.getD l.peers

/-- A stored peer set takes effect (R517). -/
def adoptPeers (s : State) : State := modLedger (fun l => { l with peers := peersStored l, peersNext := none }) s

/-- LEDGER_COMPARE (R494 to R501, R504, R506, R517). -/
def ledgerCompare (why : Why) (s : State) : State :=
  let s := adoptPeers s
  let v := voters s
  let own := ownRecord s
  let (time, t0) := timeVote v
  let (compat, t1) := prevails v fun r => recCompat r
  let (plan, t2) := prevails v fun r => recPlan r
  let (epoch, t3) := prevails v fun r => recEpoch r
  let t4 := if why = .tableSwitch then (prevails v fun r => recSwitch r).2 else none
  let quorum := s.ledger.peers.isEmpty || decide (s.ledger.peers.length + 1 < 2 * v.length)
  let version := decide ((recCompat own : Int) ≠ compat)
  let differ := decide ((recPlan own : Int) ≠ plan)
  let apart := decide ((recEpoch own : Int) ≠ epoch)
  let s := noteTies [(0, t0), (1, t1), (2, t2), (3, t3), (4, t4)] s
  let s := timeRule time s
  let s := onlyIf (version && !s.ledger.versionMinority) (raise 0x0821 [(16, recCompat own), (16, compat.toNat)]) s
  let s := onlyIf (differ && why != .planSwap) (raise 0x0822 [(64, recPlan own), (64, plan.toNat)]) s
  let s := onlyIf (apart && why != .tableSwitch) (raise 0x0823 [(1, recEpoch own), (1, epoch.toNat)]) s
  let s := onlyIf (!quorum) (raiseSeldom (eventKey 0x0826) 0x0826 [(9, v.length)]) s
  modLedger (fun l =>
    { l with
      voters := v.length, quorum := quorum, versionMinority := version, planDiffer := differ, epochDiffer := apart
      lastCheck := s.reel.turn, compared := true
      agrees := quorum && !version && !differ && !apart && decide (time = 0) }) s

/-! ### Exchange (R491) -/

/-- The tray sends records: firmware running, from JOIN on (R563, R570). -/
def ledgerSends (s : State) : Bool := fwUp s && decide (8 ≤ stCode s.tray.st)

/-- All steps of R75 are done for this boundary, step 8 with the hold windows and training attempts that end in it. -/
def boundaryDone (s : State) : Bool :=
  stepsDone s && (s.punits.all fun e => !(e.2.hold.any (windowOver s))) &&
    s.ports.all fun e => !(e.2.st == .training && !e.2.rxReady && decide (e.2.attemptAt + e.2.timeout ≤ s.reel.bounds))

/-- One LEDGER frame to a peer (R491). -/
def ledgerSend (r : Record) (n : Nat) (s : State) : State :=
  count (hc8Ctr 12) 1 (hc8Post (ctrlFrame (ownEid s) (0xC00 + n) 0 5 (recTurn r % 65536) 0 0 0 0 (ledgerBytes r)) s)

/-- LEDGER_EXCHANGE: at tick 0 of every check-period turn, after step 8 of R75 (R491, R495). -/
def execLedgerExchange (s : State) : Result :=
  act (fun s =>
    let key := eventKey 0x0D02
    if ledgerSends s && s.reel.tick == 0 && s.reel.turn % checkPeriod s == 0 && firstThisTurn key s && boundaryDone s then
      let r := sampleRecord s.reel.turn s
      let s := modLedger (fun l => { l with own := some r }) (adoptPeers (useTurn key s))
      ledgerCompare .period (forAll s.ledger.peers (ledgerSend r) s)
    else s) s

/-! ### Receiving records (R493, R498, R506, R507) -/

/-- The offset of a record (R498): over the fabric against the turn of acceptance, over Crier in slotted mode against
the slot's first turn. -/
def offsetFor (viaCrier : Bool) (base : Nat) (words : List Nat) : Int :=
  let turn := fld (words.getD 1 0) 15 0 * 2 ^ 32 + words.getD 2 0
  let o := sgn 48 (tsub turn base)
  if -8 ≤ o && (o ≤ 0 || (viaCrier && o ≤ 8)) then 0 else o

/-- A record is discarded and counted (R507). -/
def ledgerDiscard (s : State) : State :=
  count (hc8Ctr 14) 1 (modLedger (fun l => { l with discarded := sat 32 (l.discarded + 1) }) s)

/-- A record is kept where its TURN is the greatest, or equal and over the fabric (R493). -/
def ledgerKeep (tray : Nat) (r : Record) (s : State) : State :=
  let old := recordOf s tray
  let keep := match old with
    | none => true
    | some o => decide (recTurn o < recTurn r) || (recTurn o == recTurn r && !r.viaCrier)
  if keep then
    modLedger (fun l =>
      { l with
        records := tabSet none l.records tray (some r)
        older := if old.any fun o => o.rxBound == s.reel.bounds then l.older else tabSet none l.older tray old
        silent := l.silent.filter (· != tray) }) s
  else s

/-- A record is checked and kept for the vote (R507). `slot` is the first turn of the slot over Crier. -/
def ledgerReceive (viaCrier : Bool) (sender : Nat) (slot : Option Nat) (payload : List Byte) (s : State) : State :=
  let ws := (List.range 10).map (wordBe payload)
  let s := count (hc8Ctr 13) 1 s
  let tray := fld (ws.getD 0 0) 23 16
  if fld (ws.getD 0 0) 31 24 != 1 || payload.length < 40 || recordCrc ws != ws.getD 8 0 * 2 ^ 32 + ws.getD 9 0 then ledgerDiscard s
  else if tray = s.tray.number then duplicateTray viaCrier s
  else if tray != sender || !s.ledger.peers.contains tray then ledgerDiscard s
  else
    let base := if viaCrier then slot else some s.reel.turn
    let offset := if bit (ws.getD 0 0) 7 then base.map fun b => offsetFor viaCrier b ws else none
    ledgerKeep tray
      { words := ws.map (BitVec.ofNat 32), viaCrier := viaCrier, rxTurn := s.reel.turn, rxBound := s.reel.bounds, offset := offset } s

/-- LEDGER_RECORD_RECEIVE: a LEDGER frame at a fabric interface. -/
def execLedgerRecordReceive (ifc : Nat) (s : State) : Result :=
  act (hc8Take ifc (fun f => f.cls == 0 && ctypeOf f == 5) fun f s =>
    ledgerReceive false (trayOfEid f.src) none f.payload s) s

/-- LEDGER_PEER_SILENT (R506). -/
def execLedgerPeerSilent (tray : Nat) (s : State) : Result :=
  act (fun s =>
    match recordOf s tray with
    | some r =>
      if coreUp s && s.ledger.peers.contains tray && !recCurrent s r && !s.ledger.silent.contains tray then
        raise 0x0825 [(8, tray)] (modLedger (fun l => { l with silent := l.silent ++ [tray] }) s)
      else s
    | none => s) s

/-! ### What waits for the domain at its turn (R287, R303, R503, R568) -/

/-- A table switch at its turn (R198, R503); the counters start afresh (R214). -/
def applyTableSwitch (a : Sched) (s : State) : State :=
  let s := adoptPeers s
  let v := voters s
  let pass := (prevails v fun r => recSwitch r).1 == ((65536 + a.turn % 65536 : Nat) : Int)
  let own := recEpoch (ownRecord s)
  let epoch := (prevails v fun r => recEpoch r).1.toNat
  let s := schedRemove a (ledgerCompare .tableSwitch s)
  if pass then
    let grace := match a.arg with | .table g => g | _ => 0
    let s := modFwd (fun w => { w with tables :=
      { w.tables with inForce := !w.tables.inForce, switchTurn := s.reel.turn, grace := grace, inGrace := true, switched := true, late := 0, foreign := 0 } }) s
    raise 0x0200 [iFlag s.fwd.tables.inForce, iTurn s.reel.turn] s
  else raise 0x0823 [(1, own), (1, epoch)] s

/-- TABLE_BANK_SWITCH: step 4 of R75. -/
def execTableBankSwitch (s : State) : Result :=
  act (fun s =>
    match dueAction .tableSwitch none s with
    | some a => applyTableSwitch a s
    | none => s) s

/-- A plan swap at its turn (R287, R303, R501). -/
def applyPlanSwap (a : Sched) (s : State) : State :=
  let s := adoptPeers s
  let b := swapBank a
  let k := bankOf s b
  let pass := (prevails (voters s) fun r => recPlan r).1 == ((domainDigest k : Nat) : Int)
  let s := ledgerCompare .planSwap s
  let cause := if !pass then 1 else if excludesAdmitted s k a.turn then 2 else 0
  let s := schedRemove a s
  if cause = 0 then
    let old := s.plan.inForce
    let s := modPlan (fun p => { p with inForce := some b }) s
    let s := match old with
      | some o => modBank o (fun x => { x with sealed := false }) s
      | none => s
    raise 0x0300 [iFlag b, (32, planId k)] s
  else raise 0x0301 [(8, cause)] (modPlan (fun p => { p with lastRefuse := cause }) s)

/-- PLAN_BANK_SWAP: step 5 of R75. -/
def execPlanBankSwap (s : State) : Result :=
  act (fun s =>
    match dueAction .planSwap none s with
    | some a => applyPlanSwap a s
    | none => s) s

/-- TRAY_RESUME at its turn (R568): the return state, or RESUME_FAILED with its cause. -/
def applyResume (a : Sched) (s : State) : State :=
  let s := schedRemove a s
  if s.tray.st != .unscheduled then s
  else
    let cause :=
      if s.reel.st != .locked && s.reel.st != .bench then 1
      else if s.tray.returnSt == .admitted && s.plan.inForce.isNone then 2
      else if s.tray.returnSt == .admitted && !ledgerAgrees s then 3
      else 0
    if cause = 0 then trayTo s.tray.returnSt s else raise 0x0A05 [iCause cause] s

/-- UNSCHEDULED_EXIT: first within step 6 of R75. -/
def execUnscheduledExit (s : State) : Result :=
  act (fun s =>
    match dueAction .resume none s with
    | some a => applyResume a s
    | none => s) s

/-! ### Access to the busbar (R481, R485 to R488) -/

def busIndex (s : State) : Nat := s.tray.number % 8

/-- A change between slotted and backoff mode takes effect once no frame is in transmission; slotted mode begins at a
cycle boundary (R487). -/
def crierMode (s : State) : State :=
  if s.crier.sending.isSome || reelTimed s == s.crier.slotted then s
  else if !reelTimed s then modCrier (fun c => { c with slotted := false }) s
  else if s.reel.turn % 131072 = 0 && s.reel.tick == 0 then modCrier (fun c => { c with slotted := true, waitEnd := none }) s
  else s

/-- The slot of a turn, and its owner's index (R485). -/
def slotOfTurn (turn : Nat) : Nat := turn / 8192 % 16
def slotOwner (turn : Nat) : Nat :=
  let n := slotOfTurn turn
  if n < 8 then n else (n - 8 + turn / 131072 % 8) % 8

/-- A frame on the busbar (R511): header, payload and CRC. -/
def crierBytes (s : State) (f : CFrame) : List Byte :=
  let body := beWords [put 31 24 f.dst + put 23 16 s.tray.number + put 15 12 f.typ + put 11 11 f.bcast.toNat + put 7 0 f.payload.length,
    put 31 16 s.crier.seq] ++ f.payload
  body ++ beBytes 2 (crc16 body)

/-- The tick at which symbol n begins (R480). -/
def symbolTick (n : Nat) : Nat := n * 312500 / 3

/-- The tone of two bits in kHz, and the bits of a tone (R480). -/
def toneOf (bits : Nat) : Nat :=
  match bits with
  | 0 => 120 | 1 => 140 | 3 => 160 | _ => 180

def toneBits (tone : Nat) : Nat := if tone = 120 then 0 else if tone = 140 then 1 else if tone = 160 then 3 else 2

/-- The tones of bytes, most significant bits first, and the bytes of tones (R26, R480). -/
def tonesOf (bytes : List Byte) : List Nat :=
  bytes.flatMap fun b => [toneOf (fld b.toNat 7 6), toneOf (fld b.toNat 5 4), toneOf (fld b.toNat 3 2), toneOf (fld b.toNat 1 0)]

def tonesBytes : List Nat → List Byte
  | a :: b :: c :: d :: t => BitVec.ofNat 8 (64 * toneBits a + 16 * toneBits b + 4 * toneBits c + toneBits d) :: tonesBytes t
  | _ => []

/-- The start delimiter as symbols (R481). -/
def delimiterTones : List Nat := tonesOf [0x2D, 0xD4]

/-- A frame on the busbar as tones: preamble, delimiter and bytes (R481). -/
def crierTones (bytes : List Byte) : List Nat :=
  ((List.range 16).map fun i => if i % 2 = 0 then 120 else 180) ++ delimiterTones ++ tonesOf bytes

/-- The time of a frame in ticks (R480, R481): 24 symbols before the bytes and four for each byte. -/
def crierTicks (f : CFrame) : Nat := symbolTick (24 + 4 * (f.payload.length + 10))

/-- A frame's first symbol goes out. -/
def crierStart (f : CFrame) (s : State) : State :=
  let s := emit (.crier (crierBytes s f) (crierTones (crierBytes s f))) s
  modCrier (fun c => { c with sending := some f, waitEnd := none, sendEnd := s.reel.clock + crierTicks f, seq := (c.seq + 1) % 65536 }) s

/-- The LEDGER frame, its record sampled with a turn (R489, R492). -/
def crierLedger (turn : Nat) (s : State) : State :=
  let r := sampleRecord turn s
  count (hc8Ctr 12) 1 (crierStart ⟨0, 0, true, ledgerBytes r⟩ (modLedger (fun l => { l with own := some r }) s))

/-- Carrier from another tray is heard. -/
def heard (carrier : Bool) (s : State) : State :=
  if carrier then
    modCrier (fun c => { c with foreignAt := some s.reel.bounds, quietAt := some s.reel.clock, waitEnd := none }) s
  else s

/-- The tray may send on Crier now. -/
def crierSends (s : State) : Bool := s.crier.enable && ledgerSends s && s.crier.sending.isNone

/-- CARRIER_LEVEL in effect (R21, R482): the clamp of the factory value plus the overlay that the trim wrote. -/
def carrierLevel (s : State) : Int := Config.carrierClamp (Config.crierFactory 1 + s.crier.carrierOverlay)

/-- Carrier is present while the greatest tone energy over the last symbol time exceeds CARRIER_LEVEL (R482). -/
def carrierOn (s : State) (energy : Int) : Bool := decide (carrierLevel s < energy)

/-- CRIER_SLOT_START: tick 0 of the first turn of an own slot (R485, R486). `energy`: the greatest tone energy during the
4 symbol times before it. -/
def execCrierSlotStart (energy : Int) (s : State) : Result :=
  act (fun s =>
    let carrier := carrierOn s energy
    let s := crierMode s
    let turn := s.reel.turn
    if crierSends s && s.crier.slotted && s.reel.tick == 0 && turn % 8192 == 0 && slotOwner turn == busIndex s &&
        s.crier.slotSent != some turn then
      let left := (131072 - turn % 131072) * 4096
      let frame := if slotOfTurn turn < 8 then none else s.crier.queue.head?.filter fun f => decide (crierTicks f ≤ left)
      if slotOfTurn turn < 8 || frame.isSome then
        if carrier then
          count (hc8Ctr 19) 1 (heard true (modCrier (fun c => { c with slotsLost := sat 16 (c.slotsLost + 1) }) s))
        else
          let s := modCrier (fun c => { c with slotSent := some turn }) s
          match frame with
          | none => crierLedger turn s
          | some f => crierStart f (modCrier (fun c => { c with queue := c.queue.drop 1 }) s)
      else heard carrier s
    else heard carrier s) s

/-- A draw of the backoff register (R487): 16 shifts, then its low 6 bits name the symbol times to wait. -/
def backoffDraw (s : State) : State := modCrier (fun c => { c with lfsr := lfsrShift^[16] c.lfsr }) s

/-- The LEDGER frame is due in backoff mode: once every 131,072 turns of the local count (R487). -/
def backoffLedgerDue (s : State) : Bool :=
  match s.crier.ledgerAt with
  | none => true
  | some t => decide (t + 131072 ≤ s.reel.bounds)

/-- A frame is ready in backoff mode. -/
def backoffReady (s : State) : Bool :=
  crierSends s && !s.crier.slotted && (backoffLedgerDue s || !s.crier.queue.isEmpty)

/-- The wait before a frame in backoff mode begins (R487): until carrier has been absent for 4 symbol times, and k symbol
times more. -/
def backoffWait (s : State) : State :=
  if backoffReady s && s.crier.waitEnd.isNone then
    let s := backoffDraw s
    let quiet := match s.crier.quietAt with | some t => max s.reel.clock (t + symbolTick 4) | none => s.reel.clock
    modCrier (fun c => { c with waitEnd := some (quiet + symbolTick (c.lfsr % 64)) }) s
  else s

/-- CRIER_BACKOFF_END: the wait before a frame in backoff mode ends (R487), with the greatest tone energy during it; where
carrier appeared the tray starts again. -/
def execCrierBackoffEnd (energy : Int) (s : State) : Result :=
  act (fun s =>
    let carrier := carrierOn s energy
    let s := heard carrier (crierMode s)
    if backoffReady s && s.crier.waitEnd.any fun t => decide (t ≤ s.reel.clock) then
      if backoffLedgerDue s then
        crierLedger s.reel.turn (modCrier (fun c => { c with ledgerAt := some s.reel.bounds }) s)
      else match s.crier.queue with
        | f :: t => crierStart f (modCrier (fun c => { c with queue := t }) s)
        | [] => s
    else s) s

/-- CRIER_FRAME_ENDED (R487): the frame has left and a pending change of mode takes effect. -/
def execCrierFrameEnded (s : State) : Result :=
  act (fun s =>
    if s.crier.sending.isSome && decide (s.crier.sendEnd ≤ s.reel.clock) then
      crierMode (count (hc8Ctr 15) 1 (modCrier (fun c => { c with sending := none, quietAt := some s.reel.clock, tx := sat 32 (c.tx + 1) }) s))
    else s) s

/-! ### Receiving on the busbar (R508, R509, R609) -/

/-- A mailbox request over Crier (R607, R609). -/
def crierRequest (src : Nat) (payload : List Byte) (s : State) : State :=
  let w := wordBe payload 0
  let n := fld w 31 27
  let tag := fld w 15 0
  let rest := payload.drop 4
  match remoteCase n .crier src tag rest s with
  | .accept => remoteAccept n .crier src tag 0 rest s
  | .refuse t =>
    let key := eventKey 0x0C00 + src
    let s' := noteRefused src t s
    if firstThisTurn key s then useTurn key (crierQueue (crierResponse n t src tag []) s') else noteUnanswered s'
  | .ignore => noteDuplicate s
  | .again p => crierQueue (crierResponse n 0 src tag p) (noteDuplicate s)

/-- A frame that passed its checks is passed on by TYPE (R509, R511, R609, R610). -/
def crierPass (slotTurn : Nat) (src typ : Nat) (payload : List Byte) (s : State) : State :=
  let s := count (hc8Ctr 16) 1 (modCrier (fun c => { c with rx := sat 32 (c.rx + 1) }) s)
  if typ = 0 then ledgerReceive true src (if s.crier.slotted then some slotTurn else none) payload s
  else if typ = 1 then crierRequest src payload s
  else
    let w := wordBe payload 0
    callResponse true src (fld w 15 0) (fld w 26 24) (bit w 23) (payload.drop 4) s

/-- CRIER_SLOT_CLASH: carrier began at the start of an own slot in which the tray did not send (R508). -/
def slotClash (slotTurn : Nat) (atStart : Bool) (s : State) : State :=
  if s.crier.slotted && atStart && slotTurn % 8192 == 0 && slotOwner slotTurn == busIndex s && s.crier.slotSent != some slotTurn then
    raiseSeldom (eventKey 0x0827) 0x0827 [(8, slotOfTurn slotTurn)] s
  else s

/-- A sample is blanked: it or one of the BLANK_HOLD samples before it exceeds BLANK_LEVEL (R482). `loud` lists samples by
number from the first symbol on, with their magnitude in 1/256 of input full scale. -/
def sampleBlanked (s : State) (loud : List (Nat × Nat)) (i : Nat) : Bool :=
  s.crier.blankLevel != 0 &&
    loud.any fun x => decide (s.crier.blankLevel < x.2) && decide (x.1 ≤ i) && decide (i ≤ x.1 + s.crier.blankHold)

/-- A symbol with more than 100 blanked samples of its 200 is erased (R482). -/
def symbolErased (s : State) (loud : List (Nat × Nat)) (k : Nat) : Bool :=
  decide (100 < ((List.range 200).filter fun i => sampleBlanked s loud (200 * k + i)).length)

/-- Some of the first n symbols is erased: one of the three that a loud sample can reach. -/
def someErased (s : State) (loud : List (Nat × Nat)) (n : Nat) : Bool :=
  loud.any fun x => (List.range 3).any fun j => decide (x.1 / 200 + j < n) && symbolErased s loud (x.1 / 200 + j)

/-- Where the start delimiter begins, within the first 32 symbols of carrier (R509). -/
def delimiterAt (tones : List Nat) : Option Nat := (List.range 25).find? fun k => (tones.drop k).take 8 == delimiterTones

/-- CRIER_FRAME_RECEIVE (R482, R509, R511); frames that arrive during a warm restart are discarded (R615). `tones` are the
tones of greatest energy, symbol by symbol from the first one with carrier; `slotTurn` is the first turn of the slot in
which the carrier began, `atStart` says that it began at that slot's start. -/
def execCrierFrameReceive (tones : List Nat) (loud : List (Nat × Nat)) (slotTurn : Nat) (atStart : Bool) (s : State) : Result :=
  act (fun s =>
    if !coreUp s || s.tray.restart == .warming then s
    else
      let s := slotClash slotTurn atStart (heard true s)
      let at_ := delimiterAt tones
      let bytes := tonesBytes (tones.drop (at_.getD 0 + 8))
      let w := wordBe bytes 0
      let len := fld w 7 0
      let body := bytes.take (8 + len)
      let other := fun (s : State) => modCrier (fun c => { c with discarded := sat 16 (c.discarded + 1) }) s
      if someErased s loud tones.length then count (hc8Ctr 18) 1 (modCrier (fun c => { c with erased := sat 16 (c.erased + 1) }) s)
      else if at_.isNone then other s
      else if bytes.length < 10 + len || crc16 body != ofBe ((bytes.drop (8 + len)).take 2) then
        count (hc8Ctr 17) 1 (modCrier (fun c => { c with crcFail := sat 16 (c.crcFail + 1) }) s)
      else if 3 ≤ fld w 15 12 || 246 < len then other s
      else if fld w 23 16 = s.tray.number then duplicateTray true s
      else if !bit w 11 && fld w 31 24 != s.tray.number then s
      else crierPass slotTurn (fld w 23 16) (fld w 15 12) (body.drop 8) s) s

/-! ### Commands (R514 to R519) -/

def crierWords (s : State) : List Nat :=
  [put 8 8 s.crier.enable.toNat + put 7 0 s.crier.blankLevel, put 7 0 s.crier.blankHold]

/-- CRIER_CONFIG_SET (R514); a change returns BUSY while a trim runs (R601). -/
def crierConfigSetBody (c : Cmd) (s : State) : Verdict :=
  lenIs c 8 <|
    if bit (argW c 0) 31 then report (crierWords s) s
    else
      check stBusy ((longOp s 0x0822).isSome) <|
        let t := modCrier (fun x =>
          { x with enable := bit (argW c 0) 8, blankLevel := fld (argW c 0) 7 0, blankHold := fld (argW c 1) 7 0 }) s
        report (crierWords t) t

def execCrierConfigSet (mb fails : Nat) (s : State) : Result := act (configCommand 0x0820 mb fails crierConfigSetBody) s

/-- RX_GAIN in effect (R510). -/
def rxGain (s : State) : Nat := (clampI 16 256 (Config.crierFactory 0 + s.crier.gainOverlay)).toNat

/-- CRIER_STATUS_GET's words (R515). -/
def crierStatusWords (s : State) : List Nat :=
  let c := s.crier
  [put 31 30 (if !c.enable then 0 else if c.slotted then 1 else 2) + put 29 27 (busIndex s) + put 3 0 c.queue.length, c.tx, c.rx,
   put 31 16 c.crcFail + put 15 0 c.erased, put 31 16 c.discarded + put 15 0 c.slotsLost, put 31 16 (rxGain s) + put 15 0 c.noise]

def crierStatusGetBody (c : Cmd) (s : State) : Verdict := lenIs c 0 (report (crierStatusWords s) s)

def execCrierStatusGet (mb fails : Nat) (s : State) : Result := act (readCommand 0x0821 mb fails crierStatusGetBody) s

/-- CRIER_TRIM (R510, R516): a long command of at most 3 s. -/
def crierTrimBody (c : Cmd) (s : State) : Verdict :=
  lenIs c 0 <|
    check stPrecondition (s.crier.foreignAt.any fun t => decide (s.reel.bounds < t + 244141)) <|
      check stBusy ((longOp s 0x0822).isSome) (.start 0 1500000000 s)

def execCrierTrim (mb fails : Nat) (s : State) : Result := act (writeCommand 0x0822 mb fails crierTrimBody) s

/-- CRIER_TRIM_DONE (R520). -/
def raiseTrimDone (status : Nat) (s : State) : State := raise 0x0828 [(8, status)] s

/-- The overlays that a trim writes (R510): RX_GAIN, and CARRIER_LEVEL for 12 dB above the noise floor, whose units the
manual does not give, so its value is free. -/
def trimCrier (gain : Int) (noise : Nat) (s : State) : State :=
  let (v, s) := drawFree s
  modCrier (fun c => { c with gainOverlay := clampI (-64) 64 gain, carrierOverlay := v, noise := sat 16 noise }) s

/-- The tones of a run of the trim, each for 100 ms (R480, R510); with ENABLE = 0 the tray sends nothing (R514). -/
def trimTones (s : State) : State :=
  onlyIf s.crier.enable (emit (.crier [] ([120, 140, 160, 180].flatMap (List.replicate 480)))) s

/-- Carrier from another tray during a trim (R510): by the greatest tone energy heard from one now, or heard since its
start. -/
def trimDisturbed (energy : Int) (l : Long) (s : State) : Bool :=
  carrierOn s energy ||
    s.crier.foreignAt.any fun t => decide ((s.reel.bounds - t) * 4096 + l.limit < s.reel.clock + 1500000000)

/-- CRIER_TRIM_DONE (R510): carrier from another tray ends the trim with PRECONDITION; otherwise a run ends after 1.4 s, and
one that fails is made once more (`attempts` 3 marks the second). -/
def execCrierTrimDone (ok : Bool) (energy : Int) (gain : Int) (noise : Nat) (s : State) : Result :=
  act (fun s =>
    match longOp s 0x0822 with
    | none => s
    | some l =>
      let shown : Long := { l with attempts := min l.attempts 2 }
      let gone := modMail (fun m => { m with long := (m.long.erase l) ++ [shown] }) s
      if trimDisturbed energy l s then
        endLong shown stPrecondition [] (raiseTrimDone stPrecondition (heard (carrierOn s energy) gone))
      else if s.reel.clock + (if l.attempts = 3 then 100000000 else 800000000) < l.limit then s
      else if ok then
        endLong shown stOk []
          (raiseTrimDone stOk (onlyIf (l.attempts == 3) (noteTransient 1) (trimCrier gain noise (trimTones gone))))
      else if l.attempts = 1 then
        modMail (fun m => { m with long := m.long.map fun x => if x = l then { x with attempts := 3 } else x }) (trimTones s)
      else endLongFault shown [] (raiseTrimDone stFault (trimTones gone))) s

/-- The peer set as eight words (R517). -/
def peerWords (s : State) : List Nat :=
  (List.range 8).map fun i => maskOf (((peersStored s.ledger).filter fun n => n / 32 == i).map (· % 32))

/-- LEDGER_PEERS_SET (R517). -/
def ledgerPeersSetBody (c : Cmd) (s : State) : Verdict :=
  lenIs c 36 <|
    if bit (argW c 0) 31 then report (peerWords s) s
    else
      let l := numbers 256 fun n => bit (argW c (1 + n / 32)) (n % 32) && n != s.tray.number
      let t := modLedger (fun x => { x with peersNext := some l }) s
      report (peerWords t) t

def execLedgerPeersSet (mb fails : Nat) (s : State) : Result := act (configCommand 0x0823 mb fails ledgerPeersSetBody) s

/-- LEDGER_GET's words (R518). -/
def ledgerWords (s : State) (tray : Nat) : List Nat :=
  match (if tray = s.tray.number then s.ledger.own else recordOf s tray) with
  | none => List.replicate 12 0
  | some r =>
    [put 31 31 (recCurrent s r).toNat + put 30 30 r.viaCrier.toNat + put 15 0 (sat 16 ((s.reel.bounds - r.rxBound) / 256)),
     enc 32 (satI 32 (r.offset.getD 0))] ++ (List.range 10).map (recW r)

def ledgerGetBody (c : Cmd) (s : State) : Verdict := lenIs c 4 (report (ledgerWords s (fld (argW c 0) 7 0)) s)

def execLedgerGet (mb fails : Nat) (s : State) : Result := act (readCommand 0x0824 mb fails ledgerGetBody) s

/-- LEDGER_STATUS_GET's words (R519). -/
def ledgerStatusWords (s : State) : List Nat :=
  let l := s.ledger
  [put 31 23 l.voters + put 22 14 l.peers.length + put 13 13 l.quorum.toNat + put 12 12 l.tie.toNat + put 11 11 l.timeMinority.toNat +
     put 10 10 l.versionMinority.toNat + put 9 9 l.planDiffer.toNat + put 8 8 l.epochDiffer.toNat + put 7 0 (l.prevailing.getD s.tray.number),
   l.lastCheck % 2 ^ 32, l.discarded, l.ties]

def ledgerStatusGetBody (c : Cmd) (s : State) : Verdict := lenIs c 0 (report (ledgerStatusWords s) s)

def execLedgerStatusGet (mb fails : Nat) (s : State) : Result := act (readCommand 0x0825 mb fails ledgerStatusGetBody) s

end Sys2Proof.Machine
end

