-- ==== Sys2Proof/Machine/Panel.lean ====
section
/-! DEFINITION. The front panel (13_front_panel_and_service.md): recognising contacts, presses and their meanings,
lamps, seating and removing cartridges, the tray latch and the panel commands. -/

namespace Sys2Proof.Machine

open Sys2Proof

/-- The panel's acts are taken up: AON power, and no warm restart in progress (R570). -/
def panelUp (s : State) : Bool := s.tray.st != .off && s.tray.restart != .warming

/-- The cartridge management domain is on (R444). -/
def cartsOn (s : State) : Bool := domainOn s 8

/-- An operation on a bay, with UNIT_STATE where it changes the cartridge's state (R247, R681). -/
def withBay (b : Nat) (f : State → State) (s : State) : State :=
  let t := f s
  raiseUnitState (cartUnit b) (cartState s b) (cartState t b) t

/-! ### Recognition (R521, R522, R547) -/

/-- A contact after one sample, recognised closed or open after a run of samples. -/
def contactStep (onRun offRun : Nat) (raw : Bool) (c : Contact) : Contact :=
  if raw = c.closed then { c with run := 0 }
  else if (if raw then onRun else offRun) ≤ c.run + 1 then { closed := raw, run := 0 }
  else { c with run := c.run + 1 }

/-- A button after one sample: whether its press was ambiguous, and its state (R522). -/
def buttonStep (now : Nat) (raw : Bool) (b : Button) : Bool × Button :=
  let c := contactStep 16 16 raw b.contact
  if c.closed && !b.contact.closed then
    (false, { b with contact := c, pressedAt := some now, holdDone := false, stuck := false })
  else if !c.closed && b.contact.closed then
    let len := now - b.pressedAt.getD now
    let short := !b.ignore && decide (len < 262144)
    let between := !b.ignore && decide (262144 ≤ len) && decide (len < 524288)
    (between, { contact := c, shortDue := b.shortDue || short })
  else (false, { b with contact := c })

/-- IGNORED (R522, R523, R553). -/
def notActedOn (s : State) : State := modPanel (fun p => { p with ignored := sat 16 (p.ignored + 1) }) s

/-- A bay's contacts after one sample (R521, R536, R543); a bay supplied again once its presence is recognised
closed (R676). -/
def bayStep (now b : Nat) (raw : Contacts) (y : Bay) : Bool × Bay :=
  let (amb, ask) := buttonStep now (raw.ask.getLsbD b) y.ask
  let latch := contactStep 48 48 (raw.bayLatch.getLsbD b) y.latch
  let presence := contactStep 16 1024 (raw.presence.getLsbD b) y.presence
  let opened := (y.latch.closed && !latch.closed) || (y.presence.closed && !presence.closed)
  let both := latch.closed && presence.closed
  (amb, { y with
    ask := ask, latch := latch, presence := presence
    openDue := y.openDue || opened
    closeDue := both && (y.closeDue || !(y.latch.closed && y.presence.closed))
    goneDue := (y.goneDue || y.presence.closed) && !presence.closed
    settleAt := if both then y.settleAt else none
    supplied := y.supplied || (presence.closed && !y.presence.closed) })

/-- One sample of the panel (R521). While the cartridge management domain is off, only the find button and the tray
latch are read (R444). -/
def samplePanel (raw : Contacts) (s : State) : State :=
  let now := s.reel.bounds
  let (amb, find) := buttonStep now raw.find s.panel.find
  let latch := contactStep 48 48 raw.trayLatch s.panel.latch
  let s := modPanel (fun p =>
    { p with
      find := find, latch := latch
      liftDue := p.liftDue || (p.latch.closed && !latch.closed)
      dropDue := p.dropDue || (!p.latch.closed && latch.closed) }) s
  let s := onlyIf amb notActedOn s
  if cartsOn s then
    forAll (List.range 16) (fun b s =>
      let (amb, y) := bayStep now b raw (bay s b)
      onlyIf amb notActedOn (withBay b (modBay b fun _ => y) s)) s
  else s

/-- PANEL_SAMPLE: tick 0 of every turn that is a multiple of 128 (R521). -/
def execPanelSample (raw : Contacts) (s : State) : Result :=
  act (fun s =>
    let key := eventKey 0x0D03
    if aonUp s && s.reel.tick == 0 && s.reel.turn % 128 == 0 && firstThisTurn key s then samplePanel raw (useTurn key s)
    else s) s

/-- The turns for which a button has been recognised closed. -/
def pressLength (s : State) (b : Button) : Nat := if b.contact.closed then s.reel.bounds - b.pressedAt.getD s.reel.bounds else 0

/-- A hold is due (R522). -/
def holdDue (s : State) (b : Button) : Bool := b.contact.closed && !b.ignore && !b.holdDone && decide (524288 ≤ pressLength s b)

/-! ### Find indications and lamps (R523 to R528) -/

/-- The end of a find indication set now: FIND_TIMEOUT units, or 0 until cleared (R528). -/
def findEnd (s : State) : Nat := if s.panel.findTimeout = 0 then 0 else s.reel.bounds + s.panel.findTimeout * 8388608

/-- TRAY_FIND_PRESSED: a short press toggles the tray's find indication and ends those of the bays (R523, R528). -/
def execTrayFindPressed (s : State) : Result :=
  act (fun s =>
    if panelUp s && s.panel.find.shortDue then
      let on := s.panel.trayFind.isNone
      let s := modPanel (fun p =>
        { p with find := { p.find with shortDue := false }, trayFind := if on then some (findEnd s) else none }) s
      let s := forAll (numbers 16 fun b => (bay s b).find.isSome) (fun b => modBay b fun y => { y with find := none }) s
      raise 0x0920 [iFlag on] s
    else s) s

/-- LAMP_TEST: a hold of the find button; during a lamp test it is not acted on (R527). -/
def execLampTest (s : State) : Result :=
  act (fun s =>
    if panelUp s && holdDue s s.panel.find then
      let s := modPanel (fun p => { p with find := { p.find with holdDone := true } }) s
      if s.panel.lampTest.isSome then s
      else raise 0x0921 [iFlag false, (8, 16)] (modPanel (fun p => { p with lampTest := some s.reel.bounds }) s)
    else s) s

/-- LAMP_TEST_END (R527). -/
def execLampTestEnd (s : State) : Result :=
  act (fun s =>
    if s.panel.lampTest.any fun t => decide (t + 262144 ≤ s.reel.bounds) then
      modPanel (fun p => { p with lampTest := none }) s
    else s) s

/-- FIND_TIMEOUT: of bay `which`, or of the tray for 16 (R528). -/
def execFindTimeout (which : Nat) (s : State) : Result :=
  act (fun s =>
    let past := fun (o : Option Nat) => o.any fun t => t != 0 && decide (t ≤ s.reel.bounds)
    if which = 16 then (if past s.panel.trayFind then modPanel (fun p => { p with trayFind := none }) s else s)
    else if which < 16 && past (bay s which).find then modBay which (fun y => { y with find := none }) s
    else s) s

/-- CART_LOCATE: a hold of an ask button sets the bay's find indication (R523). -/
def execCartLocate (bayNo : Nat) (s : State) : Result :=
  act (fun s =>
    if bayNo < 16 && panelUp s && cartsOn s && holdDue s (bay s bayNo).ask then
      raise 0x092E [(4, bayNo)]
        (modBay bayNo (fun y => { y with ask := { y.ask with holdDone := true }, find := some (findEnd s) }) s)
    else s) s

/-- A press that has lasted 8,388,608 turns is reported once and not acted on until released (R522). -/
def stuckDue (s : State) (b : Button) : Bool := b.contact.closed && !b.stuck && decide (8388608 ≤ pressLength s b)

/-- BUTTON_STUCK: of bay `button`, or of the find button for 16. -/
def execButtonStuck (button : Nat) (s : State) : Result :=
  act (fun s =>
    let stuck := fun (b : Button) => { b with stuck := true, ignore := true }
    if !panelUp s then s
    else if button = 16 && stuckDue s s.panel.find then
      raise 0x0921 [iFlag true, (8, 16)] (modPanel (fun p => { p with find := stuck p.find }) s)
    else if button < 16 && cartsOn s && stuckDue s (bay s button).ask then
      raise 0x0921 [iFlag true, (8, button)] (modBay button (fun y => { y with ask := stuck y.ask }) s)
    else s) s

/-- The status lamp's pattern (R525). -/
def trayLamp (s : State) : Nat :=
  if s.panel.lampTest.isSome then 10
  else if s.panel.trayFind.isSome then 9
  else if s.panel.safe then 4
  else if s.tray.halted || s.tray.dup || s.power.coolantFault || s.panel.tripped then 7
  else if !s.panel.latch.closed then 6
  else match s.tray.st with
    | .admitted => 1
    | .unscheduled => 2
    | .service => 6
    | .off => 0
    | _ => 5

/-- The fault condition of a bay lamp (R526). -/
def bayFault (s : State) (b : Nat) : Bool :=
  let y := bay s b
  (y.presence.closed && !y.latch.closed) || y.idBad || ((bayPorts b).any fun u => (punit s u).wiringHeld) ||
    y.deniedAt.any fun t => decide (s.reel.bounds < t + 524288)

/-- A bay lamp's pattern (R526); dark while the cartridge management domain is off (R444). -/
def bayLamp (s : State) (b : Nat) : Nat :=
  let y := bay s b
  if !cartsOn s then 0
  else if s.panel.lampTest.isSome then 10
  else if y.find.isSome then 9
  else if y.released then 5
  else if bayFault s b then 7
  else if y.askEnd.isSome then 6
  else match cartState s b with
    | 4 => 1
    | 3 => 4
    | 2 => 2
    | 1 => 3
    | _ => if y.presence.closed && y.idOk then 8 else 0

/-- What a pattern shows at a turn (R524, R527): 0 dark, 1 green, 2 amber; `test` is the boundaries since a lamp test
began. -/
def lampColour (code turn test : Nat) : Nat :=
  let slow := decide (turn % 131072 < 65536)
  let fast := decide (turn % 32768 < 16384)
  let wink := decide (turn % 131072 < 8192)
  match code with
  | 1 => 1
  | 2 => slow.toNat
  | 3 => fast.toNat
  | 4 => wink.toNat
  | 5 => 2
  | 6 => 2 * slow.toNat
  | 7 => 2 * fast.toNat
  | 8 => 2 * wink.toNat
  | 9 => if slow then 1 else 2
  | 10 => if test < 131072 then 1 else 2
  | _ => 0

/-! ### Asking and releasing (R529 to R534, R545, R546) -/

/-- The cartridge or one of its ports has an admission pending (R530). -/
def cartPending (s : State) (b : Nat) : Bool :=
  (pendingFor s .admission (cartUnit b)).isSome || (bayPorts b).any fun u => (pendingFor s .admission u).isSome

/-- A port goes DARK as PORT_TRAIN DISABLE takes it there (R138, R530). -/
def disablePort (u : Nat) (s : State) : State := portDark u (modPunit u (fun x => { x with disabled := true }) s)

/-- The cartridge is released (R529, R530). -/
def releaseCart (b : Nat) (self : Bool) (s : State) : State :=
  let s := forAll (bayPorts b) disablePort s
  raise 0x092B [(4, b), iFlag self] (modBay b (fun y => { y with released := true, askEnd := none, deniedAt := none }) s)

/-- The SERIAL of an identity record (R550). -/
def serialOf (r : List Byte) : Nat := wordLe r 2 + wordLe r 3 * 2 ^ 32

/-- A cartridge with a valid identity is seated (R537, R548): CART_SEATED, and AUTO training of its used ports but those
that R38 keeps DARK. -/
def seatCart (b : Nat) (s : State) : State :=
  let s := modBay b (fun y => { y with seated := true, released := false, askEnd := none, surprise := false }) s
  let s := raise 0x0925 [(4, b), (64, serialOf ((bay s b).record.getD []))] s
  if s.panel.seatTrain && (asicSt s (b / 4)).st != .dark then
    forAll ((usedBayPorts s b).filter fun u => !staysDark s (uPort u)) (fun u s => trainAuto u (modPunit u (fun x => { x with disabled := false }) s)) s
  else s

/-- ASK_PRESS: a short press of an ask button (R523, R529, R545). -/
def askAct (b : Nat) (s : State) : State :=
  let y := bay s b
  if !y.presence.closed then notActedOn s
  else if y.askEnd.isSome then
    raise 0x0928 [(4, b), iFlag false] (modBay b (fun y => { y with askEnd := none }) s)
  else if y.released then
    let s := raise 0x0928 [(4, b), iFlag true] (modBay b (fun y => { y with released := false }) s)
    if y.idOk then seatCart b s else s
  else
    let s := modBay b (fun y => { y with deniedAt := none }) s
    if ((bayPorts b).all fun u => (port s u).st == .dark) && !cartPending s b then releaseCart b true s
    else raise 0x0927 [(4, b), (4, cartState s b)]
      (modBay b (fun y => { y with askEnd := some (s.reel.bounds + s.panel.askTimeout * 65536) }) s)

def execAskPress (bayNo : Nat) (s : State) : Result :=
  act (fun s =>
    if bayNo < 16 && panelUp s && cartsOn s && (bay s bayNo).ask.shortDue then
      askAct bayNo (modBay bayNo (fun y => { y with ask := { y.ask with shortDue := false } }) s)
    else s) s

/-- ASK_TIMEOUT (R532). -/
def execAskTimeout (bayNo : Nat) (s : State) : Result :=
  act (fun s =>
    if bayNo < 16 && (bay s bayNo).askEnd.any fun t => decide (t ≤ s.reel.bounds) then
      raise 0x092A [(4, bayNo)] (modBay bayNo (fun y => { y with askEnd := none, deniedAt := some s.reel.bounds }) s)
    else s) s

/-- DENIED_DISPLAY_END (R531). -/
def execDeniedDisplayEnd (bayNo : Nat) (s : State) : Result :=
  act (fun s =>
    if bayNo < 16 && (bay s bayNo).deniedAt.any fun t => decide (t + 524288 ≤ s.reel.bounds) then
      modBay bayNo (fun y => { y with deniedAt := none }) s
    else s) s

/-- CART_ANSWER (R530, R531, R546, R554). -/
def cartAnswerBody (c : Cmd) (s : State) : Verdict :=
  lenIs c 4 <|
    let b := fld (argW c 0) 3 0
    let grant := bit (argW c 0) 8
    check stPrecondition (grant && (((bayPorts b).any fun u => (port s u).st == .admitted) || cartPending s b)) <|
      check stNotNow (bay s b).askEnd.isNone <|
        if grant then applied (releaseCart b false s)
        else applied (raise 0x0929 [(4, b)] (modBay b (fun y => { y with askEnd := none, deniedAt := some s.reel.bounds }) s))

def execCartAnswer (mb fails : Nat) (s : State) : Result := act (writeCommand 0x0922 mb fails cartAnswerBody) s

/-! ### Seating and removal (R534 to R537, R543, R544, R548, R676) -/

/-- The seating of a bay begins: both contacts recognised closed (R536). -/
def beginSeat (b : Nat) (s : State) : State :=
  modBay b (fun y => { y with closeDue := false, settleAt := some (s.reel.bounds + 65536), reads := 0, idBad := false }) s

/-- BAY_LATCH_CLOSED (R536). -/
def execBayLatchClosed (bayNo : Nat) (s : State) : Result :=
  act (fun s =>
    if bayNo < 16 && panelUp s && (bay s bayNo).closeDue then beginSeat bayNo s else s) s

/-- An identity record is valid (R536, R550). -/
def idValid (r : List Byte) : Bool :=
  r.length == 32 && fld (wordLe r 0) 31 16 == 0xCC72 && fld (wordLe r 0) 15 8 == 1 && crc32c (r.take 28) == wordLe r 7

/-- A read fails for good: CART_ID_BAD (R536). -/
def identityBad (b : Nat) (s : State) : State :=
  raise 0x0926 [(4, b)]
    (withBay b (modBay b fun y => { y with idBad := true, idOk := false, settleAt := none, seated := false }) s)

/-- The identity read after the settle (R535, R536): a valid one seats a fresh or different cartridge; a failure is read
once more after a further settle. -/
def idRead (b : Nat) (record : Option (List Byte)) (s : State) : State :=
  let y := bay s b
  if !y.supplied then identityBad b s
  else
    let old := y.record
    let s := match record with
      | some r => modBay b (fun y => { y with record := some r }) s
      | none => s
    if record.any idValid then
      let fresh := !y.seated || old.map serialOf != record.map serialOf
      let s := withBay b (modBay b fun y => { y with idOk := true, idBad := false, settleAt := none }) s
      if fresh then seatCart b s else s
    else if y.reads = 0 then modBay b (fun y => { y with reads := 1, settleAt := some (s.reel.bounds + 65536) }) s
    else identityBad b s

def execCartIdRead (bayNo : Nat) (record : Option (List Byte)) (s : State) : Result :=
  act (fun s =>
    if bayNo < 16 && panelUp s && cartsOn s && (bay s bayNo).settleAt.any fun t => decide (t ≤ s.reel.bounds) then
      idRead bayNo record s
    else s) s

/-- The ports of a bay that are not DARK. -/
def litPorts (s : State) (b : Nat) : List Nat := (bayPorts b).filter fun u => (port s u).st != .dark

/-- CART_SURPRISE (R543): every port that is not DARK goes DARK, a pending ask ends. -/
def surprise (b : Nat) (s : State) : State :=
  let dark := litPorts s b
  let s := forAll dark portDark s
  raise 0x092D [(4, b), iCount dark.length]
    (modBay b (fun y => { y with surprise := true, seated := false, askEnd := none, settleAt := none }) s)

/-- The recognised opening of a bay (R543): a surprise unless the cartridge is released or was surprised already. -/
def bayOpened (b : Nat) (s : State) : State :=
  let y := bay s b
  let s := modBay b (fun y => { y with openDue := false }) s
  if y.released || y.surprise then s else surprise b s

/-- BAY_LATCH_OPEN (R543). -/
def execBayLatchOpen (bayNo : Nat) (s : State) : Result :=
  act (fun s =>
    if bayNo < 16 && panelUp s && (bay s bayNo).openDue then bayOpened bayNo s else s) s

/-- CART_REMOVED (R534, R543): the bay is empty, and every port of it DARK (R44, R243). -/
def execCartRemoved (bayNo : Nat) (s : State) : Result :=
  act (fun s =>
    if bayNo < 16 && panelUp s && (bay s bayNo).goneDue then
      let s := onlyIf (bay s bayNo).openDue (bayOpened bayNo) s
      let s := forAll (litPorts s bayNo) portDark s
      raise 0x092C [(4, bayNo), iFlag (bay s bayNo).surprise]
        (withBay bayNo (modBay bayNo fun y =>
          { y with
            goneDue := false, released := false, surprise := false, seated := false, idOk := false, idBad := false
            askEnd := none, settleAt := none, deniedAt := none }) s)
    else s) s

/-- BAY_MGMT_OVERLOAD: the bay's supply goes off; its identity counts as failed for the second time (R676). -/
def execBayMgmtOverload (bayNo : Nat) (s : State) : Result :=
  act (fun s =>
    if bayNo < 16 && cartsOn s && (bay s bayNo).supplied then
      let s := modBay bayNo (fun y => { y with supplied := false }) s
      if (bay s bayNo).presence.closed then identityBad bayNo s else s
    else s) s

/-- The cartridge management domain is ready: every bay with a cartridge is read (R547, R548). -/
def readBays (s : State) : State :=
  forAll (numbers 16 fun b => (bay s b).presence.closed && (bay s b).latch.closed) beginSeat s

/-! ### The tray latch (R538, R539, R549) -/

/-- SAFE_TO_REMOVE when the condition first holds (R539). -/
def safeCheck (s : State) : State :=
  let safe := !s.panel.latch.closed && s.tray.st == .aon && s.power.on.isEmpty
  let first := safe && !s.panel.safe
  onlyIf first (raise 0x0924 []) (modPanel (fun p => { p with safe := safe }) s)

/-- TRAY_LATCH_OPEN (R538). -/
def execTrayLatchOpen (s : State) : Result :=
  act (fun s =>
    if panelUp s && s.panel.liftDue then
      safeCheck (raise 0x0922 [] (modPanel (fun p => { p with liftDue := false }) s))
    else s) s

/-- TRAY_LATCH_CLOSED (R538, R549). -/
def execTrayLatchClosed (s : State) : Result :=
  act (fun s =>
    if panelUp s && s.panel.dropDue then
      safeCheck (raise 0x0923 [] (modPanel (fun p => { p with dropDue := false }) s))
    else s) s

/-! ### Commands (R552, R553, R555, R556) -/

def panelCfgWords (s : State) : List Nat :=
  [put 8 8 s.panel.seatTrain.toNat + put 7 0 s.panel.askTimeout, put 7 0 s.panel.findTimeout]

/-- PANEL_CONFIG_SET (R552). -/
def panelConfigSetBody (c : Cmd) (s : State) : Verdict :=
  lenIs c 8 <|
    if bit (argW c 0) 31 then report (panelCfgWords s) s
    else
      argChecks [(0, fld (argW c 0) 7 0 == 0)] <|
        let t := modPanel (fun p =>
          { p with seatTrain := bit (argW c 0) 8, askTimeout := fld (argW c 0) 7 0, findTimeout := fld (argW c 1) 7 0 }) s
        report (panelCfgWords t) t

def execPanelConfigSet (mb fails : Nat) (s : State) : Result := act (configCommand 0x0920 mb fails panelConfigSetBody) s

/-- PANEL_STATUS_GET's words (R553). -/
def panelWords (s : State) : List Nat :=
  let bays := fun (p : Bay → Bool) => maskOf (numbers 16 fun b => p (bay s b))
  let lamps := fun (i : Nat) => ((List.range 8).map fun j => bayLamp s (8 * i + j) * 2 ^ (4 * j)).sum
  [put 31 31 (!s.panel.latch.closed).toNat + put 30 30 s.panel.safe.toNat + put 29 29 s.panel.trayFind.isSome.toNat +
     put 28 28 s.panel.lampTest.isSome.toNat + put 27 24 (trayLamp s) + put 15 0 (bays fun y => y.find.isSome),
   put 31 16 (bays fun y => y.askEnd.isSome) + put 15 0 (bays fun y => y.released), lamps 0, lamps 1,
   put 31 16 (maskOf (numbers 16 fun b => bayLamp s b == 7)) + put 15 0 s.panel.ignored]

/-- PANEL_STATUS_GET (R553): reading clears the THERMAL_TRIP condition. -/
def panelStatusGetBody (c : Cmd) (s : State) : Verdict :=
  lenIs c 0 (.done stOk (leWords (panelWords s)) (modPanel (fun p => { p with tripped := false }) s))

def execPanelStatusGet (mb fails : Nat) (s : State) : Result := act (readCommand 0x0921 mb fails panelStatusGetBody) s

/-- PANEL_FIND_SET (R555). -/
def panelFindSetBody (c : Cmd) (s : State) : Verdict :=
  lenIs c 4 <|
    let w := argW c 0
    let mask := fld w 15 0
    check stPrecondition (mask != 0 && !cartsOn s) <|
      let v := if bit w 17 then some (findEnd s) else none
      let t := onlyIf (bit w 16) (modPanel fun p => { p with trayFind := v }) s
      applied (forAll (numbers 16 fun b => mask.testBit b) (fun b => modBay b fun y => { y with find := v }) t)

def execPanelFindSet (mb fails : Nat) (s : State) : Result := act (writeCommand 0x0923 mb fails panelFindSetBody) s

/-- CART_INFO_GET's result (R556). -/
def cartInfo (s : State) (b : Nat) : List Byte :=
  let y := bay s b
  leBytes 4 (put 31 31 y.presence.closed.toNat + put 30 30 y.latch.closed.toNat + put 29 29 y.idOk.toNat + put 3 0 (cartState s b)) ++
    (y.record.getD [] ++ zeros 32).take 32

def cartInfoGetBody (c : Cmd) (s : State) : Verdict := lenIs c 4 (.done stOk (cartInfo s (fld (argW c 0) 3 0)) s)

def execCartInfoGet (mb fails : Nat) (s : State) : Result := act (readCommand 0x0924 mb fails cartInfoGetBody) s

end Sys2Proof.Machine
end

