-- ==== Sys2Proof/Machine/Signature.lean ====
section
/-! DEFINITION. The check of a firmware image (R561): the SHA-384 digest and the ECDSA P-384 signature. R561 names both
and writes neither out: their definitions are taken from FIPS 180-4 and FIPS 186-5 (PRESUMED, log 161). -/

namespace Sys2Proof.Machine

open Sys2Proof

/-! ### SHA-384 -/

/-- Round constants of SHA-384, part 0. -/
def shaK0 : List (BitVec 64) :=
  [0x428a2f98d728ae22, 0x7137449123ef65cd, 0xb5c0fbcfec4d3b2f,
   0xe9b5dba58189dbbc, 0x3956c25bf348b538, 0x59f111f1b605d019,
   0x923f82a4af194f9b, 0xab1c5ed5da6d8118, 0xd807aa98a3030242,
   0x12835b0145706fbe, 0x243185be4ee4b28c, 0x550c7dc3d5ffb4e2,
   0x72be5d74f27b896f, 0x80deb1fe3b1696b1, 0x9bdc06a725c71235,
   0xc19bf174cf692694, 0xe49b69c19ef14ad2, 0xefbe4786384f25e3,
   0x0fc19dc68b8cd5b5, 0x240ca1cc77ac9c65, 0x2de92c6f592b0275,
   0x4a7484aa6ea6e483, 0x5cb0a9dcbd41fbd4, 0x76f988da831153b5,
   0x983e5152ee66dfab, 0xa831c66d2db43210, 0xb00327c898fb213f,
   0xbf597fc7beef0ee4, 0xc6e00bf33da88fc2, 0xd5a79147930aa725]

/-- Round constants of SHA-384, part 1. -/
def shaK1 : List (BitVec 64) :=
  [0x06ca6351e003826f, 0x142929670a0e6e70, 0x27b70a8546d22ffc,
   0x2e1b21385c26c926, 0x4d2c6dfc5ac42aed, 0x53380d139d95b3df,
   0x650a73548baf63de, 0x766a0abb3c77b2a8, 0x81c2c92e47edaee6,
   0x92722c851482353b, 0xa2bfe8a14cf10364, 0xa81a664bbc423001,
   0xc24b8b70d0f89791, 0xc76c51a30654be30, 0xd192e819d6ef5218,
   0xd69906245565a910, 0xf40e35855771202a, 0x106aa07032bbd1b8,
   0x19a4c116b8d2d0c8, 0x1e376c085141ab53, 0x2748774cdf8eeb99,
   0x34b0bcb5e19b48a8, 0x391c0cb3c5c95a63, 0x4ed8aa4ae3418acb,
   0x5b9cca4f7763e373, 0x682e6ff3d6b2b8a3, 0x748f82ee5defb2fc,
   0x78a5636f43172f60, 0x84c87814a1f0ab72, 0x8cc702081a6439ec]

/-- Round constants of SHA-384, part 2. -/
def shaK2 : List (BitVec 64) :=
  [0x90befffa23631e28, 0xa4506cebde82bde9, 0xbef9a3f7b2c67915,
   0xc67178f2e372532b, 0xca273eceea26619c, 0xd186b8c721c0c207,
   0xeada7dd6cde0eb1e, 0xf57d4f7fee6ed178, 0x06f067aa72176fba,
   0x0a637dc5a2c898a6, 0x113f9804bef90dae, 0x1b710b35131c471b,
   0x28db77f523047d84, 0x32caab7b40c72493, 0x3c9ebe0a15c9bebc,
   0x431d67c49c100d4c, 0x4cc5d4becb3e42b6, 0x597f299cfc657e2a,
   0x5fcb6fab3ad6faec, 0x6c44198c4a475817]

/-- The 80 round constants. -/
def shaK : List (BitVec 64) := shaK0 ++ shaK1 ++ shaK2

/-- The initial hash value of SHA-384. -/
def shaStart : List (BitVec 64) :=
  [0xcbbb9d5dc1059ed8, 0x629a292a367cd507, 0x9159015a3070dd17,
   0x152fecd8f70e5939, 0x67332667ffc00b31, 0x8eb44a8768581511,
   0xdb0c2e0d64f98fa7, 0x47b5481dbefa4fa4]

/-- The message schedule, newest word first. -/
def shaSchedule : Nat → List (BitVec 64) → List (BitVec 64)
  | 0, w => w
  | n + 1, w =>
    let a := w.getD 14 0
    let b := w.getD 1 0
    let s0 := a.rotateRight 1 ^^^ a.rotateRight 8 ^^^ (a >>> 7)
    let s1 := b.rotateRight 19 ^^^ b.rotateRight 61 ^^^ (b >>> 6)
    shaSchedule n ((w.getD 15 0 + s0 + w.getD 6 0 + s1) :: w)

/-- One round on the eight working words. -/
def shaRound (v : List (BitVec 64)) (kw : BitVec 64) : List (BitVec 64) :=
  match v with
  | [a, b, c, d, e, f, g, h] =>
    let t1 := h + (e.rotateRight 14 ^^^ e.rotateRight 18 ^^^ e.rotateRight 41) + ((e &&& f) ^^^ (~~~e &&& g)) + kw
    let t2 := (a.rotateRight 28 ^^^ a.rotateRight 34 ^^^ a.rotateRight 39) + ((a &&& b) ^^^ (a &&& c) ^^^ (b &&& c))
    [t1 + t2, a, b, c, d + t1, e, f, g]
  | _ => v

/-- The 64-bit words of a block of 128 bytes. -/
def shaWords (block : List Byte) : List (BitVec 64) :=
  (List.range 16).map fun i => BitVec.ofNat 64 (ofBe ((block.drop (8 * i)).take 8))

/-- One block is taken into the hash value. -/
def shaBlock (h : List (BitVec 64)) (block : List Byte) : List (BitVec 64) :=
  let w := (shaSchedule 64 (shaWords block).reverse).reverse
  List.zipWith (· + ·) h ((List.zipWith (· + ·) shaK w).foldl shaRound h)

/-- The message's blocks, taken in order. -/
def shaBlocks : Nat → List Byte → List (BitVec 64) → List (BitVec 64)
  | 0, _, h => h
  | n + 1, m, h => shaBlocks n (m.drop 128) (shaBlock h (m.take 128))

/-- The message padded to whole blocks: one 1 bit, zeros, and the length in bits in 16 bytes. -/
def shaPad (m : List Byte) : List Byte :=
  m ++ 0x80 :: zeros ((239 - m.length % 128) % 128) ++ beBytes 16 (8 * m.length)

/-- The SHA-384 digest, 48 bytes. -/
def sha384 (m : List Byte) : List Byte :=
  let p := shaPad m
  (shaBlocks (p.length / 128) p shaStart).take 6 |>.flatMap fun x => beBytes 8 x.toNat

/-! ### ECDSA over P-384 -/

/-- The field prime of P-384. -/
def p384P : Nat := 2 ^ 384 - 2 ^ 128 - 2 ^ 96 + 2 ^ 32 - 1
/-- The coefficient b of the curve y² = x³ - 3x + b. -/
def p384B : Nat := 0xb3312fa7e23ee7e4988e056be3f82d19181d9c6efe8141120314088f5013875ac656398d8a2ed19d2a85c8edd3ec2aef
/-- The order of the base point. -/
def p384N : Nat := 0xffffffffffffffffffffffffffffffffffffffffffffffffc7634d81f4372ddf581a0db248b0a77aecec196accc52973
/-- The base point. -/
def p384G : Nat × Nat :=
  (0xaa87ca22be8b05378eb1c71ef320ad746e1d3b628ba79b9859f741e082542a385502f25dbf55296c3a545e3872760ab7,
   0x3617de4a96262c6f5d9e98bf9292dc29f8f41dbd289a147ce9da3113b5f0b8c00a60b1ce1d7e819d7a431d7c90ea0e5f)

/-- A power modulo m, over the low `bits` bits of the exponent. -/
def powMod (m a : Nat) : Nat → Nat → Nat
  | 0, _ => 1 % m
  | bits + 1, e =>
    let r := powMod m a bits (e / 2)
    if e % 2 = 1 then r * r % m * a % m else r * r % m

/-- The inverse modulo a prime below 2 ^ 384. -/
def invMod (m a : Nat) : Nat := powMod m (a % m) 384 (m - 2)

/-- The difference modulo m of two numbers below m. -/
def subMod (m a b : Nat) : Nat := (a + m - b) % m

/-- The sum of two points of the curve; `none` is the point at infinity. -/
def pointAdd (p q : Option (Nat × Nat)) : Option (Nat × Nat) :=
  match p, q with
  | none, _ => q
  | _, none => p
  | some (x1, y1), some (x2, y2) =>
    let m := p384P
    if x1 = x2 ∧ (y1 + y2) % m = 0 then none
    else
      let k := if x1 = x2 then subMod m (3 * x1 * x1 % m) 3 * invMod m (2 * y1) % m
        else subMod m y2 y1 * invMod m (subMod m x2 x1) % m
      let x := subMod m (subMod m (k * k % m) x1) x2
      some (x, subMod m (k * subMod m x1 x % m) y1)

/-- A multiple of a point, over the low `bits` bits of the factor. -/
def pointMul (p : Nat × Nat) : Nat → Nat → Option (Nat × Nat)
  | 0, _ => none
  | bits + 1, k =>
    let r := pointMul p bits (k / 2)
    let d := pointAdd r r
    if k % 2 = 1 then pointAdd d (some p) else d

/-- A point of the curve, its coordinates below the prime. -/
def onCurve (x y : Nat) : Bool :=
  let m := p384P
  decide (x < m) && decide (y < m) && y * y % m == (x * x % m * x + (m - 3) * x + p384B) % m

/-- (r, s) is a valid signature under the public key (x, y) over a message of the digest e. -/
def ecdsaValid (x y r s e : Nat) : Bool :=
  let n := p384N
  let w := invMod n s
  onCurve x y && decide (0 < r) && decide (r < n) && decide (0 < s) && decide (s < n) &&
    match pointAdd (pointMul p384G 384 (e * w % n)) (pointMul (x, y) 384 (r * w % n)) with
    | some (px, _) => px % n == r
    | none => false

/-! ### The image's key and signature (R561, R580) -/

/-- Bytes of a slot from an offset on. -/
def imgBytes (s : State) (slot : Bool) (off n : Nat) : List Byte := (List.range n).map fun i => imgByte s slot (off + i)

/-- The digest of PUBKEY equals the key hash held in one-time-programmable memory. -/
def keyMatches (s : State) (slot : Bool) : Bool :=
  sha384 (imgBytes s slot 64 96) == (List.range 48).map Config.keyHash

/-- SIG_R and SIG_S are a valid signature under PUBKEY over header bytes 0 to 159 followed by the body. -/
def signatureValid (s : State) (slot : Bool) : Bool :=
  ecdsaValid (ofBe (imgBytes s slot 64 48)) (ofBe (imgBytes s slot 112 48)) (ofBe (imgBytes s slot 160 48))
    (ofBe (imgBytes s slot 208 48)) (ofBe (sha384 (imgBytes s slot 0 160 ++ imgBytes s slot 256 (slotBody s slot))))

/-- The ERROR of an image (R561, R583): a read that failed twice, the header, the key, the signature. -/
def imageError (s : State) (slot readFails : Bool) : Nat :=
  if readFails then 5
  else if headerError s slot != 0 then headerError s slot
  else if !keyMatches s slot then 3
  else if !signatureValid s slot then 4
  else 0

end Sys2Proof.Machine
end

