-- ==== Sys2Proof/Machine/Boot.lean ====
section
/-! DEFINITION. Power-up, boot and tray states (14_startup_and_states.md): wake conditions and boot steps, loss of power,
temperature trips (R457), power-down and restarts, and the tray commands. -/

namespace Sys2Proof.Machine

open Sys2Proof

/-! ### What the HC-8 core holds -/

/-- Port settings that stand in flash (R137), and the hold windows and idle modes (R265, R474). -/
def keepPort (p : Port) : Port := { set := p.set }
def keepUnit (p : PortUnit) : PortUnit := { window := p.window, idleMode := p.idleMode }

/-- A table with every value replaced, in canonical form. -/
def tabMap {α : Type} [DecidableEq α] (d : α) (t : Tab α) (f : α → α) : Tab α :=
  t.foldl (fun acc e => tabSet d acc e.1 (f e.2)) []

/-- The HC-8 core domain goes off: what its memories hold is lost, what stands in flash or with the AON controller is kept
(R25, R566, R644). Records in the backlog are lost, each counted. Of the reel status (R98) the turn, the tick and the
fields of the last valid frame since AON power-up (R91) are kept, the others go to reset (log 200, DESIGN CHOICE). No
image runs from then on: RUNNING_SLOT and FELL_BACK go to reset (log 225, DEDUCED). -/
def coreLost (s : State) : State :=
  let n := s.ev.backlog.length
  let p := powerBoundary s
  { s with
    reel := { turn := s.reel.turn, tick := s.reel.tick, clock := s.reel.clock, bounds := s.reel.bounds,
              seenAcq := s.reel.seenAcq, anyFrame := s.reel.anyFrame, masterId := s.reel.masterId,
              masterHoldover := s.reel.masterHoldover, benchInput := s.reel.benchInput, limit := s.reel.limitNext.getD s.reel.limit }
    sched := []
    ports := tabMap {} s.ports keepPort
    links := [], units := [], asics := []
    punits := tabMap {} s.punits keepUnit
    fwd := { qcfg := s.fwd.qcfg }
    plan := {}, twine := {}
    pool := { spillGib := s.pool.spillGib, scratchGib := s.pool.scratchGib, retired := s.pool.retired
              retiredNow := s.pool.retiredNow
              replaced := s.pool.replaced }
    anneal := {}
    power := { on := s.power.on, cfg := p.power.cfg, overlays := p.power.overlays }
    crier := { enable := s.crier.enable, blankLevel := s.crier.blankLevel, blankHold := s.crier.blankHold,
               gainOverlay := s.crier.gainOverlay, carrierOverlay := s.crier.carrierOverlay, noise := s.crier.noise }
    ledger := { peers := peersStored s.ledger }
    fw := { s.fw with running := false, fellBack := false, write := [] }
    mail := { boxes := (List.range 32).foldl (fun t k => tabSet (boxAtReset k) t k
                { source := (box s k).source, vector := (box s k).vector }) []
              mem := s.mail.mem, wipe := true, gen := s.mail.gen }
    ev := { batch := s.ev.batch, ring := s.ev.ring,
            held := s.ev.held, nextSeq := s.ev.nextSeq, lost := sat 32 (s.ev.lost + n), masked := s.ev.masked,
            lostRun := s.ev.lostRun + n, overflow := s.ev.overflow || decide (0 < n) }
    ctr := { live := (count (eventCtr 3) n s).ctr.live } }

/-- The events raised so far leave before the core goes off (R573). -/
def flushNow (s : State) : State := flushEvents s

/-- The order in which domains go off in a power-down, pump and valves excepted (R573). -/
def offOrder : List Nat := [1, 7, 6, 5, 4, 8, 3, 2, 0]

/-- Domains go off at once, the HC-8 core with what it holds (R578, R674, R666): the AON controller notes each. The
UNIT_STATE events of the ASICs and ports that go DARK with the core (R246, R681) leave before it does. -/
def allOff (ds : List Nat) (cause : Nat) (s : State) : State :=
  let gone := ds.filter s.power.on.contains
  let core := gone.contains 0
  let s := onlyIf core (fun s => flushNow (forAll (List.range 4) asicDown s)) s
  let s := forAll gone (fun d => raiseDomain d cause) s
  let s := modPower (fun p => { p with on := p.on.filter fun d => !ds.contains d, ramping := none }) s
  onlyIf core coreLost s

/-- The tray enters AON: nothing boots, nothing restarts. A latched halt stays until a wake condition (R559). -/
def enterAon (s : State) : State :=
  safeCheck (trayTo .aon (modTray (fun t =>
    { t with
      booting := false, restart := .none, powerDown := false, recovery := false, failed := [], jtag := false }) s))

/-- A halt (R576 to R579). -/
def haltWith (cause : Nat) (window : Bool) (s : State) : State :=
  raise 0x0A01 [(4, cause)] (modTray (fun t => { t with halted := true, haltCause := cause, booting := false, recovery := window }) s)

/-! ### Waking (R559, R666) -/

def wakePowerOn : Nat := 0
def wakePerst : Nat := 1
def wakeCold : Nat := 2
def wakeBrownOut : Nat := 3

/-- A boot step or an attempt at one begins. -/
def stepBegin (s : State) : State := modTray (fun t => { t with stepAt := s.reel.clock, stepFrom := s.reel.bounds }) s

/-- A domain is switched on where it is off. -/
def turnOn (d cause : Nat) (s : State) : State := if s.power.on.contains d then s else domainStart d cause s

/-- A wake condition (R559): any latched halt is cleared and the boot begins; with JTAG_EN high the scan domains are
switched on and held, and no firmware starts (R666). -/
def wake (code : Nat) (jtag : Bool) (s : State) : State :=
  let s := modTray (fun t =>
    { t with
      halted := false, haltCause := 0, recovery := false, brownOut := false, lastWake := code, wakeAt := s.reel.clock
      pumpOffAt := none, jtag := jtag, booting := !jtag, stepTries := 0, failed := [], restart := .none, powerDown := false }) s
  let s := stepBegin (turnOn 9 causeBoot s)
  if jtag then
    modPower (fun p => { p with ramping := none }) (forAll [0, 4, 5, 6, 7] (fun d => turnOn d causeBoot) s)
  else safeCheck s

/-- Straps, sensors and buttons as found when AON power comes up (R39, R547). -/
def panelFound (found : Contacts) : Panel :=
  let button := fun (c : Bool) => { contact := { closed := c }, ignore := c, pressedAt := if c then some 0 else none : Button }
  { find := button found.find
    latch := { closed := found.trayLatch }
    bays := (List.range 16).foldl (fun t b => tabSet {} t b
      { ask := button (found.ask.getLsbD b), latch := { closed := found.bayLatch.getLsbD b },
        presence := { closed := found.presence.getLsbD b } }) [] }

/-- Settings that stand in flash survive the loss of AON power: of the panel its configuration. -/
def powerUp (found : Contacts) (jtag : Bool) (s : State) : State :=
  let old := s.panel
  let s := modPanel (fun _ => { panelFound found with
    seatTrain := old.seatTrain, askTimeout := old.askTimeout, findTimeout := old.findTimeout }) s
  let s := modTray (fun t => { t with st := .off, strapsRead := true }) s
  wake wakePowerOn jtag (trayTo .aon s)

/-- AON power is absent, or has just come up with the straps not yet read. -/
def aonFresh (s : State) : Bool := s.tray.st == .off || !s.tray.strapsRead

/-- AON_POWER_UP: the one step that sets the tray number (R39). -/
def execAonPowerUp (straps : Nat) (found : Contacts) (jtag : Bool) (s : State) : Result :=
  if aonFresh s then
    match act (powerUp found jtag) s with
    | .next t => .next { t with tray := { t.tray with number := straps % 256 } }
    | r => r
  else act (fun s => s) s

/-- AON power is lost: everything but the flash is lost (R6, R566). -/
def powerLost (s : State) : State :=
  let k := coreLost s
  { k with
    reel := { limit := k.reel.limit }
    tray := { st := .off, role := s.tray.role }
    panel := { seatTrain := s.panel.seatTrain, askTimeout := s.panel.askTimeout, findTimeout := s.panel.findTimeout }
    pool := { k.pool with
      retiredNow := [], replaced := k.pool.replaced.filter fun e => !k.pool.retiredNow.contains e.1 }
    power := { k.power with on := [] }
    mail := { k.mail with gen := 0 }
    ev := { ring := k.ev.ring }
    ctr := {}, once := [] }

/-- AON_POWER_LOST (R566). -/
def execAonPowerLost (s : State) : Result := act powerLost s

/-- PERST_RELEASE (R559). -/
def execPerstRelease (us : Nat) (jtag : Bool) (s : State) : Result :=
  act (fun s => if s.tray.st == .aon && s.tray.strapsRead && decide (100 ≤ us) then wake wakePerst jtag s else s) s

/-! ### Loss of the busbar (R578, R674) -/

/-- Every switched domain goes off at once and the tray enters AON (R578). -/
def brownOut (s : State) : State :=
  let s := allOff (offOrder ++ [9]) causeBrownOut s
  modTray (fun t => { t with brownOut := true, pumpOffAt := none }) (enterAon s)

/-- BUSBAR_SAG: below 40 V for 10 ms while any switched domain is on. -/
def execBusbarSag (us : Nat) (s : State) : Result :=
  act (fun s => if aonUp s && !s.power.on.isEmpty && decide (10000 ≤ us) then brownOut s else s) s

/-- BUSBAR_OVERVOLTAGE: above 62 V for 1 ms. -/
def execBusbarOvervoltage (us : Nat) (s : State) : Result :=
  act (fun s => if aonUp s && decide (1000 ≤ us) then brownOut s else s) s

/-- BROWN_OUT_RECOVERY: back within 40 to 60 V for 1 s. -/
def execBrownOutRecovery (us : Nat) (jtag : Bool) (s : State) : Result :=
  act (fun s => if s.tray.st == .aon && s.tray.brownOut && decide (1000000 ≤ us) then wake wakeBrownOut jtag s else s) s

/-! ### Boot steps (R561 to R563, R576) -/

/-- STEP_FAULTS (R576, R586). -/
def stepFault (s : State) : State := modTray (fun t => { t with stepFaults := sat 16 (t.stepFaults + 1) }) s

/-- A step's work is done; success after a failed attempt counts one transient fault. -/
def stepDone (s : State) : State :=
  let s := onlyIf (s.tray.stepTries != 0) stepFault s
  stepBegin (modTray (fun t => { t with stepTries := 0 }) s)

/-- The tray passes to the next boot state. -/
def bootTo (st : TState) (s : State) : State := trayTo st (stepDone s)

/-- Entry to CORE: the held records enter the backlog (R644), and Crier's register is seeded (R487). -/
def enterCore (slot : Bool) (s : State) : State :=
  let s := modFw (fun w => { w with running := slot }) s
  let s := modEv (fun e => { e with backlog := (e.held ++ e.backlog).take 1024, held := [] }) s
  bootTo .core (modCrier (fun c => { c with lfsr := s.tray.number + 1 }) s)

/-- FW_FALLBACK (R562). -/
def fallBack (slot : Bool) (error : Nat) (s : State) : State :=
  raise 0x0A02 [iFlag slot, (8, error)] (modFw (fun w => { w with fellBack := true }) s)

/-- The second failure of a step: BOOT_STEP_FAULT with step, unit and 1 for lasting (R576). -/
def lastingStep (unit : Nat) (s : State) : State :=
  stick 24 (raise 0x0A03 [(8, stCode s.tray.st), iUnit unit, iFlag true] (stepFault s))

/-- A failed attempt: once more, or what the second failure does. -/
def stepFails (unit : Nat) (second : State → State) (s : State) : State :=
  if s.tray.stepTries = 0 then stepBegin (modTray (fun t => { t with stepTries := 1 }) s)
  else second (lastingStep unit s)

/-- The boot ROM tries the selected slot, then the other (R562); with both rejected the attempt fails (R575, R576). -/
def authenticate (readFails : Bool → Bool) (s : State) : State :=
  let a := s.fw.selected
  let ea := imageError s a (readFails a)
  if ea = 0 then enterCore a s
  else
    let s := fallBack a ea s
    if imageError s (!a) (readFails (!a)) = 0 then enterCore (!a) s
    else stepFails trayUnit (haltWith 2 true) s

/-- A domain that the boot has gone past: ready, or given up. -/
def bootedPast (s : State) (d : Nat) : Bool := domainOn s d || s.tray.failed.contains d

/-- The next domain of POOL or SWITCHES is switched on: pool west and east, the ASICs in ascending order, then cartridge
management (R442, R563). -/
def bootNextDomain (s : State) : State :=
  if s.power.ramping.isSome then s
  else
    let next := match s.tray.st with
      | .pool => [2, 3].find? fun d => !bootedPast s d
      | .switches => [4, 5, 6, 7, 8].find? fun d => !bootedPast s d
      | .lanes => [8].find? fun d => !bootedPast s d
      | _ => none
    match next with
    | some d => domainStart d causeBoot (stepDone s)
    | none => s

/-- BOOT_STEP_COMPLETE: the step's condition of R563 holds. `readFails0` and `readFails1` say that a flash read of a
slot failed twice (R561), `flow` is the coolant flow as sensor 30 reads it. -/
def bootStep (readFails0 readFails1 : Bool) (flow : Nat) (s : State) : State :=
  match s.tray.st with
  | .aon =>
    if minFlow ≤ (flow : Int) then
      let s := modPower (fun p => { p with ramping := none }) (sensorSet 30 flow s)
      let s := bootTo .auth (turnOn 0 causeBoot s)
      modPower (fun p => { p with ramping := none }) s
    else s
  | .auth => authenticate (fun b => if b then readFails1 else readFails0) s
  | .core => bootNextDomain (bootTo .pool s)
  | .pool => if [2, 3].all (bootedPast s) then bootNextDomain (bootTo .switches s) else s
  | .switches =>
    if (List.range 4).all fun a => (asicSt s a).answered || s.tray.failed.contains (4 + a) then
      bootNextDomain (bootTo .lanes s)
    else s
  | .lanes =>
    if (numbers 4 fun a => s.power.on.contains (4 + a)).all fun a => (asicSt s a).st == .standby then
      modReel (fun r => { r with waitFrom := s.reel.bounds }) (bootTo .reel s)
    else s
  | .reel => if s.reel.st == .locked || s.reel.st == .bench then bootTo .join s else s
  | .join =>
    if s.ledger.compared && s.ledger.quorum then bootTo .standby s else s
  | _ => s

def execBootStepComplete (readFails0 readFails1 : Bool) (flow : Nat) (s : State) : Result :=
  act (fun s => if s.tray.booting && !s.tray.halted then bootStep readFails0 readFails1 flow s else s) s

/-- DOMAIN_RAMP_DONE while booting: the next domain follows; cartridge management that is ready has its bays read
(R441, R442, R547, R548). A pool half that has returned brings free pages: packing that halted resumes (R371). -/
def rampDone (domain : Nat) (s : State) : State :=
  if s.power.ramping = some domain then
    let s := modPower (fun p => { p with ramping := none }) s
    let s := match longOp s 0x0702 with
      | some l => endLong l stOk [] s
      | none => s
    let s := onlyIf (domain == 8) readBays s
    let s := onlyIf (domain == 2 || domain == 3) resumePacking s
    onlyIf s.tray.booting bootNextDomain s
  else s

def execDomainRampDone (domain : Nat) (s : State) : Result := act (rampDone domain) s

/-- The limit of a boot step is passed, in ticks or turns (R563). -/
def stepLimitPassed (s : State) : Bool :=
  let t := s.reel.clock - s.tray.stepAt
  match s.tray.st with
  | .aon => decide (2500000000 ≤ t)
  | .auth | .core => decide (1000000000 ≤ t)
  | .pool => decide (500000000 ≤ t)
  | .switches => decide (25000000 ≤ t)
  | .lanes => decide (s.tray.stepFrom + 65536 ≤ s.reel.bounds)
  | .join => decide (s.tray.stepFrom + 262144 ≤ s.reel.bounds)
  | _ => false

/-- A domain that failed twice is switched off and the boot goes on (R576). -/
def giveUp (d : Nat) (s : State) : State :=
  let s := domainOff d causeRampTimeout (modTray (fun t => { t with failed := t.failed ++ [d], stepTries := 0 }) s)
  bootNextDomain (stepBegin s)

/-- BOOT_STEP_LIMIT (R576): `item` names the pool half (0 west, 1 east) or the ASIC that is late. -/
def bootLimit (item : Nat) (s : State) : State :=
  match s.tray.st with
  | .aon => stepFails trayUnit (haltWith 1 false) s
  | .auth => stepFails trayUnit (haltWith 2 true) s
  | .core => stepFails trayUnit (haltWith 3 true) s
  | .pool => if item < 2 && !bootedPast s (2 + item) then stepFails trayUnit (giveUp (2 + item)) s else s
  | .switches =>
    if item < 4 && s.power.on.contains (4 + item) && !(asicSt s item).answered then
      stepFails (asicUnit item) (giveUp (4 + item)) s
    else s
  | .lanes => stepFails trayUnit (fun s =>
      modReel (fun r => { r with waitFrom := s.reel.bounds }) (trayTo .reel (stepBegin (modTray (fun t => { t with stepTries := 0 }) s)))) s
  | .join => stepFails trayUnit (fun s =>
      trayTo .standby (modTray (fun t => { t with stepTries := 0 }) s)) s
  | _ => s

def execBootStepLimit (item : Nat) (s : State) : Result :=
  act (fun s => if s.tray.booting && !s.tray.halted && stepLimitPassed s then bootLimit item s else s) s

/-! ### Trips and failures (R457, R464, R578) -/

/-- After an HC-8 core trip or a loss of that domain the tray is in AON; the pump runs on for 10 s (R573, R578). -/
def coreGone (cause : Nat) (s : State) : State :=
  let s := enterAon (allOff offOrder cause s)
  modTray (fun t => { t with pumpOffAt := if s.power.on.contains 9 then some (s.reel.clock + 5000000000) else none }) s

/-- DOMAIN_FAIL (R464): the domain is switched off whatever the tray state. R654 names no cause for it, so the cause
is free. -/
def execDomainFail (domain : Nat) (s : State) : Result :=
  act (fun s =>
    if s.power.on.contains domain then
      let (cause, s) := drawFree s
      if domain = 0 then coreGone cause s else safeCheck (domainOff domain cause s)
    else s) s

/-- The three thresholds of a sensor in its units (R457, R477), for junctions and stacks. -/
def thresholds (s : State) (sensor : Nat) : Int × Int × Int :=
  let i := if sensor < 18 then 0x25 else 0x28
  (8 * calEffective s i, 8 * calEffective s (i + 1), 8 * calEffective s (i + 2))

/-- THERMAL_TRIP, with the lamp's and the sticky condition (R457, R525, R649). -/
def raiseTrip (sensor domain : Nat) (s : State) : State :=
  stick 26 (raise 0x0704 [(8, sensor), (4, domain)] (modPanel (fun p => { p with tripped := true }) s))

/-- At or above TRIP (R457). -/
def tripAct (sensor : Nat) (s : State) : State :=
  if sensor < 16 then
    let d := 4 + sensor / 4
    if s.power.on.contains d then domainOff d causeTrip (raiseTrip sensor d s) else s
  else if sensor = 16 then
    if s.power.on.contains 0 then
      haltWith 4 false (coreGone causeTrip s)
    else s
  else if sensor = 17 then domainOff 1 causeTrip s
  else
    let d := if sensor < 22 then 2 else 3
    if s.power.on.contains d then domainOff d causeTrip (raiseTrip sensor d s) else s

/-- A temperature reading against its thresholds (R457): THERMAL_WARN as it comes to stand at or above WARN, deferral
and page placement while it stands there, a step of the thermal level, a trip. -/
def thermalAct (sensor : Nat) (raw : Int) (s : State) : State :=
  let (warn, step, trip) := thresholds s sensor
  let v := sensorCal s sensor raw
  let before := (sensorValue s sensor).any fun x => decide (warn ≤ x)
  let s := sensorSet sensor raw s
  let s := onlyIf (decide (warn ≤ v) && !before) (raise 0x0703 [(8, sensor), (16, enc 16 v)]) s
  let s := if 18 ≤ sensor then
      modPool (fun p => { p with hot := numbers 8 fun k => if k = sensor - 18 then decide (warn ≤ v) else p.hot.contains k }) s
    else s
  let s := if 16 ≤ sensor then
      modPower (fun p => { p with hotDefer := numbers 26 fun k => if k = sensor then decide (step ≤ v) else p.hotDefer.contains k }) s
    else onlyIf (decide (step ≤ v) && s.tray.restart != .warming) (thermalDown 2) s
  onlyIf (decide (trip ≤ v)) (tripAct sensor) s

/-- THERMAL_THRESHOLD: a reading of a sensor; those without thresholds are only kept. -/
def execThermalThreshold (sensor : Nat) (raw : Int) (s : State) : Result :=
  act (fun s =>
    if !coreUp s || 32 ≤ sensor then s
    else if sensor < 26 then thermalAct sensor raw s
    else sensorSet sensor raw s) s

/-! ### Power-down (R573, R574) -/

/-- The power-down sequence to the end of step 5 (R573): domains off in order, POWER_DOWN_CORE, then the HC-8 core. The
pump follows 10 s later. From CORE to JOIN the tray is in AON at once, otherwise in SERVICE until then (R566). -/
def powerDownSeq (s : State) : State :=
  let cold := s.tray.restart == .cold
  let early := decide (stCode s.tray.st < 9)
  let s := onlyIf (!early) (trayTo .service) (modTray (fun t => { t with powerDown := true, booting := false }) s)
  let s := forAll (offOrder.dropLast) (fun d => domainOff d causePowerDown) s
  let s := flushNow (raise 0x0A06 [] s)
  let s := allOff [0] causePowerDown s
  let s := onlyIf early enterAon s
  modTray (fun t => { t with
    restart := if cold then .cold else .down, powerDown := true, pumpOffAt := some (s.reel.clock + 5000000000) }) s

/-- A cold restart from the recovery window (R566, R587): every switched domain but the pump off at once, then a wake
condition. -/
def recoveryRestart (s : State) : State :=
  let s := flushNow s
  wake wakeCold false (enterAon (allOff offOrder causePowerDown s))

/-- What a command that ended the tray's work sets going, once its status is written (R587). -/
def afterCommand (s : State) : State :=
  match s.tray.restart with
  | .down | .cold =>
    if s.tray.powerDown then s
    else if s.tray.recovery || stCode s.tray.st == 2 then recoveryRestart s
    else powerDownSeq s
  | _ => s

/-- PUMP_RUN_ON_END: 10 s after the HC-8 core the pump goes off and the tray is in AON; a cold restart wakes at once
(R566, R573). -/
def execPumpRunOnEnd (s : State) : Result :=
  act (fun s =>
    if s.tray.pumpOffAt.any fun t => decide (t ≤ s.reel.clock) then
      let cold := s.tray.restart == .cold
      let s := modTray (fun t => { t with pumpOffAt := none }) s
      let s := domainOff 9 causePowerDown s
      let s := enterAon s
      if cold then wake wakeCold false s else s
    else s) s

/-- A stall is not EMPTY and DISCARD = 0 (R574). -/
def stallsHold (discard : Bool) (s : State) : Bool := !discard && s.pool.stalls.any fun e => e.2.st != .empty

/-- TRAY_POWER_DOWN (R590). -/
def trayPowerDownBody (c : Cmd) (s : State) : Verdict :=
  lenIs c 4 <|
    check stPrecondition (stallsHold (bit (argW c 0) 8) s) <|
      check stNotNow (s.tray.st != .standby && s.tray.st != .service) <|
        applied (modTray (fun t => { t with restart := .down }) s)

def execTrayPowerDown (mb fails : Nat) (s : State) : Result :=
  act (fun s => afterCommand (writeCommand 0x0A08 mb fails trayPowerDownBody s)) s

/-! ### Restarts (R570 to R572, R579, R587, R615) -/

/-- What R571 forbids a warm restart for. -/
def warmForbidden (s : State) : Bool :=
  !s.sched.isEmpty || !s.pool.recalls.isEmpty || s.tray.powerDown || slotCompat s s.fw.selected != ownCompat s

/-- TRAY_RESTART (R587). -/
def trayRestartBody (c : Cmd) (s : State) : Verdict :=
  lenIs c 4 <|
    let mode := fld (argW c 0) 1 0
    argChecks [(0, decide (2 ≤ mode))] <|
      if mode = 0 then
        check stPrecondition (warmForbidden s) <|
          check stNotNow (decide (stCode s.tray.st < 9) || s.tray.recovery) <|
            applied (modTray (fun t => { t with restart := .warm }) s)
      else if s.tray.recovery then applied (modTray (fun t => { t with restart := .cold }) s)
      else
        check stPrecondition (stallsHold (bit (argW c 0) 8) s) <|
          check stNotNow (s.tray.st == .admitted || s.tray.st == .unscheduled) <|
            applied (modTray (fun t => { t with restart := .cold }) s)

def execTrayRestart (mb fails : Nat) (s : State) : Result :=
  act (fun s => afterCommand (writeCommand 0x0A05 mb fails trayRestartBody s)) s

/-- The warm restart begins (R570): OPEN instances abandoned with cause DRIVER, staging dropped. -/
def warmBegin (s : State) : State :=
  let s := forAll (s.twine.insts.filter fun e => e.2.st == .opened) (fun e => abandon e.1 causeDriver none) s
  let s := forAll ((s.pool.stalls.filter fun e => e.2.st == .filling).map (·.1)) pushEnds s
  modTray (fun t => { t with restart := .warming, restartAt := s.reel.bounds, restartTry := 0 }) s

/-- WARM_RESTART_BEGIN: every long command has ended (R615). -/
def execWarmRestartBegin (s : State) : Result :=
  act (fun s => if s.tray.restart == .warm && s.mail.long.isEmpty then warmBegin s else s) s

/-- WARM_RESTART_DONE (R570, R572): ports in TRAINING restart at step 0, those in PROBATION their clean-turn count. -/
def warmDone (s : State) : State :=
  let s := { s with ports := s.ports.map fun e =>
    if e.2.st = .training then (e.1, { startAttempt s e.2 with attempts := e.2.attempts }) else e }
  let s := forAll ((s.ports.filter fun e => e.2.st == .probation).map (·.1)) (fun u => modPunit u fun p => { p with clean := 0 }) s
  let turns := s.reel.bounds - s.tray.restartAt
  let s := modFw (fun w => { w with running := w.selected }) s
  let s := modTray (fun t => { t with restart := .none, warmRestarts := sat 16 (t.warmRestarts + 1) }) s
  stick 27 (raise 0x0A04 [iCount turns] s)

def execWarmRestartDone (s : State) : Result :=
  act (fun s => if s.tray.restart == .warming && !s.tray.halted then warmDone s else s) s

/-- WARM_RESTART_LIMIT (R579): once more, then a halt with the recovery window. -/
def execWarmRestartLimit (s : State) : Result :=
  act (fun s =>
    if s.tray.restart == .warming && !s.tray.halted && decide (s.tray.restartAt + 131072 ≤ s.reel.bounds) then
      if s.tray.restartTry = 0 then modTray (fun t => { t with restartTry := 1, restartAt := s.reel.bounds }) s
      else haltWith 5 true s
    else s) s

/-! ### Other tray commands (R586, R588, R589) -/

def trayStateGetBody (c : Cmd) (s : State) : Verdict := lenIs c 0 (report (trayWords s) s)

def execTrayStateGet (mb fails : Nat) (s : State) : Result := act (readCommand 0x0A04 mb fails trayStateGetBody) s

/-- TRAY_SERVICE (R588); a tray held for a duplicate number stays in STANDBY (R52). -/
def trayServiceBody (c : Cmd) (s : State) : Verdict :=
  lenIs c 4 <|
    let enter := bit (argW c 0) 0
    check stNotNow (s.tray.powerDown || (if enter then s.tray.st != .standby || s.tray.dup else s.tray.st != .service)) <|
      applied (trayTo (if enter then .service else .standby) s)

def execTrayService (mb fails : Nat) (s : State) : Result := act (writeCommand 0x0A06 mb fails trayServiceBody) s

/-- TRAY_RESUME (R568, R589). -/
def trayResumeBody (c : Cmd) (s : State) : Verdict :=
  lenIs c 12 <|
    let turn := argTurn c 1
    argChecks [(4, turnTooFar turn s)] <|
      check stPrecondition (untimed s || s.reel.st == .holdover || !resumeBoundary s turn ||
          (s.tray.returnSt == .admitted && s.plan.inForce.isNone && (pendingSwap s).isNone)) <|
      check stNotNow (turnTooNear turn s || schedTaken .resume 0 turn s || s.tray.st != .unscheduled) <|
      check stNoRoom (schedFull s) (applied (schedAdd ⟨.resume, 0, turn, 0x0A07, false, .none⟩ s))

def execTrayResume (mb fails : Nat) (s : State) : Result := act (writeCommand 0x0A07 mb fails trayResumeBody) s

end Sys2Proof.Machine
end

