-- ==== Sys2Proof/Machine/Firmware.lean ====
section
/-! DEFINITION. Firmware images (R560, R582 to R585) and the limits of the long commands (R601). -/

namespace Sys2Proof.Machine

open Sys2Proof

/-! ### FW_WRITE (R582) -/

/-- A command on the spare slot runs (R601). -/
def spareBusy (s : State) : Bool := s.mail.long.any fun l => l.opcode == 0x0A00 || l.opcode == 0x0A01

/-- Bytes written to a slot from an offset on. -/
def imgWrite (slot : Bool) : Nat → List Byte → State → State
  | _, [], s => s
  | i, b :: t, s => imgWrite slot (i + 1) t (modImage slot (fun m => { m with bytes := tabSet none m.bytes i (some b) }) s)

/-- Any write clears the slot's verified mark; a spare slot selected for boot gives way to the running one (R582). -/
def writeMarks (s : State) : State :=
  let slot := spareSlot s
  modFw (fun w => { w with selected := w.running }) (modImage slot (fun m => { m with verified := false }) s)

/-- The slot is erased (R582): what an erased byte reads is free. -/
def eraseSpare (s : State) : State :=
  let (v, s) := drawFree s
  modImage (spareSlot s) (fun m => { m with erased := true, fill := v, bytes := [] }) s

def fwOffset (c : Cmd) : Nat := argW c 0
def fwBytes (c : Cmd) : Nat := fld (argW c 1) 11 0
def fwData (c : Cmd) : List Byte := (c.args.drop 8).take (fwBytes c)

/-- FW_WRITE (R582): at offset 0 a long command of at most 2 s that first erases the slot. -/
def fwWriteBody (c : Cmd) (s : State) : Verdict :=
  if c.len < 8 || c.len != 8 + fwBytes c then .refuse stBadArg 0xFFF []
  else
    let off := fwOffset c
    let n := fwBytes c
    argChecks [(0, off % 4 != 0 || decide (67108860 < off) || decide (67108864 < off + n)),
        (4, n % 4 != 0 || decide (n < 4) || decide (3072 < n))] <|
      check stBusy (spareBusy s) <|
        let t := writeMarks s
        if off = 0 then .start 0 1000000000 (modFw (fun w => { w with write := fwData c }) t)
        else applied (imgWrite (spareSlot t) off (fwData c) t)

/-- What a second failed attempt leaves behind (R612): the slot unverified, and a free number of the bytes written. -/
def fwWriteFault (c : Cmd) (s : State) : State :=
  let (n, s) := drawFree (writeMarks s)
  imgWrite (spareSlot s) (fwOffset c) ((fwData c).take n) s

def execFwWrite (mb fails : Nat) (s : State) : Result :=
  act (runCommand 0x0A00 mb fails (fun _ => false) fwWriteFault fwWriteBody) s

/-- FW_ERASE_DONE (R582, R612): the write proceeds; an attempt that fails is made once more (`attempts` 3), a second
failure is a lasting flash fault. -/
def execFwEraseDone (ok : Bool) (s : State) : Result :=
  act (fun s =>
    match longOp s 0x0A00 with
    | none => s
    | some l =>
      let shown : Long := { l with attempts := min l.attempts 2 }
      let gone := modMail (fun m => { m with long := (m.long.erase l) ++ [shown] }) s
      let data := s.fw.write
      if ok then
        let t := eraseSpare (modFw (fun w => { w with write := [] }) gone)
        endLong shown stOk [] (onlyIf (l.attempts == 3) (noteTransient 1) (imgWrite (spareSlot t) 0 data t))
      else if l.attempts = 1 then
        modMail (fun m => { m with long := m.long.map fun x => if x = l then { x with attempts := 3 } else x }) s
      else
        let t := eraseSpare (modFw (fun w => { w with write := [] }) gone)
        let (n, t) := drawFree t
        endLongFault shown [] (imgWrite (spareSlot t) 0 (data.take n) t)) s

/-! ### FW_VERIFY, FW_ACTIVATE and FW_STATUS_GET (R583 to R585) -/

/-- FW_VERIFY (R583): a long command of at most 4 s. -/
def fwVerifyBody (c : Cmd) (s : State) : Verdict :=
  lenIs c 0 <| check stBusy (spareBusy s) (.start 0 2000000000 s)

def execFwVerify (mb fails : Nat) (s : State) : Result := act (writeCommand 0x0A01 mb fails fwVerifyBody) s

/-- FW_VERIFY_DONE (R583): the spare slot is checked. `readFails` says that a flash read failed twice (R561). -/
def execFwVerifyDone (readFails : Bool) (s : State) : Result :=
  act (fun s =>
    match longOp s 0x0A01 with
    | none => s
    | some l =>
      let e := imageError s (spareSlot s) readFails
      let result := leBytes 4 e
      if e = 0 then endLong l stOk result (modImage (spareSlot s) (fun m => { m with verified := true }) s)
      else if e = 5 then
        let shown : Long := { l with attempts := 2 }
        endLongFault shown result (modMail (fun m => { m with long := (m.long.erase l) ++ [shown] }) s)
      else endLong l stBadArg result s) s

/-- FW_ACTIVATE (R584). -/
def fwActivateBody (c : Cmd) (s : State) : Verdict :=
  lenIs c 4 <|
    let slot := bit (argW c 0) 0
    check stPrecondition (slot != s.fw.running && !(imageOf s slot).verified) <|
      check stBusy (slot == spareSlot s && spareBusy s) <|
        applied (modFw (fun w => { w with selected := slot }) s)

def execFwActivate (mb fails : Nat) (s : State) : Result := act (writeCommand 0x0A02 mb fails fwActivateBody) s

/-- FW_STATUS_GET's words (R585). -/
def fwWords (s : State) : List Nat :=
  [put 31 31 s.fw.running.toNat + put 30 30 s.fw.selected.toNat + put 29 29 (imageOf s (spareSlot s)).verified.toNat +
     put 28 28 s.fw.fellBack.toNat,
   put 31 16 (slotCompat s false) + put 15 0 (slotCompat s true), slotVersion s false, slotVersion s true,
   slotBody s (spareSlot s), 0]

def fwStatusGetBody (c : Cmd) (s : State) : Verdict := lenIs c 0 (report (fwWords s) s)

def execFwStatusGet (mb fails : Nat) (s : State) : Result := act (readCommand 0x0A03 mb fails fwStatusGetBody) s

/-! ### Limits of long commands (R601) -/

/-- What reaching its limit leaves of a long command. -/
def limitEffect (l : Long) (s : State) : State :=
  if l.opcode = 0x0004 then modMail (fun m => { m with calls := m.calls.filter fun c => c.mb != l.mb }) s
  else if l.opcode = 0x0103 then modPort l.subject (fun p => { p with adapt := none }) s
  else if l.opcode = 0x0702 then
    match s.power.ramping with
    | some d => domainOff d causeRampTimeout s
    | none => s
  else if l.opcode = 0x0708 then raiseCalDone l stTimeout s
  else if l.opcode = 0x0822 then raiseTrimDone stTimeout s
  else modImage (spareSlot s) (fun m => { m with verified := false }) (modFw (fun w => { w with write := [] }) s)

/-- LONG_COMMAND_LIMIT: the command ends with TIMEOUT. -/
def execLongCommandLimit (mb : Nat) (s : State) : Result :=
  act (fun s =>
    match longOf s mb with
    | some l =>
      if l.limit ≤ s.reel.clock then
        let shown : Long := { l with attempts := min l.attempts 2 }
        endLong shown stTimeout [] (limitEffect l (modMail (fun m => { m with long := (m.long.erase l) ++ [shown] }) s))
      else s
    | none => s) s

end Sys2Proof.Machine
end

