-- ==== Sys2Proof/Machine/Domain.lean ====
section
/-! DEFINITION. The tray's place in its domain (01_tray_and_domain.md): the declared role and the inventory. -/

namespace Sys2Proof.Machine

open Sys2Proof

/-- The group count of a GCOUNT code (R55). -/
def groupCount (code : Nat) : Nat := 2 ^ code

/-- The role that an argument block of DOMAIN_ROLE_SET declares (R55). -/
def roleOf (c : Cmd) : Role :=
  let w0 := argW c 0
  let w1 := argW c 1
  { role := fld w0 1 0, gcount := fld w0 3 2, group := fld w0 5 4, position := fld w0 13 8,
    endpoints := fld w1 11 0, pods := fld w1 19 12, traysM1 := fld w1 27 20 }

/-- PODS is out of range for ROLE (R55). -/
def podsBad (r : Role) : Bool := if r.role = 0 then r.pods != 0 else decide (r.pods < 2) || decide (64 < r.pods)

/-- POSITION is out of range (R55): a leaf's field takes every pod number 0 to 63. -/
def positionBad (r : Role) : Bool :=
  match r.role with
  | 0 => r.position != 0
  | 1 => false
  | _ => decide (35 < r.position)

/-- The fields of a role together exceed R35, or ENDPOINTS exceeds its pods (R56). -/
def roleExceeds (r : Role) : Bool :=
  let g := groupCount r.gcount
  let trays := if r.role = 0 then g else g * (r.pods + 36)
  let ends := if r.role = 0 then 72 else 36 * r.pods
  decide (256 < trays) || decide (trays < r.traysM1 + 1) || decide (ends < r.endpoints) || decide (2304 < r.endpoints)

/-- DOMAIN_ROLE_SET (R53 to R56); the recorded first CTRL frames are checked again (R47). -/
def domainRoleSetBody (c : Cmd) (s : State) : Verdict :=
  lenIs c 8 <|
    let r := roleOf c
    argChecks [(0, r.role == 3 || r.gcount == 3 || decide (groupCount r.gcount ≤ r.group) || positionBad r),
      (4, podsBad r || r.endpoints == 0)] <|
      check stPrecondition (roleExceeds r) <|
        check stNotNow (s.tray.st == .admitted) <|
          applied (forAll (List.range 4) rejudgeWiring (withCarts (modTray fun t => { t with role := some r }) s))

def execDomainRoleSet (mb fails : Nat) (s : State) : Result := act (writeCommand 0x0800 mb fails domainRoleSetBody) s

/-- DOMAIN_ROLE_GET's words (R57). -/
def roleWords (s : State) : List Nat :=
  match s.tray.role with
  | some r =>
    [put 31 31 1 + put 13 8 r.position + put 5 4 r.group + put 3 2 r.gcount + put 1 0 r.role,
     put 27 20 r.traysM1 + put 19 12 r.pods + put 11 0 r.endpoints]
  | none => [0, 0]

def domainRoleGetBody (c : Cmd) (s : State) : Verdict := lenIs c 0 (report (roleWords s) s)

def execDomainRoleGet (mb fails : Nat) (s : State) : Result := act (readCommand 0x0801 mb fails domainRoleGetBody) s

/-- The pages of a half that are not retired. -/
def usablePages (s : State) (h : Nat) : Nat :=
  3145728 - ((s.pool.retired ++ s.pool.retiredNow).filter fun p => pageHalf p == h).length

/-- TRAY_INVENTORY_GET's words (R58). An ASIC that has not been powered yet shows the field's reset value. -/
def inventoryWords (s : State) : List Nat :=
  let bays := fun p => maskOf (numbers 16 fun b => p (bay s b))
  [put 23 16 (maskOf (numbers 8 fun k => halfUp s (k / 4))) +
     put 15 12 (maskOf (numbers 4 fun a => (asicSt s a).st == .standby || (asicSt s a).st == .admitted)) +
     put 11 8 (maskOf (numbers 4 fun a => (asicSt s a).answered || ((asicSt s a).present && !s.power.on.contains (4 + a)))) + put 7 0 s.tray.number,
   put 31 16 (bays fun y => y.latch.closed) + put 15 0 (bays fun y => y.presence.closed),
   put 15 0 (bays fun y => y.idOk),
   put 18 0 ((((List.range 2).filter (halfUp s)).map (usablePages s)).sum / 16)]

def trayInventoryGetBody (c : Cmd) (s : State) : Verdict := lenIs c 0 (report (inventoryWords s) s)

def execTrayInventoryGet (mb fails : Nat) (s : State) : Result :=
  act (readCommand 0x0802 mb fails trayInventoryGetBody) s

end Sys2Proof.Machine
end

