-- ==== Sys2Proof/Machine/Reel.lean ====
section
/-! DEFINITION. Reel time (02_reel_time.md): the turn boundary and the tick, the states of the receiver, markers,
frames, count and phase steps, holdover, the bench master and the reel commands. -/

namespace Sys2Proof.Machine

open Sys2Proof

/-! ### The turn boundary (R63, R75, R76, R93, R97) -/

/-- The count goes from the turn that would have come to another: the offsets of the ledger records held are kept
against the local count and move with it (R498). -/
def countMove (expected new : Nat) (s : State) : State :=
  if expected % 2 ^ 48 = new % 2 ^ 48 then s
  else
    let d := sgn 48 (new % 2 ^ 48 + 2 ^ 48 - expected % 2 ^ 48)
    modLedger (fun l => { l with
      records := tabMap none l.records fun o => o.map fun r => { r with offset := r.offset.map fun x => x - d } }) s

/-- The phase error of a slew with some of its 64 turns left (R84). -/
def slewError (e : Int) (left : Nat) : Int := Int.tdiv (e * left) 64

/-- What a boundary does to the receiver's tracking: in LOCKED the frames and markers of the turn that ends are judged
(R77, R88, R89); a slew goes on (R84); HOLDOVER counts its turns (R98). A turn without a valid frame counts for R90 in
every state but ABSENT, in which no turn is one of R678's. -/
def reelTurn (r : Reel) : Reel :=
  let r := { r with
    limit := r.limitNext.getD r.limit, limitNext := none, held := 0
    holdTurns := if r.st = RState.holdover then r.holdTurns + 1 else r.holdTurns }
  let r := if r.slewLeft = 0 then r
    else { r with slewLeft := r.slewLeft - 1, phaseErr := slewError r.slewFrom (r.slewLeft - 1) }
  let r := { r with noFrame := if r.st = RState.absent then r.noFrame else if r.frameValid then 0 else r.noFrame + 1, frameValid := false }
  if r.st = .locked then
    { r with
      framePrev := r.frameNow, frameNow := none, frameSeen := false
      noMarker := if r.markerSeen then 0 else r.noMarker + 1
      displaced := if r.markerSeen then r.displaced else none, markerSeen := false }
  else r

/-- The frame that a bench master sends during the turn that runs (R61, R94, R96): the count of the next turn, FORMAT 1,
the commanded MASTER_ID, HOLDOVER 0, BENCH 1. -/
def benchFrame (r : Reel) : BitVec 128 :=
  let c := (r.turn + 1) % 2 ^ 48
  let body := beWords [put 31 16 0x5A6B + put 15 0 (c / 2 ^ 32), c % 2 ^ 32, put 31 28 1 + put 27 20 r.benchId + put 18 18 1]
    ++ [0, 0]
  BitVec.ofNat 128 (ofBe body * 2 ^ 16 + crc16 body)

/-- The marker that a bench master drives at a boundary (R94); outside BENCH the reel outputs hold logic 0. -/
def benchMarker (s : State) : State :=
  if s.reel.st = .bench then emit .reelMarker (modReel (fun r => { r with markerSeen := true }) s) else s

/-- The frame of a turn that a generated marker began goes out from period 16, tick 64, on (R61, R94). -/
def benchSend (s : State) : State :=
  if s.reel.st = .bench && s.reel.markerSeen && s.reel.tick == 64 then emit (.reelFrame (benchFrame s.reel)) s else s

/-- A turn begins at its tick 0: settings that wait for it, the generated marker, and the wrap (R93). -/
def turnBoundary (new : Nat) (s : State) : State :=
  let old := s.reel.turn
  let s := countMove (old + 1) new s
  let s := modReel (fun r => { reelTurn r with turn := new % 2 ^ 48, tick := 0, bounds := r.bounds + 1 }) s
  let s := modCtr (fun c => { c with recent := c.recent.filter fun e => decide (s.reel.bounds < e.2.1 + 64) }) s
  let s := modLedger (fun l => { l with stepBy := none }) s
  let s := onlyIf (old == 2 ^ 48 - 1 && new % 2 ^ 48 == 0) (raise 0x0814 []) s
  adaptTurns (benchMarker (crierMode (powerBoundary s)))

/-- The turn that follows on the local count; a receiver without time of its own adds the prevailing offset (R499). -/
def nextTurn (s : State) : Nat :=
  match s.ledger.stepBy with
  | some o => if reelTimed s then s.reel.turn + 1 else enc 48 ((s.reel.turn : Int) + 1 + o)
  | none => s.reel.turn + 1

/-! ### Steps (R85, R86) -/

/-- Apply a due action that a forward step passed over, or that falls on the step's own turn (R86). -/
def applyAction (a : Sched) (s : State) : State :=
  match a.kind, a.arg with
  | .freqStep, _ => applyFreqStep a (schedRemove a s)
  | .tableSwitch, _ => applyTableSwitch a s
  | .planSwap, _ => applyPlanSwap a s
  | .resume, _ => applyResume a s
  | .withdraw, _ => withdrawUnit a.unit a.turn (schedRemove a s)
  | .admission, _ => admitUnit a.unit a.turn (schedRemove a s)
  | .laneChange, .lane ls => applyLaneChange a.unit ls (schedRemove a s)
  | .laneChange, _ => schedRemove a s

/-- The turn of an action lies in the turns that a forward step to `new` passes over. -/
def passedOver (old new : Nat) (a : Sched) : Bool :=
  decide (tsub new (old + 1) < 2 ^ 47) && decide (tsub a.turn (old + 1) < tsub new (old + 1))

/-- Actions passed over take effect at the step's marker, each at its step of R75, with SCHEDULED_LATE (R86). -/
def applyPassed (old new : Nat) (s : State) : State :=
  if s.sched.any (passedOver old new) then
    let rankLe := fun (a b : Sched) => decide (schedRank a < schedRank b) ||
      (decide (schedRank a = schedRank b) && decide (tsub a.turn (old + 1) ≤ tsub b.turn (old + 1)))
    let due := sortBy rankLe (s.sched.filter (schedDue s))
    forAll due (fun a s =>
      if s.sched.contains a then
        applyAction a (onlyIf (passedOver old new a) (raiseLate a (new % 2 ^ 48)) s)
      else s) s
  else s

/-- The step decided takes effect at its marker (R85): REEL_STEP, its counter, and CTRL alone until tick 128. No head
counts the pitches of removed time (R679). -/
def takeStep (d : RStep) (s : State) : State :=
  let s := forgetHeads s
  let old := s.reel.turn
  let s := turnBoundary d.turn (modReel (fun r => { r with step := none, ctrlOnly := true, phaseErr := 0 }) s)
  let s := count (hc8Ctr (if d.kind = 1 then 5 else 6)) 1 s
  let s := raise 0x0811 [(8, d.kind), iTurn d.before, iTurn d.turn] s
  applyPassed old d.turn s

/-! ### The tick (R62, R63, R85, R92) -/

/-- What one tick of the local oscillator does whatever the count: frames whose egress ends leave their cells, every
transmitter completes the block or pair that ends, and Crier its change of mode and its backoff wait (R230, R103, R487). -/
def tickWork (s : State) : State :=
  let s := egressEnds (modReel (fun r => { r with clock := r.clock + 1, sinceMarker := r.sinceMarker.map (· + 1) }) s)
  backoffWait (crierMode (forAll (s.ports.map (·.1)) sendTick s))

/-- One tick on the local oscillator: the step of an empty queue. With a step decided the count holds at 4,095, but in
BENCH, whose own marker comes there (R94). Egress resumes at tick 128 after a frequency step (R92). -/
def tick (s : State) : State :=
  if aonUp s then
    let s := tickWork s
    if s.reel.tick < 4095 then
      benchSend (modReel (fun r => { r with tick := r.tick + 1, freqPause := r.freqPause && r.tick != 127 }) s)
    else match s.reel.step with
      | some d => if s.reel.st = .bench then takeStep d s else modReel (fun r => { r with held := r.held + 1 }) s
      | none => turnBoundary (nextTurn s) s
  else s

/-- A tick with its end: the events that it raises are placed. -/
def tickStep (s : State) : Result := act tick s

/-! ### States of the receiver (R77) -/

/-- A change of state, with REEL_STATE (R657). -/
def reelTo (st : RState) (s : State) : State :=
  let old := s.reel.st
  if old = st then s
  else raise 0x0810 [(3, reelCode old), (3, reelCode st)] (modReel (fun r => { r with st := st }) s)

/-- Markers and frames are followed afresh. -/
def trackFresh (r : Reel) : Reel :=
  { r with
    frameNow := none, framePrev := none, frameSeen := false, sinceMarker := none, markerSeen := false, noMarker := 0
    displaced := none }

/-- HOLDOVER with its loss turn, some boundaries after it (R77, R79). A step decided is dropped (R85). -/
def toHoldover (loss passed : Nat) (s : State) : State :=
  reelTo .holdover (modReel (fun r =>
    { trackFresh r with step := none, held := 0, lossTurn := loss, holdTurns := passed, slewLeft := 0 }) s)

/-- A held turn is abandoned (R85): it ends at once, the next begins with the local count plus 1, and the held turn is
the loss turn. -/
def abandonStep (s : State) : State :=
  let held := s.reel.turn
  let s := turnBoundary (held + 1) (modReel (fun r => { r with step := none, ctrlOnly := true }) s)
  toHoldover held 1 s

/-- The count is held at 4,095 for its marker. -/
def isHeld (s : State) : Bool := s.reel.st == .locked && s.reel.step.isSome && s.reel.tick == 4095

/-- REEL_EDGES_PRESENT (R77): at the first entry after AON power-up the counters run from turn 0. The entry that R77
means is one from ABSENT: leaving BENCH for ACQUIRING is none (log 199, DESIGN CHOICE). -/
def execReelEdgesPresent (s : State) : Result :=
  act (fun s =>
    if coreUp s && s.reel.st == .absent then
      reelTo .acquiring (modReel (fun r =>
        { trackFresh r with
          turn := if r.seenAcq then r.turn else 0, tick := if r.seenAcq then r.tick else 0
          seenAcq := true, timeValid := false }) s)
    else s) s

/-- REFERENCE_LOSS (R79): edges absent, or the reference out of range in 2 consecutive turns. Out of range, a receiver
in ACQUIRING stays there (R60). -/
def execReferenceLoss (outOfRange : Bool) (s : State) : Result :=
  act (fun s =>
    match s.reel.st with
    | .locked => if isHeld s then abandonStep s else toHoldover s.reel.turn 0 s
    | .acquiring => if outOfRange then s else reelTo .absent (modReel trackFresh s)
    | .holdover | .free => if outOfRange then s else modReel trackFresh s
    | .absent | .bench => s) s

/-- MARKER_ABSENT (R77): the markers of this turn and the one before did not come. -/
def execMarkerAbsent (s : State) : Result :=
  act (fun s =>
    if s.reel.st = .locked && !s.reel.markerSeen && decide (1 ≤ s.reel.noMarker) then
      if isHeld s then abandonStep s else toHoldover s.reel.turn 0 s
    else s) s

/-- STEP_HOLD_ABANDON (R85): reference loss during the hold, or 4,096 ticks without a marker. -/
def execStepHoldAbandon (refLost : Bool) (s : State) : Result :=
  act (fun s => if isHeld s && (refLost || decide (4096 ≤ s.reel.held)) then abandonStep s else s) s

/-- STEP_CTRL_ONLY_END (R85): tick 128 of the first turn after a step or an abandoned held turn. -/
def execStepCtrlOnlyEnd (s : State) : Result :=
  act (fun s => if s.reel.step.isNone && decide (128 ≤ s.reel.tick) then modReel (fun r => { r with ctrlOnly := false }) s else s) s

/-- HOLDOVER_EXPIRY (R81, R83): FREE, every pending action cancelled, and the tray UNSCHEDULED. -/
def execHoldoverExpiry (s : State) : Result :=
  act (fun s =>
    if holdoverOver s then unschedule (cancelAll (reelTo .free s)) else s) s

/-- REEL_WAITING (R95): 131,072 turns more in boot state REEL without lock. -/
def execReelWaiting (s : State) : Result :=
  act (fun s =>
    if s.tray.st = .reel && (s.reel.st == .absent || s.reel.st == .acquiring) &&
        decide (s.reel.waitFrom + 131072 ≤ s.reel.bounds) then
      raise 0x0815 [(3, reelCode s.reel.st)] (modReel (fun r => { r with waitFrom := r.bounds }) s)
    else s) s

/-- REEL_WRAP (R93): turn 2^48 − 1 gives way to turn 0. -/
def execReelWrap (s : State) : Result :=
  act (fun s =>
    if aonUp s && s.reel.turn == 2 ^ 48 - 1 && s.reel.tick == 4095 && s.reel.step.isNone then tick s else s) s

/-! ### Markers (R77, R78, R84, R85, R89) -/

/-- The reference period in which a tick lies, to the nearest edge: 0 is where the marker belongs. -/
def periodOf (tick : Nat) : Nat := (tick + 2) / 4 % 1024

/-- The local turn nearest to now, as a marker of this moment would begin it. -/
def nearTurn (r : Reel) : Nat := if r.tick < 2048 then r.turn else r.turn + 1

/-- Local tick edge minus reel edge in ps: whole ticks from the nearest boundary, and what the PLL measures within a
tick (R98). -/
def phaseAt (r : Reel) (ps : Int) : Int := (if r.tick < 2048 then -(r.tick : Int) else 4096 - (r.tick : Int)) * 2000 + ps

/-- Acquisition completes at this marker (R78): the count of the last valid frame. -/
def acquired (pll : Bool) (r : Reel) : Option Nat :=
  match r.sinceMarker, r.frameNow, r.framePrev with
  | some n, some c, some p =>
    if pll && (n + 2) / 4 == 1024 && c % 2 ^ 48 == (p + 1) % 2 ^ 48 then some (c % 2 ^ 48) else none
  | _, _, _ => none

/-- A marker is noted: the next frame is that of the turn it begins (R678). -/
def markReel (r : Reel) : Reel :=
  if r.st = .locked then { r with sinceMarker := some 0, markerSeen := true }
  else { r with sinceMarker := some 0, markerSeen := true, framePrev := r.frameNow, frameNow := none, frameSeen := false }

/-- The receiver is LOCKED from this marker. -/
def lockNow (s : State) : State :=
  modReel (fun r => { r with timeValid := true, noMarker := 0, displaced := none }) (reelTo .locked s)

/-- Lock from ACQUIRING (R77): the count is loaded and tick 0 set, with REEL_STEP of kind count load. -/
def lockLoad (c : Nat) (s : State) : State :=
  let before := nearTurn s.reel % 2 ^ 48
  let s := if s.reel.tick = 0 then modReel (fun r => { r with turn := c }) (countMove s.reel.turn c s) else turnBoundary c s
  raise 0x0811 [(8, 0), iTurn before, iTurn c] (lockNow (modReel (fun r => { r with phaseErr := 0, slewLeft := 0 }) s))

/-- Lock from HOLDOVER or FREE (R84): a slew, or a step at the next marker. -/
def lockCorrect (c : Nat) (ps : Int) (s : State) : State :=
  let near := nearTurn s.reel % 2 ^ 48
  let e := phaseAt s.reel ps
  let s := lockNow s
  if near = c && decide (e.natAbs ≤ 2000) then
    modReel (fun r => { r with phaseErr := e, slewFrom := e, slewLeft := 64 }) s
  else modReel (fun r => { r with
    phaseErr := e, slewLeft := 0
    step := some { kind := if near = c then 2 else 1, turn := (c + 1) % 2 ^ 48, before := (near + 1) % 2 ^ 48 } }) s

/-- A marker in LOCKED with no step decided (R89): on its place, displaced once, or displaced twice alike. -/
def lockedMarker (ps : Int) (s : State) : State :=
  let d := periodOf s.reel.tick
  if d = 0 then modReel (fun r =>
    { r with displaced := none, phaseErr := if r.slewLeft = 0 then phaseAt r ps else r.phaseErr }) s
  else
    let s := count (hc8Ctr 7) 1 s
    if s.reel.displaced = some d then
      let t := (nearTurn s.reel + 1) % 2 ^ 48
      modReel (fun r => { r with displaced := none, step := some { kind := 2, turn := t, before := t } }) s
    else modReel (fun r => { r with displaced := some d }) s

/-- REEL_MARKER: `pll` says that the PLL is locked, the reference within R60; `phasePs` is the phase within a tick. -/
def execReelMarker (pll : Bool) (phasePs : Int) (s : State) : Result :=
  act (fun s =>
    if coreUp s then
      match s.reel.st with
      | .absent | .bench => s
      | .locked =>
        match s.reel.step with
        | some d => modReel markReel (takeStep d s)
        | none => modReel markReel (lockedMarker phasePs s)
      | .acquiring =>
        match acquired pll s.reel with
        | some c => modReel (fun r => { r with sinceMarker := some 0, markerSeen := true })
            (lockLoad c (modReel markReel s))
        | none => modReel markReel s
      | .holdover | .free =>
        match acquired pll s.reel with
        | some c => lockCorrect c phasePs (modReel markReel s)
        | none => modReel markReel s
    else s) s

/-! ### Frames (R61, R88, R90, R91, R96, R678) -/

/-- Word i of a reel frame; bit 31 of word 0 is sent first. -/
def reelWord (bits : BitVec 128) (i : Nat) : Nat := bits.toNat / 2 ^ (96 - 32 * i) % 2 ^ 32

/-- A frame is valid (R96). -/
def reelValid (bits : BitVec 128) : Bool :=
  fld (reelWord bits 0) 31 16 == 0x5A6B && fld (reelWord bits 2) 31 28 == 1 &&
    fld (reelWord bits 3) 15 0 == crc16 (beBytes 14 (bits.toNat / 2 ^ 16))

/-- A frame of this turn is complete and not yet read: after tick 576 of the local turn in LOCKED, after 576 ticks
from the last marker otherwise (R61, R678). -/
def frameDue (s : State) : Bool :=
  let r := s.reel
  coreUp s && !r.frameSeen &&
    match r.st with
    | .absent | .bench => false
    | .locked => decide (576 ≤ r.tick)
    | _ => match r.sinceMarker with
      | some n => decide (576 ≤ n) && decide (n < 4096)
      | none => false

/-- MASTER_ID, HOLDOVER and BENCH of a valid frame (R91, R94). -/
def noteMaster (id : Nat) (hold bench : Bool) (s : State) : State :=
  let r := s.reel
  let s := onlyIf (r.anyFrame && (r.masterId != id || r.masterHoldover != hold))
    (raise 0x0813 [(8, r.masterId), (8, id), iFlag hold]) s
  modReel (fun r => { r with masterId := id, masterHoldover := hold, benchInput := bench, anyFrame := true }) s

/-- Valid frames in two consecutive turns carry consecutive counts and both disagree with the local count (R88). -/
def countWrong (r : Reel) (c : Nat) : Bool :=
  match r.framePrev with
  | some p => r.st == .locked && r.step.isNone && c != (r.turn + 1) % 2 ^ 48 && c == (p + 1) % 2 ^ 48 && p != r.turn
  | none => false

/-- REEL_FRAME: a frame is read and counted; a valid one updates the master, clears COUNT_UNVERIFIED where it agrees,
and may decide a count step. -/
def execReelFrame (bits : BitVec 128) (s : State) : Result :=
  act (fun s =>
    if frameDue s then
      let s := modReel (fun r => { r with frameSeen := true }) s
      if reelValid bits then
        let c := fld (reelWord bits 0) 15 0 * 2 ^ 32 + reelWord bits 1
        let w := reelWord bits 2
        let s := noteMaster (fld w 27 20) (bit w 19) (bit w 18) (count (hc8Ctr 2) 1 s)
        let agrees := c == (s.reel.turn + 1) % 2 ^ 48
        let s := onlyIf (!agrees) (count (hc8Ctr 4) 1) s
        let next : Option RStep := if countWrong s.reel c then some { kind := 1, turn := c, before := (s.reel.turn + 1) % 2 ^ 48 }
          else s.reel.step
        modReel (fun r => { r with frameNow := some c, frameValid := true, unverified := r.unverified && !agrees, step := next }) s
      else count (hc8Ctr 3) 1 s
    else s) s

/-- COUNT_UNVERIFIED (R90, R678): 16 turns in a row without a valid frame, in every state whose turns count for it; a
receiver in LOCKED stays there. -/
def execCountUnverified (s : State) : Result :=
  act (fun s =>
    if s.reel.st != .absent && decide (16 ≤ s.reel.noFrame) && !s.reel.unverified then
      raise 0x0812 [] (modReel (fun r => { r with unverified := true }) s)
    else s) s

/-! ### Commands (R94, R97 to R99) -/

/-- REEL_CONFIG_SET (R97): in effect at the next tick 0. -/
def reelConfigSetBody (c : Cmd) (s : State) : Verdict :=
  lenIs c 4 <|
    let h := fld (argW c 0) 12 0
    argChecks [(0, decide (4096 < h))] <| applied (modReel (fun r => { r with limitNext := some h }) s)

def execReelConfigSet (mb fails : Nat) (s : State) : Result := act (writeCommand 0x0810 mb fails reelConfigSetBody) s

def reelStatusGetBody (c : Cmd) (s : State) : Verdict := lenIs c 0 (report (reelWords s) s)

def execReelStatusGet (mb fails : Nat) (s : State) : Result := act (readCommand 0x0811 mb fails reelStatusGetBody) s

/-- Entry to BENCH (R94): time from the tray's own reel, whose first marker begins START_TURN at the next boundary. -/
def benchEnter (id start : Nat) (s : State) : State :=
  let next := (s.reel.turn + 1) % 2 ^ 48
  reelTo .bench (modReel (fun r =>
    { trackFresh r with
      timeValid := true, benchId := id, phaseErr := 0, slewLeft := 0, held := 0
      step := if start % 2 ^ 48 = next then none else some { kind := 1, turn := start % 2 ^ 48, before := next } }) s)

/-- REEL_BENCH_SET (R99). Leaving BENCH leaves `seenAcq` as it is (log 199, DESIGN CHOICE). -/
def reelBenchSetBody (c : Cmd) (s : State) : Verdict :=
  lenIs c 12 <|
    check stNotNow (s.tray.st == .admitted) <|
      let w := argW c 0
      if bit w 0 then applied (benchEnter (fld w 15 8) (argTurn c 1) s)
      else if s.reel.st = .bench then
        applied (reelTo .acquiring (modReel (fun r => { trackFresh r with timeValid := false, step := none }) s))
      else applied s

def execReelBenchSet (mb fails : Nat) (s : State) : Result := act (writeCommand 0x0812 mb fails reelBenchSetBody) s

end Sys2Proof.Machine
end

