-- ==== Sys2Proof/Machine/Dispatch.lean ====
section
/-! DEFINITION. The meaning of each command, one arm per row of the table. -/

namespace Sys2Proof.Machine

open Sys2Proof

def exec (i : Instr) (s : State) : Host.Outcome State Fault Refusal :=
  match i with
  | .nop mb fails => Sys2Proof.Machine.execNop mb fails s
  | .identityGet mb fails => Sys2Proof.Machine.execIdentityGet mb fails s
  | .mailboxConfigSet mb fails => Sys2Proof.Machine.execMailboxConfigSet mb fails s
  | .mailboxStatusGet mb fails => Sys2Proof.Machine.execMailboxStatusGet mb fails s
  | .remoteCall mb fails => Sys2Proof.Machine.execRemoteCall mb fails s
  | .scheduledGet mb fails => Sys2Proof.Machine.execScheduledGet mb fails s
  | .scheduledCancel mb fails => Sys2Proof.Machine.execScheduledCancel mb fails s
  | .mailboxRead mb fails => Sys2Proof.Machine.execMailboxRead mb fails s
  | .portLaneSet mb fails => Sys2Proof.Machine.execPortLaneSet mb fails s
  | .portTrain mb fails => Sys2Proof.Machine.execPortTrain mb fails s
  | .laneBitslip mb fails => Sys2Proof.Machine.execLaneBitslip mb fails s
  | .laneAdapt mb fails => Sys2Proof.Machine.execLaneAdapt mb fails s
  | .portStatusGet mb fails => Sys2Proof.Machine.execPortStatusGet mb fails s
  | .laneEqSet mb fails => Sys2Proof.Machine.execLaneEqSet mb fails s
  | .laneEqGet mb fails => Sys2Proof.Machine.execLaneEqGet mb fails s
  | .lanePatternSet mb fails => Sys2Proof.Machine.execLanePatternSet mb fails s
  | .eptWrite mb fails => Sys2Proof.Machine.execEptWrite mb fails s
  | .eptRead mb fails => Sys2Proof.Machine.execEptRead mb fails s
  | .tableSwitch mb fails => Sys2Proof.Machine.execTableSwitch mb fails s
  | .tableStatusGet mb fails => Sys2Proof.Machine.execTableStatusGet mb fails s
  | .queueConfigSet mb fails => Sys2Proof.Machine.execQueueConfigSet mb fails s
  | .queueConfigGet mb fails => Sys2Proof.Machine.execQueueConfigGet mb fails s
  | .fwdConfigSet mb fails => Sys2Proof.Machine.execFwdConfigSet mb fails s
  | .spillConfigSet mb fails => Sys2Proof.Machine.execSpillConfigSet mb fails s
  | .spillStatusGet mb fails => Sys2Proof.Machine.execSpillStatusGet mb fails s
  | .linkStatusGet mb fails => Sys2Proof.Machine.execLinkStatusGet mb fails s
  | .planHeaderWrite mb fails => Sys2Proof.Machine.execPlanHeaderWrite mb fails s
  | .planPatternWrite mb fails => Sys2Proof.Machine.execPlanPatternWrite mb fails s
  | .planMapWrite mb fails => Sys2Proof.Machine.execPlanMapWrite mb fails s
  | .planSeal mb fails => Sys2Proof.Machine.execPlanSeal mb fails s
  | .planSwap mb fails => Sys2Proof.Machine.execPlanSwap mb fails s
  | .planStatusGet mb fails => Sys2Proof.Machine.execPlanStatusGet mb fails s
  | .planConformGet mb fails => Sys2Proof.Machine.execPlanConformGet mb fails s
  | .groupSet mb fails => Sys2Proof.Machine.execGroupSet mb fails s
  | .groupGet mb fails => Sys2Proof.Machine.execGroupGet mb fails s
  | .instanceGet mb fails => Sys2Proof.Machine.execInstanceGet mb fails s
  | .instanceAbandon mb fails => Sys2Proof.Machine.execInstanceAbandon mb fails s
  | .tallyRead mb fails => Sys2Proof.Machine.execTallyRead mb fails s
  | .collStatusGet mb fails => Sys2Proof.Machine.execCollStatusGet mb fails s
  | .stallOpen mb fails => Sys2Proof.Machine.execStallOpen mb fails s
  | .stallBudgetSet mb fails => Sys2Proof.Machine.execStallBudgetSet mb fails s
  | .stallRecall mb fails => Sys2Proof.Machine.execStallRecall mb fails s
  | .stallTrim mb fails => Sys2Proof.Machine.execStallTrim mb fails s
  | .stallFree mb fails => Sys2Proof.Machine.execStallFree mb fails s
  | .stallGet mb fails => Sys2Proof.Machine.execStallGet mb fails s
  | .stallMapRead mb fails => Sys2Proof.Machine.execStallMapRead mb fails s
  | .poolRegionsSet mb fails => Sys2Proof.Machine.execPoolRegionsSet mb fails s
  | .poolStatusGet mb fails => Sys2Proof.Machine.execPoolStatusGet mb fails s
  | .annealLoad mb fails => Sys2Proof.Machine.execAnnealLoad mb fails s
  | .annealSeal mb fails => Sys2Proof.Machine.execAnnealSeal mb fails s
  | .annealRun mb fails => Sys2Proof.Machine.execAnnealRun mb fails s
  | .annealStop mb fails => Sys2Proof.Machine.execAnnealStop mb fails s
  | .annealClear mb fails => Sys2Proof.Machine.execAnnealClear mb fails s
  | .annealStatusGet mb fails => Sys2Proof.Machine.execAnnealStatusGet mb fails s
  | .annealResultGet mb fails => Sys2Proof.Machine.execAnnealResultGet mb fails s
  | .annealStateRead mb fails => Sys2Proof.Machine.execAnnealStateRead mb fails s
  | .powerConfigSet mb fails => Sys2Proof.Machine.execPowerConfigSet mb fails s
  | .powerStatusGet mb fails => Sys2Proof.Machine.execPowerStatusGet mb fails s
  | .powerDomainSet mb fails => Sys2Proof.Machine.execPowerDomainSet mb fails s
  | .powerFreqSet mb fails => Sys2Proof.Machine.execPowerFreqSet mb fails s
  | .powerIdleSet mb fails => Sys2Proof.Machine.execPowerIdleSet mb fails s
  | .sensorRead mb fails => Sys2Proof.Machine.execSensorRead mb fails s
  | .powerCalSet mb fails => Sys2Proof.Machine.execPowerCalSet mb fails s
  | .powerCalGet mb fails => Sys2Proof.Machine.execPowerCalGet mb fails s
  | .powerCalRun mb fails => Sys2Proof.Machine.execPowerCalRun mb fails s
  | .domainRoleSet mb fails => Sys2Proof.Machine.execDomainRoleSet mb fails s
  | .domainRoleGet mb fails => Sys2Proof.Machine.execDomainRoleGet mb fails s
  | .trayInventoryGet mb fails => Sys2Proof.Machine.execTrayInventoryGet mb fails s
  | .reelConfigSet mb fails => Sys2Proof.Machine.execReelConfigSet mb fails s
  | .reelStatusGet mb fails => Sys2Proof.Machine.execReelStatusGet mb fails s
  | .reelBenchSet mb fails => Sys2Proof.Machine.execReelBenchSet mb fails s
  | .crierConfigSet mb fails => Sys2Proof.Machine.execCrierConfigSet mb fails s
  | .crierStatusGet mb fails => Sys2Proof.Machine.execCrierStatusGet mb fails s
  | .crierTrim mb fails => Sys2Proof.Machine.execCrierTrim mb fails s
  | .ledgerPeersSet mb fails => Sys2Proof.Machine.execLedgerPeersSet mb fails s
  | .ledgerGet mb fails => Sys2Proof.Machine.execLedgerGet mb fails s
  | .ledgerStatusGet mb fails => Sys2Proof.Machine.execLedgerStatusGet mb fails s
  | .unitAdmit mb fails => Sys2Proof.Machine.execUnitAdmit mb fails s
  | .unitWithdraw mb fails => Sys2Proof.Machine.execUnitWithdraw mb fails s
  | .unitStatusGet mb fails => Sys2Proof.Machine.execUnitStatusGet mb fails s
  | .holdConfigSet mb fails => Sys2Proof.Machine.execHoldConfigSet mb fails s
  | .reseqStatusGet mb fails => Sys2Proof.Machine.execReseqStatusGet mb fails s
  | .panelConfigSet mb fails => Sys2Proof.Machine.execPanelConfigSet mb fails s
  | .panelStatusGet mb fails => Sys2Proof.Machine.execPanelStatusGet mb fails s
  | .cartAnswer mb fails => Sys2Proof.Machine.execCartAnswer mb fails s
  | .panelFindSet mb fails => Sys2Proof.Machine.execPanelFindSet mb fails s
  | .cartInfoGet mb fails => Sys2Proof.Machine.execCartInfoGet mb fails s
  | .fwWrite mb fails => Sys2Proof.Machine.execFwWrite mb fails s
  | .fwVerify mb fails => Sys2Proof.Machine.execFwVerify mb fails s
  | .fwActivate mb fails => Sys2Proof.Machine.execFwActivate mb fails s
  | .fwStatusGet mb fails => Sys2Proof.Machine.execFwStatusGet mb fails s
  | .trayStateGet mb fails => Sys2Proof.Machine.execTrayStateGet mb fails s
  | .trayRestart mb fails => Sys2Proof.Machine.execTrayRestart mb fails s
  | .trayService mb fails => Sys2Proof.Machine.execTrayService mb fails s
  | .trayResume mb fails => Sys2Proof.Machine.execTrayResume mb fails s
  | .trayPowerDown mb fails => Sys2Proof.Machine.execTrayPowerDown mb fails s
  | .mbDoorbell v => Sys2Proof.Machine.execMbDoorbell v s
  | .mbCtrlClaim n owner => Sys2Proof.Machine.execMbCtrlClaim n owner s
  | .mbCtrlRelease n owner => Sys2Proof.Machine.execMbCtrlRelease n owner s
  | .mbCtrlForce n owner => Sys2Proof.Machine.execMbCtrlForce n owner s
  | .evRingEnable v => Sys2Proof.Machine.execEvRingEnable v s
  | .evRingDisable v => Sys2Proof.Machine.execEvRingDisable v s
  | .evRead v => Sys2Proof.Machine.execEvRead v s
  | .cwSelect v => Sys2Proof.Machine.execCwSelect v s
  | .cwSnap v => Sys2Proof.Machine.execCwSnap v s
  | .cwSnapDiscard v => Sys2Proof.Machine.execCwSnapDiscard v s
  | .cwClear v => Sys2Proof.Machine.execCwClear v s
  | .countLoRead off => Sys2Proof.Machine.execCountLoRead off s
  | .registerWrite off data => Sys2Proof.Machine.execRegisterWrite off data s
  | .aonPowerUp straps found jtag => Sys2Proof.Machine.execAonPowerUp straps found jtag s
  | .aonPowerLost => Sys2Proof.Machine.execAonPowerLost s
  | .perstRelease us jtag => Sys2Proof.Machine.execPerstRelease us jtag s
  | .pcieLinkReset perst => Sys2Proof.Machine.execPcieLinkReset perst s
  | .busbarSag us => Sys2Proof.Machine.execBusbarSag us s
  | .busbarOvervoltage us => Sys2Proof.Machine.execBusbarOvervoltage us s
  | .brownOutRecovery us jtag => Sys2Proof.Machine.execBrownOutRecovery us jtag s
  | .bootStepComplete readFails0 readFails1 flow => Sys2Proof.Machine.execBootStepComplete readFails0 readFails1 flow s
  | .bootStepLimit item => Sys2Proof.Machine.execBootStepLimit item s
  | .reelEdgesPresent => Sys2Proof.Machine.execReelEdgesPresent s
  | .referenceLoss outOfRange => Sys2Proof.Machine.execReferenceLoss outOfRange s
  | .reelMarker pll phasePs => Sys2Proof.Machine.execReelMarker pll phasePs s
  | .reelFrame bits => Sys2Proof.Machine.execReelFrame bits s
  | .markerAbsent => Sys2Proof.Machine.execMarkerAbsent s
  | .stepHoldAbandon refLost => Sys2Proof.Machine.execStepHoldAbandon refLost s
  | .stepCtrlOnlyEnd => Sys2Proof.Machine.execStepCtrlOnlyEnd s
  | .holdoverExpiry => Sys2Proof.Machine.execHoldoverExpiry s
  | .countUnverified => Sys2Proof.Machine.execCountUnverified s
  | .reelWaiting => Sys2Proof.Machine.execReelWaiting s
  | .reelWrap => Sys2Proof.Machine.execReelWrap s
  | .freqStep => Sys2Proof.Machine.execFreqStep s
  | .freqStepEgressResume => Sys2Proof.Machine.execFreqStepEgressResume s
  | .tableBankSwitch => Sys2Proof.Machine.execTableBankSwitch s
  | .tableGraceEnd => Sys2Proof.Machine.execTableGraceEnd s
  | .planBankSwap => Sys2Proof.Machine.execPlanBankSwap s
  | .unitAdmission unit => Sys2Proof.Machine.execUnitAdmission unit s
  | .unitWithdrawal unit => Sys2Proof.Machine.execUnitWithdrawal unit s
  | .withdrawalDrained unit => Sys2Proof.Machine.execWithdrawalDrained unit s
  | .withdrawalDrainLimit unit => Sys2Proof.Machine.execWithdrawalDrainLimit unit s
  | .unscheduledExit => Sys2Proof.Machine.execUnscheduledExit s
  | .laneChange unit => Sys2Proof.Machine.execLaneChange unit s
  | .relockDeadline unit => Sys2Proof.Machine.execRelockDeadline unit s
  | .cdrLockTimeout unit => Sys2Proof.Machine.execCdrLockTimeout unit s
  | .trainingStepDone unit obs => Sys2Proof.Machine.execTrainingStepDone unit obs s
  | .bitslipRound unit lane seen before now => Sys2Proof.Machine.execBitslipRound unit lane seen before now s
  | .trainingTimeout unit => Sys2Proof.Machine.execTrainingTimeout unit s
  | .endReceived unit => Sys2Proof.Machine.execEndReceived unit s
  | .signalLoss unit cause => Sys2Proof.Machine.execSignalLoss unit cause s
  | .idleEntry unit => Sys2Proof.Machine.execIdleEntry unit s
  | .prewake unit => Sys2Proof.Machine.execPrewake unit s
  | .idleExitCheck unit verdicts => Sys2Proof.Machine.execIdleExitCheck unit verdicts s
  | .backgroundAdapt unit => Sys2Proof.Machine.execBackgroundAdapt unit s
  | .laneAdaptDone asic port hc8 => Sys2Proof.Machine.execLaneAdaptDone asic port hc8 s
  | .probationTurn unit bitErrors foms => Sys2Proof.Machine.execProbationTurn unit bitErrors foms s
  | .pairReceive unit lcw stream bad holds corrected => Sys2Proof.Machine.execPairReceive unit lcw stream bad holds corrected s
  | .ackTimeout unit => Sys2Proof.Machine.execAckTimeout unit s
  | .frameIngress unit => Sys2Proof.Machine.execFrameIngress unit s
  | .spillReturn asic port cls reads => Sys2Proof.Machine.execSpillReturn asic port cls reads s
  | .egressDecision unit => Sys2Proof.Machine.execEgressDecision unit s
  | .planNoFit asic port cls => Sys2Proof.Machine.execPlanNoFit asic port cls s
  | .holdWindowEnd asic port => Sys2Proof.Machine.execHoldWindowEnd asic port s
  | .asicAnswer asic => Sys2Proof.Machine.execAsicAnswer asic s
  | .asicTableLoad asic mismatches => Sys2Proof.Machine.execAsicTableLoad asic mismatches s
  | .lossNotice flow => Sys2Proof.Machine.execLossNotice flow s
  | .lossNoticeReceive ifc => Sys2Proof.Machine.execLossNoticeReceive ifc s
  | .mailboxReq ifc => Sys2Proof.Machine.execMailboxReq ifc s
  | .mailboxRsp ifc => Sys2Proof.Machine.execMailboxRsp ifc s
  | .longCommandLimit mb => Sys2Proof.Machine.execLongCommandLimit mb s
  | .calDone ok inletHeld readings => Sys2Proof.Machine.execCalDone ok inletHeld readings s
  | .crierTrimDone ok energy gain noise => Sys2Proof.Machine.execCrierTrimDone ok energy gain noise s
  | .fwEraseDone ok => Sys2Proof.Machine.execFwEraseDone ok s
  | .fwVerifyDone readFails => Sys2Proof.Machine.execFwVerifyDone readFails s
  | .domainRampDone domain => Sys2Proof.Machine.execDomainRampDone domain s
  | .domainFail domain => Sys2Proof.Machine.execDomainFail domain s
  | .ledgerTurn raw => Sys2Proof.Machine.execLedgerTurn raw s
  | .thermalThreshold sensor raw => Sys2Proof.Machine.execThermalThreshold sensor raw s
  | .coolantFault flow turns => Sys2Proof.Machine.execCoolantFault flow turns s
  | .coolantRecovery flow turns => Sys2Proof.Machine.execCoolantRecovery flow turns s
  | .sensorFault => Sys2Proof.Machine.execSensorFault s
  | .avsUpdate asic needed => Sys2Proof.Machine.execAvsUpdate asic needed s
  | .poolMigration => Sys2Proof.Machine.execPoolMigration s
  | .patrolRead page result => Sys2Proof.Machine.execPatrolRead page result s
  | .pageCopyDone page => Sys2Proof.Machine.execPageCopyDone page s
  | .stallPush ifc => Sys2Proof.Machine.execStallPush ifc s
  | .blockCompressed stall block => Sys2Proof.Machine.execBlockCompressed stall block s
  | .stallPushTimeout stall => Sys2Proof.Machine.execStallPushTimeout stall s
  | .recallProgress stall reads => Sys2Proof.Machine.execRecallProgress stall reads s
  | .stallRecallDone stall => Sys2Proof.Machine.execStallRecallDone stall s
  | .twineArrival ifc reads => Sys2Proof.Machine.execTwineArrival ifc reads s
  | .abandonmentMarker ifc => Sys2Proof.Machine.execAbandonmentMarker ifc s
  | .collTimeout key => Sys2Proof.Machine.execCollTimeout key s
  | .upstreamWaitEnd key chunk => Sys2Proof.Machine.execUpstreamWaitEnd key chunk s
  | .contextFree key => Sys2Proof.Machine.execContextFree key s
  | .annealRunStart parity atStep pass => Sys2Proof.Machine.execAnnealRunStart parity atStep pass s
  | .annealDone => Sys2Proof.Machine.execAnnealDone s
  | .annealStopEffect => Sys2Proof.Machine.execAnnealStopEffect s
  | .ledgerExchange => Sys2Proof.Machine.execLedgerExchange s
  | .ledgerRecordReceive ifc => Sys2Proof.Machine.execLedgerRecordReceive ifc s
  | .ledgerPeerSilent tray => Sys2Proof.Machine.execLedgerPeerSilent tray s
  | .crierSlotStart energy => Sys2Proof.Machine.execCrierSlotStart energy s
  | .crierBackoffEnd energy => Sys2Proof.Machine.execCrierBackoffEnd energy s
  | .crierFrameReceive tones loud slotTurn atStart => Sys2Proof.Machine.execCrierFrameReceive tones loud slotTurn atStart s
  | .panelSample raw => Sys2Proof.Machine.execPanelSample raw s
  | .trayFindPressed => Sys2Proof.Machine.execTrayFindPressed s
  | .lampTest => Sys2Proof.Machine.execLampTest s
  | .lampTestEnd => Sys2Proof.Machine.execLampTestEnd s
  | .askPress bay => Sys2Proof.Machine.execAskPress bay s
  | .cartLocate bay => Sys2Proof.Machine.execCartLocate bay s
  | .buttonStuck button => Sys2Proof.Machine.execButtonStuck button s
  | .askTimeout bay => Sys2Proof.Machine.execAskTimeout bay s
  | .findTimeout which => Sys2Proof.Machine.execFindTimeout which s
  | .bayLatchOpen bay => Sys2Proof.Machine.execBayLatchOpen bay s
  | .bayLatchClosed bay => Sys2Proof.Machine.execBayLatchClosed bay s
  | .cartIdRead bay record => Sys2Proof.Machine.execCartIdRead bay record s
  | .cartRemoved bay => Sys2Proof.Machine.execCartRemoved bay s
  | .trayLatchOpen => Sys2Proof.Machine.execTrayLatchOpen s
  | .trayLatchClosed => Sys2Proof.Machine.execTrayLatchClosed s
  | .bayMgmtOverload bay => Sys2Proof.Machine.execBayMgmtOverload bay s
  | .warmRestartBegin => Sys2Proof.Machine.execWarmRestartBegin s
  | .warmRestartDone => Sys2Proof.Machine.execWarmRestartDone s
  | .warmRestartLimit => Sys2Proof.Machine.execWarmRestartLimit s
  | .pumpRunOnEnd => Sys2Proof.Machine.execPumpRunOnEnd s
  | .eventBacklogDrain => Sys2Proof.Machine.execEventBacklogDrain s
  | .eventInterrupt => Sys2Proof.Machine.execEventInterrupt s
  | .badOpcode mb fails => Sys2Proof.Machine.execBadOpcode mb fails s
  | .farReady unit => Sys2Proof.Machine.execFarReady unit s
  | .thermalRecovery => Sys2Proof.Machine.execThermalRecovery s
  | .deniedDisplayEnd bay => Sys2Proof.Machine.execDeniedDisplayEnd bay s
  | .crierFrameEnded => Sys2Proof.Machine.execCrierFrameEnded s

end Sys2Proof.Machine
end

