-- ==== Sys2Proof/Machine/Step.lean ====
section
/-! DEFINITION. The step: the command at the front of the queue, or one tick of the tray's clock on an empty queue. -/

namespace Sys2Proof.Machine

open Sys2Proof

/-- One step. With nothing waiting one tick passes (R62, R63). -/
def step (s : State) : Host.Outcome State Fault Refusal :=
  match s.pending with
  | [] => tickStep s
  | c :: rest => exec c { s with pending := rest }

/-- The state with the command that a word spells at the front of the queue. -/
def State.withFetchWord (s : State) (nbits w : Nat) : State :=
  match decodeTableWord nbits w with
  | some c => { s with pending := c :: s.pending }
  | none => s

end Sys2Proof.Machine
end

