-- ==== Sys2Proof/Safety.lean ====
section
/-! DEFINITION. The terms in which claims are made: what a step may never break, what a state holds apart from its
records, when a mailbox command stands at its execution point, and what a completed command leaves. -/

namespace Sys2Proof.Machine

open Sys2Proof

/-- Between two steps: the mailbox buffers are in canonical form, nothing waits to be committed to them, no event waits to
be placed, and no finding of a pool read is left. -/
abbrev Clean (s : State) : Prop :=
  Memory.wf s.mail.mem = true ∧ s.mail.writes = [] ∧ s.mail.wipe = false ∧ s.ev.batch = [] ∧ s.pool.reads = []

/-- Between two steps, with a tray number of 8 bits (R39, R40). -/
abbrev InRange (s : State) : Prop := Clean s ∧ s.tray.number < 256

/-- A state without its records: the queue of commands, the events and the counters with the sticky bits they set, the
notes of what was raised this turn, what has left the tray, what pool reads find, and the number that the straps gave. -/
def State.hull (s : State) : State :=
  { s with
    pending := [], ev := {}, ctr := {}, out := [], once := []
    pool := { s.pool with reads := [] }
    tray := { s.tray with sticky := 0, number := 0 } }

/-- A state without its records and its mailboxes. -/
def State.arch (s : State) : State := { s.hull with mail := {} }

/-- A command answers a next state which is, apart from the records, the state named. -/
def Takes (i : Instr) (s t : State) : Prop := ∃ u, exec i s = .next u ∧ u.hull = t.hull

/-- A command answers the next state that the effect `t` gives it, with the step's end done: the queue and the tray
number as they were, the writes to the buffers committed, the events raised in `t` placed. -/
def Yields (i : Instr) (s t : State) : Prop := exec i s = .next (finish s t)

/-- The unit that the port address of R136 names. -/
def addressUnit (w : Nat) : Nat := put 15 15 (fld w 11 11) + put 8 7 (fld w 8 7) + put 6 0 (fld w 6 0)

/-- A port address in range (R136): PORT at most 91, and SIDE only on the controller ports 72 to 79. -/
abbrev AddressOk (w : Nat) : Prop := fld w 6 0 < 92 ∧ (bit w 11 = true → 72 ≤ fld w 6 0 ∧ fld w 6 0 < 80)

/-- A lane address in range (R136): ALL, or a LANE of the port's set. -/
abbrev LaneOk (w : Nat) (p : Port) : Prop := bit w 12 = true ∨ fld w 10 9 < lanesOf p.set.width

/-- The lanes that a lane address names (R136). -/
def addressLanes (w : Nat) (p : Port) : List Nat := if bit w 12 then List.range (lanesOf p.set.width) else [fld w 10 9]

/-- The unit that the unit address of R261 names, with the fields that its KIND does not use read as 0. -/
def namedUnit (w : Nat) : Nat :=
  match fld w 14 13 with
  | 0 => put 15 15 (fld w 15 15) + put 8 7 (fld w 8 7) + put 6 0 (fld w 6 0)
  | 1 => cartUnit (fld w 12 9)
  | 2 => asicUnit (fld w 8 7)
  | _ => trayUnit

/-- A unit address in range (R261): SIDE only with a controller port, PORT at most 91. -/
abbrev UnitOk (w : Nat) : Prop :=
  (fld w 14 13 = 0 → fld w 6 0 < 92) ∧ (bit w 15 = true → fld w 14 13 = 0 ∧ 72 ≤ fld w 6 0 ∧ fld w 6 0 < 80)

/-- A turn out of two argument words (R136). -/
def turnOf (lo hi : Nat) : Nat := lo + fld hi 15 0 * 2 ^ 32

/-- An action can be placed (R72 to R74, R83): the tray has time, the turn is from 4 to 2^32 turns ahead, no action of
the kind is pending for the unit and turn, and fewer than 64 are pending. -/
abbrev Placeable (kind : SKind) (unit turn : Nat) (s : State) : Prop :=
  untimed s = false ∧ 4 ≤ tsub turn s.reel.turn ∧ tsub turn s.reel.turn ≤ 2 ^ 32 ∧ schedTaken kind unit turn s = false ∧
    schedFull s = false

/-- A mailbox command of the host stands at its execution point (R598, R599) with these argument words, and nothing
keeps it from being carried out: no guard that fails (R605), no recovery window (R575). -/
abbrev Ready (op mb : Nat) (args : List Nat) (s : State) : Prop :=
  Clean s ∧ atPoint op mb s = true ∧ (box s mb).via = .pcie ∧ s.tray.recovery = false ∧ staleGuard mb s = false ∧
    mb < 32 ∧ fld (hdr s mb 2) 11 0 = 4 * args.length ∧ args.length ≤ 1016 ∧ (∀ w ∈ args, w < 2 ^ 32) ∧
    tabRead s.mail.mem (0x1000 * mb + 32) (4 * args.length) = leWords args

/-- A mailbox command of the host completes (R596, R604): the buffer holds the status and the result block and is
otherwise as before, the mailbox is DONE with its MB_DONE bit and has left the order of execution, CONFIG_GEN has
gone up by one unless the command is read-only (or was turned away), every other mailbox and mailbox counter is as
`t` has it, and apart from mailboxes and records the state is `t`. -/
def Completes (i : Instr) (mb : Nat) (s : State) (status : Nat) (readOnly : Bool) (result : List Byte) (t : State) : Prop :=
  ∃ u, exec i s = .next u ∧ u.arch = t.arch ∧
    u.mail =
      { t.mail with
        mem := u.mail.mem
        order := t.mail.order.drop 1
        done := t.mail.done ||| (1#32 <<< mb)
        boxes := tabMod (boxAtReset mb) t.mail.boxes mb fun b => { b with st := .done }
        gen := if readOnly then t.mail.gen else (t.mail.gen + 1) % 2 ^ 32 } ∧
    memGet u.mail.mem (0x1000 * mb + 1) = BitVec.ofNat 8 status ∧
    tabRead u.mail.mem (0x1000 * mb + 32) result.length = result ∧
    ∀ a, a < 0x1000 * mb ∨ 0x1000 * mb + 32 + result.length ≤ a → memGet u.mail.mem a = memGet s.mail.mem a

/-- A long command of the host starts (R595, R601): its mailbox is EXECUTING and has left the order of execution, the
command is last among the running ones with its subject and its limit, CONFIG_GEN has gone up by one unless the command is read-only, the buffer has
changed in header words 5 to 7 alone, and apart from mailboxes and records the state is `t`. -/
def Starts (i : Instr) (op mb subject ticks : Nat) (readOnly : Bool) (s t : State) : Prop :=
  ∃ u, exec i s = .next u ∧ u.arch = t.arch ∧
    u.mail =
      { t.mail with
        mem := u.mail.mem
        order := t.mail.order.drop 1
        long := t.mail.long ++
          [{ mb := mb, opcode := op, subject := subject, limit := s.reel.clock + ticks, attempts := 1 }]
        boxes := tabMod (boxAtReset mb) t.mail.boxes mb fun b => { b with st := .executing }
        gen := if readOnly then t.mail.gen else (t.mail.gen + 1) % 2 ^ 32 } ∧
    ∀ a, a < 0x1000 * mb + 20 ∨ 0x1000 * mb + 32 ≤ a → memGet u.mail.mem a = memGet s.mail.mem a

end Sys2Proof.Machine
end

