-- ==== Sys2Proof/WellFormed.lean ====
section
/-! DEFINITION. Well-formed commands: operands in the ranges that the manual gives them (mailboxes 0 to 31, ASICs 0 to
3, ports 0 to 91, bays 0 to 15, HC-8 fabric interfaces 0 to 31, at most two attempts). A meaning is total all the
same: on a term that is not well formed it answers too. -/

namespace Sys2Proof

/-- A unit address has 16 bits (R261). -/
def unitAddress (u : Nat) : Bool := decide (u < 65536)

/-- A unit address that names a port end: UNIT 0, BAY 0, PORT at most 91, and SIDE only on ports 72 to 79 (R136, R261). -/
def portEnd (u : Nat) : Bool :=
  unitAddress u && decide (u / 512 % 64 = 0) && decide (u % 128 < 92) &&
    (decide (u < 32768) || (decide (72 ≤ u % 128) && decide (u % 128 < 80)))

/-- The check of one command. -/
def Instr.wf : Instr → Bool
  | .nop mb fails => decide (mb < 32) && decide (fails < 3)
  | .identityGet mb fails => decide (mb < 32) && decide (fails < 3)
  | .mailboxConfigSet mb fails => decide (mb < 32) && decide (fails < 3)
  | .mailboxStatusGet mb fails => decide (mb < 32) && decide (fails < 3)
  | .remoteCall mb fails => decide (mb < 32) && decide (fails < 3)
  | .scheduledGet mb fails => decide (mb < 32) && decide (fails < 3)
  | .scheduledCancel mb fails => decide (mb < 32) && decide (fails < 3)
  | .mailboxRead mb fails => decide (mb < 32) && decide (fails < 3)
  | .portLaneSet mb fails => decide (mb < 32) && decide (fails < 3)
  | .portTrain mb fails => decide (mb < 32) && decide (fails < 3)
  | .laneBitslip mb fails => decide (mb < 32) && decide (fails < 3)
  | .laneAdapt mb fails => decide (mb < 32) && decide (fails < 3)
  | .portStatusGet mb fails => decide (mb < 32) && decide (fails < 3)
  | .laneEqSet mb fails => decide (mb < 32) && decide (fails < 3)
  | .laneEqGet mb fails => decide (mb < 32) && decide (fails < 3)
  | .lanePatternSet mb fails => decide (mb < 32) && decide (fails < 3)
  | .eptWrite mb fails => decide (mb < 32) && decide (fails < 3)
  | .eptRead mb fails => decide (mb < 32) && decide (fails < 3)
  | .tableSwitch mb fails => decide (mb < 32) && decide (fails < 3)
  | .tableStatusGet mb fails => decide (mb < 32) && decide (fails < 3)
  | .queueConfigSet mb fails => decide (mb < 32) && decide (fails < 3)
  | .queueConfigGet mb fails => decide (mb < 32) && decide (fails < 3)
  | .fwdConfigSet mb fails => decide (mb < 32) && decide (fails < 3)
  | .spillConfigSet mb fails => decide (mb < 32) && decide (fails < 3)
  | .spillStatusGet mb fails => decide (mb < 32) && decide (fails < 3)
  | .linkStatusGet mb fails => decide (mb < 32) && decide (fails < 3)
  | .planHeaderWrite mb fails => decide (mb < 32) && decide (fails < 3)
  | .planPatternWrite mb fails => decide (mb < 32) && decide (fails < 3)
  | .planMapWrite mb fails => decide (mb < 32) && decide (fails < 3)
  | .planSeal mb fails => decide (mb < 32) && decide (fails < 3)
  | .planSwap mb fails => decide (mb < 32) && decide (fails < 3)
  | .planStatusGet mb fails => decide (mb < 32) && decide (fails < 3)
  | .planConformGet mb fails => decide (mb < 32) && decide (fails < 3)
  | .groupSet mb fails => decide (mb < 32) && decide (fails < 3)
  | .groupGet mb fails => decide (mb < 32) && decide (fails < 3)
  | .instanceGet mb fails => decide (mb < 32) && decide (fails < 3)
  | .instanceAbandon mb fails => decide (mb < 32) && decide (fails < 3)
  | .tallyRead mb fails => decide (mb < 32) && decide (fails.item < 3)
  | .collStatusGet mb fails => decide (mb < 32) && decide (fails < 3)
  | .stallOpen mb fails => decide (mb < 32) && decide (fails < 3)
  | .stallBudgetSet mb fails => decide (mb < 32) && decide (fails < 3)
  | .stallRecall mb fails => decide (mb < 32) && decide (fails < 3)
  | .stallTrim mb fails => decide (mb < 32) && decide (fails < 3)
  | .stallFree mb fails => decide (mb < 32) && decide (fails < 3)
  | .stallGet mb fails => decide (mb < 32) && decide (fails < 3)
  | .stallMapRead mb fails => decide (mb < 32) && decide (fails < 3)
  | .poolRegionsSet mb fails => decide (mb < 32) && decide (fails < 3)
  | .poolStatusGet mb fails => decide (mb < 32) && decide (fails < 3)
  | .annealLoad mb fails => decide (mb < 32) && decide (fails < 3)
  | .annealSeal mb fails => decide (mb < 32) && decide (fails < 3)
  | .annealRun mb fails => decide (mb < 32) && decide (fails < 3)
  | .annealStop mb fails => decide (mb < 32) && decide (fails < 3)
  | .annealClear mb fails => decide (mb < 32) && decide (fails < 3)
  | .annealStatusGet mb fails => decide (mb < 32) && decide (fails < 3)
  | .annealResultGet mb fails => decide (mb < 32) && decide (fails < 3)
  | .annealStateRead mb fails => decide (mb < 32) && decide (fails < 3)
  | .powerConfigSet mb fails => decide (mb < 32) && decide (fails < 3)
  | .powerStatusGet mb fails => decide (mb < 32) && decide (fails < 3)
  | .powerDomainSet mb fails => decide (mb < 32) && decide (fails < 3)
  | .powerFreqSet mb fails => decide (mb < 32) && decide (fails < 3)
  | .powerIdleSet mb fails => decide (mb < 32) && decide (fails < 3)
  | .sensorRead mb fails => decide (mb < 32) && decide (fails < 3)
  | .powerCalSet mb fails => decide (mb < 32) && decide (fails < 3)
  | .powerCalGet mb fails => decide (mb < 32) && decide (fails < 3)
  | .powerCalRun mb fails => decide (mb < 32) && decide (fails < 3)
  | .domainRoleSet mb fails => decide (mb < 32) && decide (fails < 3)
  | .domainRoleGet mb fails => decide (mb < 32) && decide (fails < 3)
  | .trayInventoryGet mb fails => decide (mb < 32) && decide (fails < 3)
  | .reelConfigSet mb fails => decide (mb < 32) && decide (fails < 3)
  | .reelStatusGet mb fails => decide (mb < 32) && decide (fails < 3)
  | .reelBenchSet mb fails => decide (mb < 32) && decide (fails < 3)
  | .crierConfigSet mb fails => decide (mb < 32) && decide (fails < 3)
  | .crierStatusGet mb fails => decide (mb < 32) && decide (fails < 3)
  | .crierTrim mb fails => decide (mb < 32) && decide (fails < 3)
  | .ledgerPeersSet mb fails => decide (mb < 32) && decide (fails < 3)
  | .ledgerGet mb fails => decide (mb < 32) && decide (fails < 3)
  | .ledgerStatusGet mb fails => decide (mb < 32) && decide (fails < 3)
  | .unitAdmit mb fails => decide (mb < 32) && decide (fails < 3)
  | .unitWithdraw mb fails => decide (mb < 32) && decide (fails < 3)
  | .unitStatusGet mb fails => decide (mb < 32) && decide (fails < 3)
  | .holdConfigSet mb fails => decide (mb < 32) && decide (fails < 3)
  | .reseqStatusGet mb fails => decide (mb < 32) && decide (fails < 3)
  | .panelConfigSet mb fails => decide (mb < 32) && decide (fails < 3)
  | .panelStatusGet mb fails => decide (mb < 32) && decide (fails < 3)
  | .cartAnswer mb fails => decide (mb < 32) && decide (fails < 3)
  | .panelFindSet mb fails => decide (mb < 32) && decide (fails < 3)
  | .cartInfoGet mb fails => decide (mb < 32) && decide (fails < 3)
  | .fwWrite mb fails => decide (mb < 32) && decide (fails < 3)
  | .fwVerify mb fails => decide (mb < 32) && decide (fails < 3)
  | .fwActivate mb fails => decide (mb < 32) && decide (fails < 3)
  | .fwStatusGet mb fails => decide (mb < 32) && decide (fails < 3)
  | .trayStateGet mb fails => decide (mb < 32) && decide (fails < 3)
  | .trayRestart mb fails => decide (mb < 32) && decide (fails < 3)
  | .trayService mb fails => decide (mb < 32) && decide (fails < 3)
  | .trayResume mb fails => decide (mb < 32) && decide (fails < 3)
  | .trayPowerDown mb fails => decide (mb < 32) && decide (fails < 3)
  | .mbDoorbell _ => true
  | .mbCtrlClaim n owner => decide (n < 32) && decide (owner < 65536)
  | .mbCtrlRelease n owner => decide (n < 32) && decide (owner < 65536)
  | .mbCtrlForce n owner => decide (n < 32) && decide (owner < 65536)
  | .evRingEnable _ => true
  | .evRingDisable _ => true
  | .evRead _ => true
  | .cwSelect _ => true
  | .cwSnap _ => true
  | .cwSnapDiscard _ => true
  | .cwClear _ => true
  | .countLoRead off => decide (off % 4 = 0)
  | .registerWrite off _ => decide (off % 4 = 0)
  | .aonPowerUp straps _ _ => decide (straps < 256)
  | .aonPowerLost => true
  | .perstRelease _ _ => true
  | .pcieLinkReset _ => true
  | .busbarSag _ => true
  | .busbarOvervoltage _ => true
  | .brownOutRecovery _ _ => true
  | .bootStepComplete _ _ _ => true
  | .bootStepLimit _ => true
  | .reelEdgesPresent => true
  | .referenceLoss _ => true
  | .reelMarker _ _ => true
  | .reelFrame _ => true
  | .markerAbsent => true
  | .stepHoldAbandon _ => true
  | .stepCtrlOnlyEnd => true
  | .holdoverExpiry => true
  | .countUnverified => true
  | .reelWaiting => true
  | .reelWrap => true
  | .freqStep => true
  | .freqStepEgressResume => true
  | .tableBankSwitch => true
  | .tableGraceEnd => true
  | .planBankSwap => true
  | .unitAdmission unit => unitAddress unit
  | .unitWithdrawal unit => unitAddress unit
  | .withdrawalDrained unit => unitAddress unit
  | .withdrawalDrainLimit unit => unitAddress unit.item
  | .unscheduledExit => true
  | .laneChange unit => portEnd unit
  | .relockDeadline unit => portEnd unit
  | .cdrLockTimeout unit => portEnd unit
  | .trainingStepDone unit obs => portEnd unit && decide (obs.signal.length ≤ 4) && decide (obs.markers.length ≤ 4) && decide (obs.prbs.length ≤ 4)
  | .bitslipRound unit lane _ _ _ => portEnd unit && decide (lane < 4)
  | .trainingTimeout unit => portEnd unit
  | .endReceived unit => portEnd unit
  | .signalLoss unit (.silent lanes) => portEnd unit && lanes.all fun k => decide (k < 4)
  | .signalLoss unit .train => portEnd unit
  | .signalLoss unit .idle => portEnd unit
  | .idleEntry unit => portEnd unit
  | .prewake unit => portEnd unit
  | .idleExitCheck unit verdicts =>
    portEnd unit && decide (verdicts.length ≤ 4) && verdicts.all fun v => decide (v.2.natAbs ≤ 32)
  | .backgroundAdapt unit => portEnd unit
  | .laneAdaptDone asic port hc8 =>
    decide (asic < 4) && decide (port < 92) && (!hc8 || (decide (72 ≤ port) && decide (port < 80)))
  | .probationTurn unit _ _ => portEnd unit
  | .pairReceive unit _ stream _ _ _ => portEnd unit && decide (stream.length = 1280)
  | .ackTimeout unit => portEnd unit
  | .frameIngress unit => portEnd unit
  | .spillReturn asic port cls _ => decide (asic < 4) && decide (port < 92) && decide (cls < 5)
  | .egressDecision unit => portEnd unit
  | .planNoFit asic port cls => decide (asic < 4) && decide (port < 92) && decide (cls < 5)
  | .holdWindowEnd asic port => decide (asic < 4) && decide (port.item < 92)
  | .asicAnswer asic => decide (asic < 4)
  | .asicTableLoad asic _ => decide (asic < 4)
  | .lossNotice flow => decide (flow.item < 2 ^ 27)
  | .lossNoticeReceive ifc => decide (ifc.item < 32)
  | .mailboxReq ifc => decide (ifc < 32)
  | .mailboxRsp ifc => decide (ifc < 32)
  | .longCommandLimit mb => decide (mb < 32)
  | .calDone _ _ _ => true
  | .crierTrimDone _ _ _ _ => true
  | .fwEraseDone _ => true
  | .fwVerifyDone _ => true
  | .domainRampDone domain => decide (domain < 10)
  | .domainFail domain => decide (domain < 10)
  | .ledgerTurn _ => true
  | .thermalThreshold sensor _ => decide (sensor < 256)
  | .coolantFault _ _ => true
  | .coolantRecovery _ _ => true
  | .sensorFault => true
  | .avsUpdate asic _ => decide (asic < 4)
  | .poolMigration => true
  | .patrolRead page result => decide (page < 2 ^ 23) && decide (result < 4)
  | .pageCopyDone page => decide (page.item < 2 ^ 23)
  | .stallPush ifc => decide (ifc < 32)
  | .blockCompressed stall _ => decide (stall < 65536)
  | .stallPushTimeout stall => decide (stall < 65536)
  | .recallProgress stall _ => decide (stall < 65536)
  | .stallRecallDone stall => decide (stall < 65536)
  | .twineArrival ifc _ => decide (ifc < 32)
  | .abandonmentMarker ifc => decide (ifc < 32)
  | .collTimeout key => decide (key.item < 2 ^ 32)
  | .upstreamWaitEnd key _ => decide (key < 2 ^ 32)
  | .contextFree key => decide (key < 2 ^ 32)
  | .annealRunStart parity _ _ => decide (parity < 3)
  | .annealDone => true
  | .annealStopEffect => true
  | .ledgerExchange => true
  | .ledgerRecordReceive ifc => decide (ifc < 32)
  | .ledgerPeerSilent tray => decide (tray < 256)
  | .crierSlotStart _ => true
  | .crierBackoffEnd _ => true
  | .crierFrameReceive tones _ _ _ => tones.all fun t => t == 120 || t == 140 || t == 160 || t == 180
  | .panelSample _ => true
  | .trayFindPressed => true
  | .lampTest => true
  | .lampTestEnd => true
  | .askPress bay => decide (bay < 16)
  | .cartLocate bay => decide (bay < 16)
  | .buttonStuck button => decide (button < 17)
  | .askTimeout bay => decide (bay < 16)
  | .findTimeout which => decide (which < 17)
  | .bayLatchOpen bay => decide (bay < 16)
  | .bayLatchClosed bay => decide (bay < 16)
  | .cartIdRead bay _ => decide (bay < 16)
  | .cartRemoved bay => decide (bay < 16)
  | .trayLatchOpen => true
  | .trayLatchClosed => true
  | .bayMgmtOverload bay => decide (bay < 16)
  | .warmRestartBegin => true
  | .warmRestartDone => true
  | .warmRestartLimit => true
  | .pumpRunOnEnd => true
  | .eventBacklogDrain => true
  | .eventInterrupt => true
  | .badOpcode mb fails => decide (mb < 32) && decide (fails < 3)
  | .farReady unit => portEnd unit
  | .thermalRecovery => true
  | .deniedDisplayEnd bay => decide (bay < 16)
  | .crierFrameEnded => true

/-- The opcode, the mailbox and the number of failed attempts of a mailbox command that has an opcode of its own (R625). -/
def Instr.command : Instr → Option (Nat × Nat × Nat)
  | .nop mb fails => some (0x0000, mb, fails)
  | .identityGet mb fails => some (0x0001, mb, fails)
  | .mailboxConfigSet mb fails => some (0x0002, mb, fails)
  | .mailboxStatusGet mb fails => some (0x0003, mb, fails)
  | .remoteCall mb fails => some (0x0004, mb, fails)
  | .scheduledGet mb fails => some (0x0005, mb, fails)
  | .scheduledCancel mb fails => some (0x0006, mb, fails)
  | .mailboxRead mb fails => some (0x0007, mb, fails)
  | .portLaneSet mb fails => some (0x0100, mb, fails)
  | .portTrain mb fails => some (0x0101, mb, fails)
  | .laneBitslip mb fails => some (0x0102, mb, fails)
  | .laneAdapt mb fails => some (0x0103, mb, fails)
  | .portStatusGet mb fails => some (0x0104, mb, fails)
  | .laneEqSet mb fails => some (0x0105, mb, fails)
  | .laneEqGet mb fails => some (0x0106, mb, fails)
  | .lanePatternSet mb fails => some (0x0107, mb, fails)
  | .eptWrite mb fails => some (0x0200, mb, fails)
  | .eptRead mb fails => some (0x0201, mb, fails)
  | .tableSwitch mb fails => some (0x0202, mb, fails)
  | .tableStatusGet mb fails => some (0x0203, mb, fails)
  | .queueConfigSet mb fails => some (0x0204, mb, fails)
  | .queueConfigGet mb fails => some (0x0205, mb, fails)
  | .fwdConfigSet mb fails => some (0x0206, mb, fails)
  | .spillConfigSet mb fails => some (0x0207, mb, fails)
  | .spillStatusGet mb fails => some (0x0208, mb, fails)
  | .linkStatusGet mb fails => some (0x0280, mb, fails)
  | .planHeaderWrite mb fails => some (0x0300, mb, fails)
  | .planPatternWrite mb fails => some (0x0301, mb, fails)
  | .planMapWrite mb fails => some (0x0302, mb, fails)
  | .planSeal mb fails => some (0x0303, mb, fails)
  | .planSwap mb fails => some (0x0304, mb, fails)
  | .planStatusGet mb fails => some (0x0305, mb, fails)
  | .planConformGet mb fails => some (0x0306, mb, fails)
  | .groupSet mb fails => some (0x0400, mb, fails)
  | .groupGet mb fails => some (0x0401, mb, fails)
  | .instanceGet mb fails => some (0x0402, mb, fails)
  | .instanceAbandon mb fails => some (0x0403, mb, fails)
  | .tallyRead mb fails => some (0x0404, mb, fails.item)
  | .collStatusGet mb fails => some (0x0405, mb, fails)
  | .stallOpen mb fails => some (0x0500, mb, fails)
  | .stallBudgetSet mb fails => some (0x0501, mb, fails)
  | .stallRecall mb fails => some (0x0502, mb, fails)
  | .stallTrim mb fails => some (0x0503, mb, fails)
  | .stallFree mb fails => some (0x0504, mb, fails)
  | .stallGet mb fails => some (0x0505, mb, fails)
  | .stallMapRead mb fails => some (0x0506, mb, fails)
  | .poolRegionsSet mb fails => some (0x0507, mb, fails)
  | .poolStatusGet mb fails => some (0x0508, mb, fails)
  | .annealLoad mb fails => some (0x0600, mb, fails)
  | .annealSeal mb fails => some (0x0601, mb, fails)
  | .annealRun mb fails => some (0x0602, mb, fails)
  | .annealStop mb fails => some (0x0603, mb, fails)
  | .annealClear mb fails => some (0x0604, mb, fails)
  | .annealStatusGet mb fails => some (0x0605, mb, fails)
  | .annealResultGet mb fails => some (0x0606, mb, fails)
  | .annealStateRead mb fails => some (0x0607, mb, fails)
  | .powerConfigSet mb fails => some (0x0700, mb, fails)
  | .powerStatusGet mb fails => some (0x0701, mb, fails)
  | .powerDomainSet mb fails => some (0x0702, mb, fails)
  | .powerFreqSet mb fails => some (0x0703, mb, fails)
  | .powerIdleSet mb fails => some (0x0704, mb, fails)
  | .sensorRead mb fails => some (0x0705, mb, fails)
  | .powerCalSet mb fails => some (0x0706, mb, fails)
  | .powerCalGet mb fails => some (0x0707, mb, fails)
  | .powerCalRun mb fails => some (0x0708, mb, fails)
  | .domainRoleSet mb fails => some (0x0800, mb, fails)
  | .domainRoleGet mb fails => some (0x0801, mb, fails)
  | .trayInventoryGet mb fails => some (0x0802, mb, fails)
  | .reelConfigSet mb fails => some (0x0810, mb, fails)
  | .reelStatusGet mb fails => some (0x0811, mb, fails)
  | .reelBenchSet mb fails => some (0x0812, mb, fails)
  | .crierConfigSet mb fails => some (0x0820, mb, fails)
  | .crierStatusGet mb fails => some (0x0821, mb, fails)
  | .crierTrim mb fails => some (0x0822, mb, fails)
  | .ledgerPeersSet mb fails => some (0x0823, mb, fails)
  | .ledgerGet mb fails => some (0x0824, mb, fails)
  | .ledgerStatusGet mb fails => some (0x0825, mb, fails)
  | .unitAdmit mb fails => some (0x0900, mb, fails)
  | .unitWithdraw mb fails => some (0x0901, mb, fails)
  | .unitStatusGet mb fails => some (0x0902, mb, fails)
  | .holdConfigSet mb fails => some (0x0903, mb, fails)
  | .reseqStatusGet mb fails => some (0x0904, mb, fails)
  | .panelConfigSet mb fails => some (0x0920, mb, fails)
  | .panelStatusGet mb fails => some (0x0921, mb, fails)
  | .cartAnswer mb fails => some (0x0922, mb, fails)
  | .panelFindSet mb fails => some (0x0923, mb, fails)
  | .cartInfoGet mb fails => some (0x0924, mb, fails)
  | .fwWrite mb fails => some (0x0A00, mb, fails)
  | .fwVerify mb fails => some (0x0A01, mb, fails)
  | .fwActivate mb fails => some (0x0A02, mb, fails)
  | .fwStatusGet mb fails => some (0x0A03, mb, fails)
  | .trayStateGet mb fails => some (0x0A04, mb, fails)
  | .trayRestart mb fails => some (0x0A05, mb, fails)
  | .trayService mb fails => some (0x0A06, mb, fails)
  | .trayResume mb fails => some (0x0A07, mb, fails)
  | .trayPowerDown mb fails => some (0x0A08, mb, fails)
  | .mbDoorbell _ => none
  | .mbCtrlClaim _ _ => none
  | .mbCtrlRelease _ _ => none
  | .mbCtrlForce _ _ => none
  | .evRingEnable _ => none
  | .evRingDisable _ => none
  | .evRead _ => none
  | .cwSelect _ => none
  | .cwSnap _ => none
  | .cwSnapDiscard _ => none
  | .cwClear _ => none
  | .countLoRead _ => none
  | .registerWrite _ _ => none
  | .aonPowerUp _ _ _ => none
  | .aonPowerLost => none
  | .perstRelease _ _ => none
  | .pcieLinkReset _ => none
  | .busbarSag _ => none
  | .busbarOvervoltage _ => none
  | .brownOutRecovery _ _ => none
  | .bootStepComplete _ _ _ => none
  | .bootStepLimit _ => none
  | .reelEdgesPresent => none
  | .referenceLoss _ => none
  | .reelMarker _ _ => none
  | .reelFrame _ => none
  | .markerAbsent => none
  | .stepHoldAbandon _ => none
  | .stepCtrlOnlyEnd => none
  | .holdoverExpiry => none
  | .countUnverified => none
  | .reelWaiting => none
  | .reelWrap => none
  | .freqStep => none
  | .freqStepEgressResume => none
  | .tableBankSwitch => none
  | .tableGraceEnd => none
  | .planBankSwap => none
  | .unitAdmission _ => none
  | .unitWithdrawal _ => none
  | .withdrawalDrained _ => none
  | .withdrawalDrainLimit _ => none
  | .unscheduledExit => none
  | .laneChange _ => none
  | .relockDeadline _ => none
  | .cdrLockTimeout _ => none
  | .trainingStepDone _ _ => none
  | .bitslipRound _ _ _ _ _ => none
  | .trainingTimeout _ => none
  | .endReceived _ => none
  | .signalLoss _ _ => none
  | .idleEntry _ => none
  | .prewake _ => none
  | .idleExitCheck _ _ => none
  | .backgroundAdapt _ => none
  | .laneAdaptDone _ _ _ => none
  | .probationTurn _ _ _ => none
  | .pairReceive _ _ _ _ _ _ => none
  | .ackTimeout _ => none
  | .frameIngress _ => none
  | .spillReturn _ _ _ _ => none
  | .egressDecision _ => none
  | .planNoFit _ _ _ => none
  | .holdWindowEnd _ _ => none
  | .asicAnswer _ => none
  | .asicTableLoad _ _ => none
  | .lossNotice _ => none
  | .lossNoticeReceive _ => none
  | .mailboxReq _ => none
  | .mailboxRsp _ => none
  | .longCommandLimit _ => none
  | .calDone _ _ _ => none
  | .crierTrimDone _ _ _ _ => none
  | .fwEraseDone _ => none
  | .fwVerifyDone _ => none
  | .domainRampDone _ => none
  | .domainFail _ => none
  | .ledgerTurn _ => none
  | .thermalThreshold _ _ => none
  | .coolantFault _ _ => none
  | .coolantRecovery _ _ => none
  | .sensorFault => none
  | .avsUpdate _ _ => none
  | .poolMigration => none
  | .patrolRead _ _ => none
  | .pageCopyDone _ => none
  | .stallPush _ => none
  | .blockCompressed _ _ => none
  | .stallPushTimeout _ => none
  | .recallProgress _ _ => none
  | .stallRecallDone _ => none
  | .twineArrival _ _ => none
  | .abandonmentMarker _ => none
  | .collTimeout _ => none
  | .upstreamWaitEnd _ _ => none
  | .contextFree _ => none
  | .annealRunStart _ _ _ => none
  | .annealDone => none
  | .annealStopEffect => none
  | .ledgerExchange => none
  | .ledgerRecordReceive _ => none
  | .ledgerPeerSilent _ => none
  | .crierSlotStart _ => none
  | .crierBackoffEnd _ => none
  | .crierFrameReceive _ _ _ _ => none
  | .panelSample _ => none
  | .trayFindPressed => none
  | .lampTest => none
  | .lampTestEnd => none
  | .askPress _ => none
  | .cartLocate _ => none
  | .buttonStuck _ => none
  | .askTimeout _ => none
  | .findTimeout _ => none
  | .bayLatchOpen _ => none
  | .bayLatchClosed _ => none
  | .cartIdRead _ _ => none
  | .cartRemoved _ => none
  | .trayLatchOpen => none
  | .trayLatchClosed => none
  | .bayMgmtOverload _ => none
  | .warmRestartBegin => none
  | .warmRestartDone => none
  | .warmRestartLimit => none
  | .pumpRunOnEnd => none
  | .eventBacklogDrain => none
  | .eventInterrupt => none
  | .badOpcode _ _ => none
  | .farReady _ => none
  | .thermalRecovery => none
  | .deniedDisplayEnd _ => none
  | .crierFrameEnded => none

end Sys2Proof
end

