-- ==== Sys2Proof/Certificates/Slice0/Obligations.lean ====
section
/-! DEFINITION. The statements for the provers. -/

open Sys2Proof Sys2Proof.Machine

/-! ### The block as a whole -/

/-- One step with a command at the front of the queue is that command's meaning on the state with the rest of the
queue (the model's interface, log entry 1). -/
def Obligations.StepRunsFrontCommand : Prop :=
  ∀ (c : Instr) (s : State), step { s with pending := c :: s.pending } = exec c s

/-- R62, R63, R85: with nothing waiting one tick passes (that a step on an empty queue is a tick is the model's
choice, log entry 2). Without AON power nothing changes; below tick 4,095 the tick count goes up by 1, and the pause
after a frequency step ends as tick 128 begins; at tick 4,095 the next turn begins, unless a decided step holds the
count for its marker, which in BENCH is the tray's own (R94). Frames whose egress ends leave their cells (R230),
transmitters complete their block or pair (R103), and a bench master's frame goes out at tick 64. -/
def Obligations.EmptyQueuePassesATick : Prop :=
  ∀ s : State, s.pending = [] →
    let n := tickWork s
    (aonUp s = false → step s = .next (finish s s)) ∧
    (aonUp s = true → s.reel.tick < 4095 →
      step s = .next (finish s (benchSend (modReel (fun r =>
        { r with tick := s.reel.tick + 1, freqPause := r.freqPause && s.reel.tick != 127 }) n)))) ∧
    (aonUp s = true → s.reel.tick = 4095 → s.reel.step = none →
      step s = .next (finish s (turnBoundary (nextTurn n) n))) ∧
    (∀ d, aonUp s = true → s.reel.tick = 4095 → s.reel.step = some d → s.reel.st ≠ .bench →
      step s = .next (finish s (modReel (fun r => { r with held := r.held + 1 }) n))) ∧
    (∀ d, aonUp s = true → s.reel.tick = 4095 → s.reel.step = some d → s.reel.st = .bench →
      step s = .next (finish s (takeStep d n)))

/-- R25, R593 and the Reset columns of chapters 02, 11, 13, 15 and 16: right after reset the tray is in AON with every
switched domain off, the receiver ABSENT, every mailbox IDLE with its source and vector and no owner, and the
registers that have a reset value read it. -/
def Obligations.ResetState : Prop :=
  let s := State.reset
  InRange s ∧ s.pending = [] ∧ s.tray.st = .aon ∧ s.power.on = [] ∧ s.reel.st = .absent ∧ s.reel.limit = 4096 ∧
    (∀ n < 32, (box s n).st = .idle ∧ (box s n).source = sourceAtReset n ∧ (box s n).vector = n ∧ (box s n).owner = 0) ∧
    s.power.cfg = { cap := 4600, bank := 64, debt := 16, recover := 1024, imbalance := 25, migrate := 4096 } ∧
    (s.panel.seatTrain, s.panel.askTimeout, s.panel.findTimeout) = (true, 64, 8) ∧
    (regLive s 0x1004, regLive s 0x1008, regLive s 0x1010, regLive s 0x1014) = (0, 0, 0, 0) ∧
    (regLive s 0x2000, regLive s 0x2004, regLive s 0x2008, regLive s 0x2014, regLive s 0x2018) =
      (10 * 2 ^ 16, 0, 0, 2 ^ 16, 0x7FF) ∧
    (regLive s 0x200C, regLive s 0x2010, regLive s 0x201C, regLive s 0x2020, regLive s 0x2024, regLive s 0x2028) =
      (0, 0, 0, 0, 0, 0)

/-- Every step, of every command and of the clock, keeps the state in range: the mailbox buffers are in canonical form
with nothing left to commit, no event is left to place, no finding of a pool read is left, and the tray number has 8
bits (R40). -/
def Obligations.EveryStepStaysInRange : Prop :=
  ∀ s t : State, InRange s → step s = .next t → InRange t

/-- R39: every command answers a next state and leaves the queue as it was; the tray number changes only where AON
power comes up, and is then what the straps say. -/
def Obligations.TrayNumberIsReadAtPowerUp : Prop :=
  ∀ (i : Instr) (s : State),
    ∃ t, exec i s = .next t ∧ t.pending = s.pending ∧
      ((∀ straps found jtag, i ≠ .aonPowerUp straps found jtag) → t.tray.number = s.tray.number) ∧
      (∀ straps found jtag, i = .aonPowerUp straps found jtag →
        t.tray.number = if aonFresh s then straps % 256 else s.tray.number)

/-- R598, R602, R605, R612: what turns a mailbox command away. Away from its execution point it does nothing. With a
guard that fails it completes with STALE_EPOCH, or before that with BAD_ARG or BAD_OPCODE, and changes nothing,
CONFIG_GEN included. With two failed attempts any command but FW_WRITE, and TALLY_READ where its pool reads fail
(R349), completes with what turns it away, or with FAULT and the count of lasting faults up by one, and changes
nothing else but CONFIG_GEN. -/
def Obligations.CommandsTurnedAwayChangeNothing : Prop :=
  ∀ (i : Instr) (op mb fails : Nat) (s : State), i.command = some (op, mb, fails) → s.tray.restart = .none →
    (atPoint op mb s = false → Yields i s s) ∧
    (Clean s → atPoint op mb s = true → s.tray.recovery = false → (box s mb).via = .pcie → staleGuard mb s = true →
      ∃ status result, status ∈ [stBadOpcode, stBadArg, stStale] ∧ Completes i mb s status true result s) ∧
    (Clean s → atPoint op mb s = true → s.tray.recovery = false → (box s mb).via = .pcie → staleGuard mb s = false →
      2 ≤ fails → op ≠ 0x0A00 → (∀ reads, i = .tallyRead mb ⟨fails, reads⟩ → reads = []) →
      ∃ status result readOnly,
        Completes i mb s status true result s ∨
        Completes i mb s stFault readOnly result (modMail (fun m => { m with faults := sat 32 (m.faults + 1) }) s))

/-- R57: DOMAIN_ROLE_GET takes no argument block and returns OK with an 8-byte result block: the layout of the
DOMAIN_ROLE_SET block with ROLE_VALID in bit 31 of word 0, or all zero where no role has been accepted. -/
def Obligations.RoleGetReportsTheRole : Prop :=
  (∀ mb s, Ready 0x0801 mb [] s → s.tray.role = none →
    Completes (.domainRoleGet mb 0) mb s stOk true (zeros 8) s) ∧
  (∀ mb r s, Ready 0x0801 mb [] s → s.tray.role = some r →
    Completes (.domainRoleGet mb 0) mb s stOk true
      (leWords [2 ^ 31 + put 13 8 r.position + put 5 4 r.group + put 3 2 r.gcount + put 1 0 r.role,
        put 27 20 r.traysM1 + put 19 12 r.pods + put 11 0 r.endpoints]) s) ∧
  (∀ mb args s, Ready 0x0801 mb args s → args ≠ [] → Completes (.domainRoleGet mb 0) mb s stBadArg true [] s)

/-- R465: POWER_CONFIG_SET stores cap, BANK and DEBT and clamps B to the new bounds at once; the three are not in
effect before the next tick 0, at which they are; the grants already made stand. -/
def Obligations.PowerSettingsTakeEffectAtTickZero : Prop :=
  (∀ mb w0 w1 w2 w3 s, Ready 0x0700 mb [w0, w1, w2, w3] s → bit w0 31 = false → 1000 ≤ fld w0 12 0 →
    (fld w0 12 0 : Int) ≤ calEffective s 0x2B → fld w1 28 16 ≤ 4096 → fld w1 10 0 ≤ 1024 → 16 ≤ fld w2 15 0 →
    10 ≤ fld w3 23 16 → fld w3 23 16 ≤ 100 →
    ∃ u, exec (.powerConfigSet mb 0) s = .next u ∧
      (u.power.cfg.cap, u.power.cfg.bank, u.power.cfg.debt) = (s.power.cfg.cap, s.power.cfg.bank, s.power.cfg.debt) ∧
      (u.power.cfgNext.map fun n => (n.cap, n.bank, n.debt)) = some (fld w0 12 0, fld w1 28 16, fld w1 10 0) ∧
      u.power.granted = s.power.granted ∧
      u.power.balance = max (-(2 * (fld w1 10 0 : Int) * (fld w0 12 0 * 8192)))
        (min s.power.balance ((fld w1 28 16 : Int) * (fld w0 12 0 * 8192)))) ∧
  (∀ n s, s.pending = [] → aonUp s = true → s.reel.tick < 4095 → s.power.cfgNext = some n →
    ∃ u, step s = .next u ∧ u.power = s.power) ∧
  (∀ n s, s.pending = [] → aonUp s = true → s.reel.tick = 4095 → s.reel.step = none → s.power.cfgNext = some n →
    ∃ u, step s = .next u ∧ u.reel.tick = 0 ∧ u.power.cfg = n ∧ u.power.cfgNext = none ∧
      u.power.granted = s.power.granted ∧ u.power.balance = s.power.balance)

/-- R635: SNAP = 1 copies every counter of the selected page, and the turn and tick; while it stands the window shows
the copy and a live counter goes on counting; SNAP = 0 and a write to CW_SELECT discard the copy, and the window shows
live counters. -/
def Obligations.SnapshotFreezesThePage : Prop :=
  (∀ v s, coreUp s = true → v.getLsbD 30 = false →
    ∃ u, exec (.cwSnap v) s = .next u ∧ u.ctr.snap = true ∧ u.ctr.snapTurn = s.reel.turn ∧ u.ctr.snapTick = s.reel.tick ∧
      (∀ k < 64, windowCounter u k = liveCounter s s.ctr.select.toNat k) ∧
      (∀ key n k, windowCounter (count key n u) k = windowCounter u k ∧
        (count key n u).ctr.live = tabMod 0 u.ctr.live key fun x => (x + n) % 2 ^ 64)) ∧
  (∀ v s, coreUp s = true → v.getLsbD 30 = false →
    ∃ u, exec (.cwSnapDiscard v) s = .next u ∧ u.ctr.snap = false ∧
      ∀ k, windowCounter u k = liveCounter u u.ctr.select.toNat k) ∧
  (∀ v s, coreUp s = true →
    ∃ u, exec (.cwSelect v) s = .next u ∧ u.ctr.snap = false ∧ u.ctr.select = v ∧
      ∀ k, windowCounter u k = liveCounter u v.toNat k)

/-- R641: an event whose range is enabled takes a SEQ value and is not counted in EV_MASKED; one whose range is
disabled is counted there, and takes no SEQ value and is written nowhere. -/
def Obligations.MaskedEventsAreCounted : Prop :=
  ∀ (e : Raised) (s : State), e.code / 256 ≤ 10 →
    (s.ev.rangeEn.getLsbD (e.code / 256) = true →
      (placeEvent e s).ev.nextSeq = (s.ev.nextSeq + 1) % 2 ^ 32 ∧ (placeEvent e s).ev.masked = s.ev.masked) ∧
    (s.ev.rangeEn.getLsbD (e.code / 256) = false →
      (placeEvent e s).ev = { s.ev with masked := sat 32 (s.ev.masked + 1) })

/-- R645: a link loss or PERST# sets ENABLE = 0 and leaves EV_WRITE, EV_READ, EV_BASE and SIZE_LOG; an event then goes
to the backlog while it has room. -/
def Obligations.LinkResetStopsTheRing : Prop :=
  ∀ perst s, Clean s → coreUp s = true →
    ∃ u, exec (.pcieLinkReset perst) s = .next u ∧ u.ev.enable = false ∧ u.ev.write = s.ev.write ∧
      u.ev.read = s.ev.read ∧ u.ev.baseLo = s.ev.baseLo ∧ u.ev.baseHi = s.ev.baseHi ∧ u.ev.sizeLog = s.ev.sizeLog ∧
      ∀ e : Raised, u.ev.rangeEn.toNat.testBit (e.code / 256) = true → u.ev.backlog.length < 1024 →
        (placeEvent e u).ev.backlog = u.ev.backlog ++ [evRecord u e]

/-- R647: a value written to EV_READ that lies more than N behind EV_WRITE, or ahead of it, is ignored and sets
CFG_ERROR. -/
def Obligations.EvReadOutOfRangeIsIgnored : Prop :=
  ∀ v s, Clean s → coreUp s = true → ringSize s.ev < (s.ev.write + 2 ^ 32 - v.toNat) % 2 ^ 32 →
    ∃ u, exec (.evRead v) s = .next u ∧ u.ev = { s.ev with cfgError := true } ∧ u.arch = s.arch ∧ u.mail = s.mail

/-! ### Mailbox commands: housekeeping (15_mailboxes.md) -/

/-- R623, R624: the housekeeping commands that read complete with OK and the words their tables give, and change
nothing. R610, R618, R624, R625: MAILBOX_CONFIG_SET sets the source and the vector of another mailbox that is not
active, or reads them with READ_ONLY; SCHEDULED_CANCEL takes the named action out; REMOTE_CALL over the fabric posts
the request to the other tray and waits (16 times 1,024 turns where WAIT is 0); an opcode that no chapter lists ends
BAD_OPCODE. -/
def Obligations.HousekeepingCommandsComplete : Prop :=
  (∀ mb args s, Ready 0x0000 mb args s → Completes (.nop mb 0) mb s stOk true (leWords args) s) ∧
  (∀ mb s, Ready 0x0001 mb [] s → Completes (.identityGet mb 0) mb s stOk true (leWords (identityWords s)) s) ∧
  (∀ mb s, Ready 0x0003 mb [] s → Completes (.mailboxStatusGet mb 0) mb s stOk true (leWords (mailWords s)) s) ∧
  (∀ mb s, Ready 0x0005 mb [] s → Completes (.scheduledGet mb 0) mb s stOk true
    (leWords (s.sched.length :: (sortBy (schedLe s.reel.turn) s.sched).flatMap schedEntry)) s) ∧
  (∀ mb w0 w1 s, Ready 0x0007 mb [w0, w1] s → fld w1 27 16 % 4 = 0 → fld w1 11 0 % 4 = 0 → 4 ≤ fld w1 11 0 →
    fld w1 11 0 ≤ 4064 → fld w1 27 16 + fld w1 11 0 ≤ 4096 →
    Completes (.mailboxRead mb 0) mb s stOk true
      (tabRead (memAtPoint mb s) (0x1000 * fld w0 4 0 + fld w1 27 16) (fld w1 11 0)) s) ∧
  (∀ mb w0 w1 s, Ready 0x0002 mb [w0, w1] s → bit w0 31 = false → fld w1 9 8 ≠ 3 → fld w0 4 0 ≠ mb →
    isActive (box s (fld w0 4 0)) = false →
    (viaOf (fld w1 9 8) = (box s (fld w0 4 0)).source ∨ (fld w0 4 0 ≠ 0 ∧ fld w0 4 0 ≠ 30 ∧ fld w0 4 0 ≠ 31)) →
    (viaOf (fld w1 9 8) ≠ (box s (fld w0 4 0)).source ∨ fld w1 4 0 ≠ (box s (fld w0 4 0)).vector) →
    Completes (.mailboxConfigSet mb 0) mb s stOk false
      (leWords (boxWords
        (modBox (fld w0 4 0) (fun b => { b with source := viaOf (fld w1 9 8), vector := fld w1 4 0 }) s) (fld w0 4 0)))
      (modBox (fld w0 4 0) (fun b => { b with source := viaOf (fld w1 9 8), vector := fld w1 4 0 }) s)) ∧
  (∀ mb w0 w1 s, Ready 0x0002 mb [w0, w1] s → bit w0 31 = true → fld w1 9 8 ≠ 3 →
    Completes (.mailboxConfigSet mb 0) mb s stOk true (leWords (boxWords s (fld w0 4 0))) s) ∧
  (∀ mb w0 w1 w2 a s, Ready 0x0006 mb [w0, w1, w2] s → fld w0 31 28 < 7 →
    s.sched.find? (fun a => kindCode a.kind == fld w0 31 28 && fld ((schedEntry a).headD 0) 15 0 == fld w0 15 0 &&
      a.turn == turnOf w1 w2) = some a →
    a.trayPlaced = false → 4 ≤ tsub (turnOf w1 w2) s.reel.turn →
    Completes (.scheduledCancel mb 0) mb s stOk false [] (schedRemove a s)) ∧
  (∀ mb w0 w1 h0 h1 h2 h3 h4 h5 h6 h7 inner s, Ready 0x0004 mb ([w0, w1, h0, h1, h2, h3, h4, h5, h6, h7] ++ inner) s →
    fld w0 31 30 = 0 → fld h2 11 0 = 4 * inner.length → inner.length ≤ 1006 → fld w0 23 16 ≠ s.tray.number →
    (∃ a < 4, (asicSt s a).st = .standby ∨ (asicSt s a).st = .admitted) →
    longBusy s 0x0004 (callSubject false (fld w0 23 16) (fld w1 31 16)) = false → fld w1 15 0 = 0 →
    Starts (.remoteCall mb 0) 0x0004 mb (callSubject false (fld w0 23 16) (fld w1 31 16)) (16 * 1024 * 4096) true s
      (modMail (fun m => { m with calls := m.calls ++
          [{ mb := mb, viaCrier := false, tray := fld w0 23 16, tag := fld w1 31 16 }] })
        (hc8Post (ctrlFrame (ownEid s) (0xC00 + fld w0 23 16) 0 2 (fld w1 31 16)
          (transportWord (fld w0 4 0) 0 false 0) 0 0 0 (leWords ([h0, h1, h2, h3, h4, h5, h6, h7] ++ inner))) s))) ∧
  (∀ op mb args s, Ready op mb args s → knownOpcode op = false →
    Completes (.badOpcode mb 0) mb s stBadOpcode true [] s)

/-! ### The lane commands (03_lanes.md) -/

/-- R141, R144: PORT_STATUS_GET and LANE_EQ_GET report a port end and the four equalisation blocks of a lane (the
factory and overlay block, the effective one, which a port in use took at its last entry to TRAINING or RELOCK (R122),
and the adapted one), and change nothing. That ALL_LANES = 1 reports lane 0 is the model's choice (log entry 195). -/
def Obligations.LaneReadsComplete : Prop :=
  (∀ mb w0 s, Ready 0x0104 mb [w0] s → AddressOk w0 →
    Completes (.portStatusGet mb 0) mb s stOk true (leWords (portWords s (addressUnit w0))) s) ∧
  (∀ mb w0 w1 s, Ready 0x0106 mb [w0, w1] s → AddressOk w0 → LaneOk w0 (port s (addressUnit w0)) → fld w1 1 0 < 3 →
    let u := addressUnit w0
    let k := if bit w0 12 then 0 else fld w0 10 9
    Completes (.laneEqGet mb 0) mb s stOk true
      (leWords (eqWords (eqFactoryOf u k (fld w1 1 0)) ++ eqWords (eqOverlay s u k (fld w1 1 0)) ++
        eqWords (eqInForce s u k (fld w1 1 0)) ++ eqWords (eqAdapted s u k (fld w1 1 0)))) s)

/-- R137, R138, R132: PORT_LANE_SET without AT_TURN sets the lanes of a DARK port, or IDLE_AFTER alone in any state;
with AT_TURN it places a change for its turn, but applies a change of IDLE_AFTER alone at once; PORT_TRAIN turns a
port DARK, or starts a DARK port's training with MANUAL and TIMEOUT (256 where 0 is given). -/
def Obligations.PortSettingsComplete : Prop :=
  (∀ mb w0 w1 w2 w3 s, Ready 0x0100 mb [w0, w1, w2, w3] s → AddressOk w0 → fld w1 1 0 < 3 → fld w1 3 2 < 3 →
    (fld w1 3 2 = 2 → fld w1 5 4 = 0) → (fld w1 3 2 = 1 → fld w1 5 4 < 2) →
    let u := addressUnit w0
    let ls : LaneSet := { rate := fld w1 1 0, width := fld w1 3 2, sel := fld w1 5 4, idleAfter := fld w1 31 16 }
    (bit w1 15 = false → ((port s u).st = .dark ∨ ls = { (port s u).set with idleAfter := ls.idleAfter }) →
      Completes (.portLaneSet mb 0) mb s stOk false [] (modPort u (fun p => { p with set := ls }) s)) ∧
    (bit w1 15 = true → Placeable .laneChange u (turnOf w2 w3) s →
      (ls ≠ { (port s u).set with idleAfter := ls.idleAfter } ∨ ls = (port s u).set) →
      Completes (.portLaneSet mb 0) mb s stOk false []
        (schedAdd ⟨.laneChange, u, turnOf w2 w3, 0x0100, false, .lane ls⟩ s)) ∧
    (bit w1 15 = true → untimed s = false → 4 ≤ tsub (turnOf w2 w3) s.reel.turn → tsub (turnOf w2 w3) s.reel.turn ≤ 2 ^ 32 →
      ls = { (port s u).set with idleAfter := ls.idleAfter } → ls.idleAfter ≠ (port s u).set.idleAfter →
      Completes (.portLaneSet mb 0) mb s stOk false [] (modPort u (fun p => { p with set := ls }) s))) ∧
  (∀ mb w0 w1 s, Ready 0x0101 mb [w0, w1] s → AddressOk w0 → (fld w1 31 16 = 0 ∨ 16 ≤ fld w1 31 16) →
    fld w1 31 16 ≤ 4096 →
    let u := addressUnit w0
    (fld w1 1 0 = 0 → Completes (.portTrain mb 0) mb s stOk false []
      (asicCheck (uAsic u) (portDark u (modPunit u (fun x => { x with disabled := true }) s)))) ∧
    (fld w1 1 0 = 1 ∨ fld w1 1 0 = 2 → (uSide u = 1 ∨ asicAnswers s (uAsic u) = true) → (port s u).st = .dark →
      Completes (.portTrain mb 0) mb s stOk false []
        (portTo u .training
          (modPort u (fun p =>
              { p with manual := fld w1 1 0 == 2, timeout := if fld w1 31 16 = 0 then 256 else fld w1 31 16 })
            (modPunit u (fun x => { x with disabled := false }) s)))))

/-- R139, R140, R143, R145: LANE_BITSLIP moves the framer of the named lanes of a port in MANUAL training (modulo
2,720) and sets their polarity where INV_SET is 1; LANE_ADAPT with MODE 1 turns background adaptation of the named
lanes on, with MODE 2 off; LANE_EQ_SET writes their overlay at a rate; LANE_PATTERN_SET gives the lanes of its mask a
pattern, and the port is in PATTERN while any lane sends or checks one. -/
def Obligations.LaneSettingsComplete : Prop :=
  (∀ mb w0 w1 s, Ready 0x0102 mb [w0, w1] s → AddressOk w0 → LaneOk w0 (port s (addressUnit w0)) →
    fld w1 11 0 < 2720 → (fld w1 11 0 ≠ 0 ∨ bit w1 31 = true) → (port s (addressUnit w0)).st = .training →
    (port s (addressUnit w0)).manual = true →
    Completes (.laneBitslip mb 0) mb s stOk false []
      (forAll (addressLanes w0 (port s (addressUnit w0))) (fun k => modPort (addressUnit w0) fun p => modLaneOf p k fun l =>
        { l with
          slip := (l.slip + fld w1 11 0) % 2720
          invert := if bit w1 31 then bit w1 30 else l.invert }) s)) ∧
  (∀ mb w0 w1 s, Ready 0x0103 mb [w0, w1] s → AddressOk w0 → LaneOk w0 (port s (addressUnit w0)) →
    (fld w1 1 0 = 1 ∨ fld w1 1 0 = 2) →
    ((port s (addressUnit w0)).st = .probation ∨ (port s (addressUnit w0)).st = .standby ∨
      (port s (addressUnit w0)).st = .admitted) →
    longBusy s 0x0103 (addressUnit w0) = false →
    let named := addressLanes w0 (port s (addressUnit w0))
    let off := fun (k b : Nat) => (fld w1 1 0 == 2 && named.contains k) || (b.testBit k && !(fld w1 1 0 == 1 && named.contains k))
    Completes (.laneAdapt mb 0) mb s stOk false [0, 0, 0, 0]
      (modPort (addressUnit w0) (fun p => { p with bgOff := maskOf (numbers 4 fun k => off k p.bgOff) }) s)) ∧
  (∀ mb w0 w1 w2 w3 s, Ready 0x0105 mb [w0, w1, w2, w3] s → AddressOk w0 → LaneOk w0 (port s (addressUnit w0)) →
    fld w1 1 0 < 3 →
    let b := eqArg w2 w3
    (-16 ≤ b.main ∧ b.main ≤ 16) → (-4 ≤ b.pre2 ∧ b.pre2 ≤ 4) → (-8 ≤ b.pre1 ∧ b.pre1 ≤ 8) →
    (-8 ≤ b.post1 ∧ b.post1 ≤ 8) → (-8 ≤ b.ctle ∧ b.ctle ≤ 8) → (-16 ≤ b.vga ∧ b.vga ≤ 16) →
    (-64 ≤ b.fom ∧ b.fom ≤ 64) →
    Completes (.laneEqSet mb 0) mb s stOk false []
      (forAll (addressLanes w0 (port s (addressUnit w0)))
        (fun k s => { s with eq := tabSet {} s.eq (eqKey (addressUnit w0) k (fld w1 1 0)) b }) s)) ∧
  (∀ mb w0 w1 s, Ready 0x0107 mb [w0, w1] s → AddressOk w0 → fld w1 2 0 < 7 → fld w1 5 3 < 4 →
    ((port s (addressUnit w0)).st = .dark ∨ (port s (addressUnit w0)).st = .pattern) →
    let t := modPort (addressUnit w0) (fun p => modLanes p fun k l =>
      if (fld w1 12 9).testBit k then
        { l with
          pattern := { tx := fld w1 2 0, check := fld w1 5 3, level := fld w1 7 6, precode := bit w1 8 }
          patErrors := 0 }
      else l) s
    Completes (.lanePatternSet mb 0) mb s stOk false []
      (portTo (addressUnit w0) (if anyPattern (port t (addressUnit w0)) then .pattern else .dark) t))

/-- R120, R140, R601: LANE_ADAPT with MODE 0 starts a one-shot adaptation of the named lanes where each has SIGNAL,
PRBS_LOCK and a steady FOM, with a limit of 80 turns, and notes the FOM samples before it and the coefficients to
which a lane that loses reverts. -/
def Obligations.LaneAdaptStarts : Prop :=
  ∀ mb w0 w1 s, Ready 0x0103 mb [w0, w1] s → AddressOk w0 → LaneOk w0 (port s (addressUnit w0)) → fld w1 1 0 = 0 →
    ((port s (addressUnit w0)).st = .probation ∨ (port s (addressUnit w0)).st = .standby ∨
      (port s (addressUnit w0)).st = .admitted) →
    (∀ k ∈ addressLanes w0 (port s (addressUnit w0)),
      laneAdapts s (port s (addressUnit w0)) (laneOf (port s (addressUnit w0)) k) = true) →
    longBusy s 0x0103 (addressUnit w0) = false →
    let named := addressLanes w0 (port s (addressUnit w0))
    Starts (.laneAdapt mb 0) 0x0103 mb (addressUnit w0) (80 * 4096) false s
      (modPort (addressUnit w0) (fun p =>
        { p with adapt := some { mb := mb, lanes := named, retry := named, run := 1, start := s.reel.bounds,
                                 before := named.map fun k => fomSum (laneOf (port s (addressUnit w0)) k),
                                 saved := named.map fun k => (laneOf (port s (addressUnit w0)) k).adapts } }) s)

/-! ### Lane events (03_lanes.md) -/

/-- R109: what a training step of a port end in TRAINING or RELOCK observes is noted lane by lane, and SIGNAL, CDR
lock within one turn (4,096 ticks, log entry 197), FRAME alignment and a skew of at most 16 let the receiver go on by
one step; a greater skew raises SKEW_TOO_LARGE and starts the attempt again. Every other observation does what
`trainStep` gives. -/
def Obligations.TrainingStepsAdvance : Prop :=
  ∀ u o s, isPortEnd u = true → trainingRuns s = true → trains s (port s u) = true →
    let n := modPort u (fun p => modLanes p fun k l =>
      if k < laneCount p then seeLane o k l else l) s
    Yields (.trainingStepDone u o) s (trainStep u o s) ∧
    ((port s u).step = 0 → (∀ k < laneCount (port s u), o.signal.getD k (laneOf (port s u) k).signal = true) →
      Yields (.trainingStepDone u o) s (modPort u (fun p => { p with step := 1, stepAt := s.reel.clock }) n)) ∧
    ((port s u).step = 1 → o.lock = true → s.reel.clock < (port s u).stepAt + 4096 →
      Yields (.trainingStepDone u o) s (modPort u (fun p => { p with step := 2 }) n)) ∧
    ((port s u).step = 2 → o.aligned = true →
      Yields (.trainingStepDone u o) s (modPort u (fun p => { p with step := 3 }) n)) ∧
    ((port s u).step = 4 → o.skew ≤ 16 →
      Yields (.trainingStepDone u o) s (modPort u (fun p => { p with step := 5 }) n)) ∧
    ((port s u).step = 4 → 16 < o.skew →
      Yields (.trainingStepDone u o) s (restartAttempt u 4 (raise 0x0102 [iUnit u, (16, o.skew)] n)))

/-- R109, R110: in step CHECK markers of the port's own RATE and WIDTH whose LANE fields are all different and below
the number of lanes end the step, however the lanes are wired: from then on lane k is the one whose markers carry LANE
= k. -/
def Obligations.MarkersNameTheLanes : Prop :=
  ∀ u o s, isPortEnd u = true → trainingRuns s = true → trains s (port s u) = true → (port s u).step = 3 →
    let p := port s u
    let w := fun (k : Nat) => (((o.markers.getD k none).map fun x => x.word.toNat).getD 0 : Nat)
    o.markers.length = laneCount p →
    (∀ k < laneCount p, markerOk (w k) = true ∧ fld (w k) 19 18 = p.set.rate ∧ fld (w k) 21 20 = p.set.width ∧
      fld (w k) 23 22 < laneCount p ∧ ∀ j < k, fld (w j) 23 22 ≠ fld (w k) 23 22) →
    ∃ t, exec (.trainingStepDone u o) s = .next t ∧ (port t u).step = 4 ∧
      ∀ k < laneCount p, (laneOf (port t u) k).mkLane = k

/-- R109, R111, R112, R113: CDR_LOCK_TIMEOUT one turn after SIGNAL and TRAINING_TIMEOUT at its boundary end the
attempt; BITSLIP_ROUND slips the framer of a lane in FRAME by the offset captured, sets its polarity and notes the
marker, and ends the attempt at the eighth round; a lane with no capture shows 0xFFFF; FAR_READY lets a READY port
send END; END_RECEIVED brings it to PROBATION. -/
def Obligations.TrainingEventsComplete : Prop :=
  (∀ u s, isPortEnd u = true → trainingRuns s = true → trains s (port s u) = true → (port s u).step = 1 →
    (port s u).stepAt + 4096 ≤ s.reel.clock → Yields (.cdrLockTimeout u) s (restartAttempt u 1 s)) ∧
  (∀ u k x before now s, (before && now) = false →
    isPortEnd u = true → trainingRuns s = true → trains s (port s u) = true → (port s u).step = 2 →
    ((port s u).manual = false ∨ (port s u).st = .relock) → k < laneCount (port s u) →
    markerOk x.word.toNat = true →
    let t := modPort u (fun p => modLaneOf p k fun l =>
        { noteMarker x l with
          slip := (l.slip + x.offset) % 2720, invert := l.invert != x.inverted, rounds := l.rounds + 1 }) s
    ((laneOf (port s u) k).rounds < 7 → Yields (.bitslipRound u k (some x) before now) s t) ∧
    ((laneOf (port s u) k).rounds = 7 → Yields (.bitslipRound u k (some x) before now) s (restartAttempt u 2 t)) ∧
    Yields (.bitslipRound u k none before now) s (modPort u (fun p => modLaneOf p k fun l => { l with capture := 0xFFFF }) s)) ∧
  (∀ u s, isPortEnd u = true → trainingRuns s = true → stepsDone s = true → (port s u).st = .training →
    (port s u).rxReady = false →
    (port s u).attemptAt + (port s u).timeout ≤ s.reel.bounds →
    Yields (.trainingTimeout u) s (restartAttempt u (port s u).step s)) ∧
  (∀ u s, isPortEnd u = true → trainingRuns s = true → (port s u).st = .training → (port s u).rxReady = true →
    (port s u).txEnded = false →
    Yields (.farReady u) s (modPort u (fun p =>
      sendEnd (modLanes p fun k l => if k < laneCount p then { l with farReady := true } else l) s) s)) ∧
  (∀ u s, isPortEnd u = true → trainingRuns s = true → (port s u).st = .training → (port s u).rxReady = true →
    Yields (.endReceived u) s (asicCheck (uAsic u) (newStampLag u (portTo u .probation
      (if (port s u).txEnded then s else modPort u (fun p => sendEnd p s) s)))))

/-- R126, R127, R129, R132: LANE_CHANGE applies the action that is due, whatever it does to the port's state;
RELOCK_DEADLINE 1,024 ticks after the change returns a READY port and sends one that is not READY to TRAINING;
SIGNAL_LOSS raises PORT_RETRAIN and sends the port to TRAINING, by silence only while the receiver has seen no IDLE
block, by TRAIN markers always; an IDLE block puts the receiver in electrical idle. -/
def Obligations.LaneServiceEventsComplete : Prop :=
  (∀ u a ls s, dueAction .laneChange (some u) s = some a → a.arg = .lane ls →
    Yields (.laneChange u) s (applyLaneChange u ls (schedRemove a s))) ∧
  (∀ u s, isPortEnd u = true → (port s u).st = .relock → (port s u).relockAt + 1024 ≤ s.reel.clock →
    Yields (.relockDeadline u) s (if (port s u).rxReady then relockReturn u s else portTo u .training s)) ∧
  (∀ u lanes s, isPortEnd u = true → inService (port s u) = true →
    let t := modPort u (darkLanes lanes) s
    ((port s u).rxIdle = false →
      Yields (.signalLoss u (.silent lanes)) s (portTo u .training (raise 0x0104 [iUnit u, iCause 0] t))) ∧
    ((port s u).rxIdle = true → Yields (.signalLoss u (.silent lanes)) s t) ∧
    Yields (.signalLoss u .train) s (portTo u .training (raise 0x0104 [iUnit u, iCause 1] s)) ∧
    Yields (.signalLoss u .idle) s (modPort u (fun p => { darkLanes [0, 1, 2, 3] p with rxIdle := true }) s))

/-- R123, R124, R125, R130, R276, R282: IDLE_ENTRY after IDLE_AFTER quiet ticks sends a pair with IDLE_NEXT and an
IDLE block and puts the transmitter in electrical idle; PREWAKE, exactly the wake ticks before a PREWAKE pitch, starts
the idle exit, at once or when the dwell has passed; IDLE_EXIT_CHECK takes every lane's verdict (each failed lane
counts, log entry 198), and a displaced lane then retrains the port. -/
def Obligations.ElectricalIdleEventsComplete : Prop :=
  (∀ u s, isPortEnd u = true → ((port s u).st = .standby ∨ (port s u).st = .admitted) → (port s u).txIdle = false →
    (port s u).set.idleAfter ≠ 0 → (port s u).busyUntil ≤ s.reel.clock →
    (port s u).fillFrom + (port s u).set.idleAfter ≤ s.reel.clock → idleAllowed s u = true →
    (link s u).stream = [] → (link s u).waiting = none →
    let n := sendPair u true s
    Yields (.idleEntry u) s (forAll (List.range (laneCount (port s u))) (fun k => count (laneCtr u k 5) 1)
      (modPort u (fun p => { p with txIdle := true, idleAt := n.reel.clock }) (sendBlock u 3 n)))) ∧
  (∀ u s, isPortEnd u = true → uSide u = 0 → inService (port s u) = true → (port s u).txIdle = true →
    s.tray.st ≠ .unscheduled → (port s u).wakeAt = none →
    prewakeStarts s u (dwellLeft s (port s u) + exitTicks (port s u).set.rate) = true →
    ∃ t, exec (.prewake u) s = .next t ∧
      (dwellLeft s (port s u) = 0 → (port t u).txIdle = false ∧ (port t u).blocks = [1, 1, 1, 1, 2] ∧
        s.reel.clock + exitTicks (port s u).set.rate ≤ (port t u).busyUntil) ∧
      (dwellLeft s (port s u) ≠ 0 → (port t u).txIdle = true ∧
        (port t u).wakeAt = some (s.reel.clock + dwellLeft s (port s u)) ∧
        (port t u).busyUntil = s.reel.clock + dwellLeft s (port s u) + exitTicks (port s u).set.rate)) ∧
  (∀ u vs s, isPortEnd u = true → inService (port s u) = true → (port s u).rxIdle = true →
    (∀ k < laneCount (port s u), (vs.getD k (0, 0)).1 ≠ 2) →
    Yields (.idleExitCheck u vs) s (forAll (List.range (laneCount (port s u)))
      (fun k => exitLane u k (vs.getD k (0, 0)).1 (vs.getD k (0, 0)).2) (modPort u (fun p => { p with rxIdle := false }) s))) ∧
  (∀ u vs s, isPortEnd u = true → inService (port s u) = true → (port s u).rxIdle = true →
    (∃ k < laneCount (port s u), (vs.getD k (0, 0)).1 = 2) →
    Yields (.idleExitCheck u vs) s (portTo u .training (raise 0x0104 [iUnit u, iCause 2]
      (forAll (List.range (laneCount (port s u))) (fun k => exitLane u k (vs.getD k (0, 0)).1 (vs.getD k (0, 0)).2)
        (modPort u (fun p => { p with rxIdle := false }) s)))))

/-- R119, R120, R244: BACKGROUND_ADAPT takes one step or counts a skip on every lane of a port in service, 16 turns
after the one before; LANE_ADAPT_DONE 32 turns after a run began, its 16 steps made, judges it by the FOM samples
held: where no lane's mean fell, the command completes with OK and the mask of its lanes; PROBATION_TURN notes a
turn's samples once a turn, and a clean whole turn of PROBATION adds 1 to the count of clean turns. -/
def Obligations.AdaptationEventsComplete : Prop :=
  (∀ u s, isPortEnd u = true → trainingRuns s = true → inService (port s u) = true →
    (port s u).adaptAt + 16 ≤ s.reel.bounds →
    Yields (.backgroundAdapt u) s (forAll (List.range (laneCount (port s u))) (backgroundLane u)
      (modPort u (fun p => { p with adaptAt := s.reel.bounds }) s))) ∧
  (∀ asic p hc8 a s,
    let u := portEndOf asic p hc8
    isPortEnd u = true → (port s u).adapt = some a → a.steps = 16 → a.start + 32 ≤ s.reel.bounds →
    Yields (.laneAdaptDone asic p hc8) s (laneAdaptEnd u a s)) ∧
  (∀ asic p hc8 a l s,
    let u := portEndOf asic p hc8
    isPortEnd u = true → (port s u).adapt = some a → a.steps = 16 → a.start + 32 ≤ s.reel.bounds →
    adaptLost (port s u) a = [] → longOf s a.mb = some l →
    Yields (.laneAdaptDone asic p hc8) s (endLong l stOk (leWords [put 7 4 (maskOf a.lanes) + put 3 0 (maskOf [])])
      (modPort u (fun p => { p with adapt := none }) s))) ∧
  (∀ u errs foms s, isPortEnd u = true → trainingRuns s = true → (port s u).st ≠ .dark →
    firstThisTurn (2 ^ 52 + u) s = true →
    Yields (.probationTurn u errs foms) s (probationTurn u errs foms s)) ∧
  (∀ u errs foms s, isPortEnd u = true → trainingRuns s = true → (port s u).st = .probation →
    firstThisTurn (2 ^ 52 + u) s = true → wholeTurn s (port s u) = true →
    (punit s u).lasting = false →
    (∀ k < laneCount (port s u), prbsLock s (port s u) (laneOf (port s u) k) = true ∧ errs.getD k 0 = 0 ∧
      (laneOf (port s u) k).eff.fom ≤ foms.getD k 0) → (punit s u).clean < 63 → (punit s u).passed = false →
    ∃ t, exec (.probationTurn u errs foms) s = .next t ∧ (punit t u).clean = (punit s u).clean + 1 ∧
      (port t u).st = .probation)

/-! ### Forwarding and links (04_frames_and_link.md, 05_forwarding_core.md) -/

/-- R172, R212, R214, R216, R219: the forwarding commands that read complete with OK and the words their tables give;
QUEUE_CONFIG_GET sets PEAK back to the present depth, the others change nothing. R206, R208, R211, R213, R215, R217,
R218: EPT_WRITE writes its entries, with 0 in their reserved bits, into the bank that is not in force, on every ASIC
of its mask, takes them out of the lookup caches, reports the cartridges whose state that changes and judges the held
first frames again; TABLE_SWITCH places a switch; QUEUE_CONFIG_SET, FWD_CONFIG_SET and SPILL_CONFIG_SET store their
settings; a frame already at the head of a queue keeps the mode that it reached the head under. -/
def Obligations.ForwardingCommandsComplete : Prop :=
  (∀ mb w0 s, Ready 0x0201 mb [w0] s → 1 ≤ fld w0 19 12 → fld w0 19 12 ≤ 200 → fld w0 31 20 + fld w0 19 12 ≤ 0x1000 →
    Completes (.eptRead mb 0) mb s stOk true
      (leWords ((List.range (fld w0 19 12)).flatMap fun i =>
        let e := eptEntry s (bit w0 0) (fld w0 5 4) (fld w0 31 20 + i)
        [e.w0.toNat, e.w1.toNat, e.w2.toNat, e.w3.toNat])) s) ∧
  (∀ mb s, Ready 0x0203 mb [] s → Completes (.tableStatusGet mb 0) mb s stOk true (leWords (tableWords s)) s) ∧
  (∀ mb w0 w1 s, Ready 0x0205 mb [w0, w1] s → fld w0 6 0 < 92 → fld w1 2 0 < 5 →
    let u := asicEnd (addressUnit w0)
    let q := queueCfg s u (fld w1 2 0)
    let d := depth s u (fld w1 2 0)
    Completes (.queueConfigGet mb 0) mb s stOk true
      (leWords [put 31 16 q.limit + put 15 11 q.unspill + put 10 6 q.mark + put 1 0 q.mode,
        put 31 16 (sat 16 d) + put 15 0 (sat 16 (max d (tabGet 0 s.fwd.peaks (u * 8 + fld w1 2 0))))])
      (modFwd (fun w => { w with peaks := tabSet 0 w.peaks (u * 8 + fld w1 2 0) d }) s)) ∧
  (∀ mb w0 s, Ready 0x0208 mb [w0] s →
    let sp := spillOf s (fld w0 1 0)
    Completes (.spillStatusGet mb 0) mb s stOk true
      (leWords [sp.pages.length, sp.peak, sat 32 (sp.pages.flatMap fun p => p.frames).length, sp.dropsNoSpace,
        sp.dropsLost]) s) ∧
  (∀ mb w0 s, Ready 0x0280 mb [w0] s → AddressOk w0 →
    Completes (.linkStatusGet mb 0) mb s stOk true (leWords (linkWords s (addressUnit w0))) s) ∧
  (∀ mb w0 w1 entries s, Ready 0x0200 mb ([w0, w1] ++ entries) s →
    let n := fld w0 19 12
    let first := fld w0 31 20
    let asics := numbers 4 fun a => (fld w0 7 4).testBit a
    let e := fun i => ({
      w0 := BitVec.ofNat 32 (entries.getD (4 * i) 0), w1 := BitVec.ofNat 32 (entries.getD (4 * i + 1) 0)
      w2 := BitVec.ofNat 32 (entries.getD (4 * i + 2) 0) &&& 0x000FFFFF
      w3 := BitVec.ofNat 32 (entries.getD (4 * i + 3) 0) &&& 0x80000000 } : EptEntry)
    entries.length = 4 * n → 1 ≤ n → n ≤ 200 → fld w0 7 4 ≠ 0 → first + n ≤ 0x1000 →
    (∀ i < n, eptValid (e i) = true → badEid (first + i) = false) → bankBusy s (bit w0 0) = false →
    Completes (.eptWrite mb 0) mb s stOk false []
      (forAll asics rejudgeWiring
        (withCarts (forAll asics fun a => forAll (List.range n) fun i => modFwd fun v =>
          { v with
            ept := tabSet {} v.ept (eptKey (bit w0 0) a (first + i)) (e i)
            cache := tabMod [] v.cache ((bit w0 0).toNat * 4 + a) fun l => l.filter (· != first + i) }) s))) ∧
  (∀ mb w0 w1 w2 s, Ready 0x0202 mb [w0, w1, w2] s → fld w0 6 0 ≤ 64 → Placeable .tableSwitch 0 (turnOf w1 w2) s →
    pendingTable s = none → graceRuns s = false →
    Completes (.tableSwitch mb 0) mb s stOk false []
      (schedAdd ⟨.tableSwitch, 0, turnOf w1 w2, 0x0202, false, .table (fld w0 6 0)⟩ s)) ∧
  (∀ mb w0 w1 w2 s, Ready 0x0204 mb [w0, w1, w2] s → fld w0 6 0 < 92 → fld w1 4 0 ≠ 0 → fld w2 15 11 < 16 →
    fld w2 10 6 < 17 → fld w2 1 0 < 2 →
    let u := asicEnd (addressUnit w0)
    let units := if bit w1 16 then asicPorts (uAsic u) else [u]
    Completes (.queueConfigSet mb 0) mb s stOk false []
      (forAll units (fun v => forAll (numbers 5 fun k => (fld w1 4 0).testBit k) fun k s => modFwd (fun w =>
        { w with
          qcfg := tabSet (qDefault k) w.qcfg (v * 8 + k)
            { limit := fld w2 31 16, unspill := fld w2 15 11, mark := fld w2 10 6, mode := fld w2 1 0 } })
        (keepMode v k s)) s)) ∧
  (∀ mb w0 s, Ready 0x0206 mb [w0] s → bit w0 31 = false →
    Completes (.fwdConfigSet mb 0) mb s stOk false
      (leWords [put 20 16 (fld w0 20 16) + put 12 8 (fld w0 12 8) + put 1 0 (fld w0 1 0)])
      (modFwd (fun v => { v with spillClasses := fld w0 20 16, deflClasses := fld w0 12 8, deflMax := fld w0 1 0 }) s)) ∧
  (∀ mb w0 s, Ready 0x0206 mb [w0] s → bit w0 31 = true →
    Completes (.fwdConfigSet mb 0) mb s stOk true
      (leWords [put 20 16 s.fwd.spillClasses + put 12 8 s.fwd.deflClasses + put 1 0 s.fwd.deflMax]) s) ∧
  (∀ mb w0 w1 w2 s, Ready 0x0207 mb [w0, w1, w2] s → fld w0 3 0 ≠ 0 → w1 ≤ 786432 → w2 ≤ w1 →
    ((List.range 4).map fun a => if (fld w0 3 0).testBit a then w2 else (spillOf s a).reserve).sum ≤ spillPages s →
    Completes (.spillConfigSet mb 0) mb s stOk false []
      (forAll (numbers 4 fun a => (fld w0 3 0).testBit a) (fun a => modSpill a fun sp =>
        { sp with quota := w1, reserve := w2 }) s))

/-- R114, R153, R156, R158, R173: PAIR_RECEIVE takes a pair at a port that carries pairs, a bad one as a link error or
a lost place; ACK_TIMEOUT replays after 256 ticks without progress; FRAME_INGRESS passes the first accepted frame of
an ASIC's port, with the moment of its head, through the stages of R173. -/
def Obligations.LinkEventsComplete : Prop :=
  (∀ u lcw stream holds corr s, isPortEnd u = true → inService (port s u) = true →
    Yields (.pairReceive u lcw stream false holds corr) s (goodPair u lcw.toNat stream holds (pairLanes u corr s))) ∧
  (∀ u lcw stream holds corr s, isPortEnd u = true → inService (port s u) = true →
    Yields (.pairReceive u lcw stream true holds corr) s (badPair u holds (pairLanes u corr s))) ∧
  (∀ u s, isPortEnd u = true → inService (port s u) = true → (link s u).unacked ≠ [] →
    (link s u).lastAdvance + 256 ≤ s.reel.clock →
    Yields (.ackTimeout u) s
      (replay u (countWin (linkCtr u 9) 1 (modLink u (fun l => { l with lastAdvance := s.reel.clock }) s)))) ∧
  (∀ u x t s, isPortEnd u = true → uSide u = 0 → (link s u).arrived = x :: t →
    let r := ingress u x (modLink u (fun l => { l with arrived := t }) s)
    Yields (.frameIngress u) s (spillHeld (uAsic u) (asicFrames r (uAsic u)).length r))

/-- R75, R191, R198, R203, R274, R277, R297: EGRESS_DECISION decides at a port that is free, in pitch 0 once the
changes of the turn are made; SPILL_RETURN brings the oldest spilled frame of a queue back to its tail, or loses its
page; PLAN_NO_FIT drops a head that a whole bolt did not carry; TABLE_GRACE_END ends the grace. R235, R236:
LOSS_NOTICE takes the losses of a flow's oldest turn that has ended and hands them to the recall or collective of this
tray's HC-8 that sent the frames, or sends one notice to their source; LOSS_NOTICE_RECEIVE hands a received notice on.
What is sent again is read from the pool. -/
def Obligations.QueueAndLossEventsComplete : Prop :=
  (∀ u s, isPortEnd u = true → inService (port s u) = true → (port s u).busyUntil ≤ s.reel.clock →
    (link s u).waiting = none → (stepsDone s = true ∨ 64 ≤ s.reel.tick) →
    Yields (.egressDecision u) s (decideEgress u s)) ∧
  (∀ a p cls reads g q s, a < 4 → p < 92 → cls < 5 →
    let u := unitOf a p
    (spillOf s a).pages.find? (fun g => g.frames.any fun e => e.1 == u * 8 + cls) = some g →
    g.frames.find? (fun e => e.1 == u * 8 + cls) = some (u * 8 + cls, q) → (punit s u).hold = none →
    hc8Reach s a = true → 16 * depth s u cls ≤ (queueCfg s u cls).unspill * (queueCfg s u cls).limit →
    frameCells q.f ≤ freeCells s a →
    Yields (.spillReturn a p cls reads) s (withReads reads (spillBack u cls q) s)) ∧
  (∀ a p cls q s, a < 4 → p < 92 → cls < 5 → headOf s (unitOf a p) cls = some q → s.tray.st ≠ .unscheduled →
    wholeBolt s q = true →
    let u := unitOf a p
    Yields (.planNoFit a p cls) s (onlyIf q.diverted (retire a q)
      (raiseOnce (eventKey 0x0302 + u) 0x0302 [iUnit u, (3, cls)]
        (countWin (planCtr u 5) 1 (dropFrame dropNoSpace u q.f (dequeue u q s)))))) ∧
  (∀ s, s.fwd.tables.inGrace = true →
    reached ((s.fwd.tables.switchTurn + s.fwd.tables.grace) % 2 ^ 48) s.reel.turn = true →
    Yields .tableGraceEnd s (modFwd (fun w => { w with tables := { w.tables with inGrace := false } }) s)) ∧
  (∀ flow b ls reads s, coreUp s = true → lossGroup s flow = some (b, ls) →
    let a := lossArgs flow ls
    let t := withReads reads
      (modFwd fun w => { w with losses := w.losses.filter fun l => !(l.flow == flow && l.bound == b) }) s
    let r := hc8Send (ctrlFrame (ownEid s) (flow / 2 ^ 15) 0 4 ((ls.head?.elim 0 (·.turn)) % 65536)
      a.1 a.2.1 a.2.2.1 a.2.2.2 []) t
    (flow / 2 ^ 15 = ownEid s → Yields (.lossNotice ⟨flow, reads⟩) s (ownLost a.1 a.2.1 a.2.2.1 a.2.2.2 t)) ∧
    (flow / 2 ^ 15 ≠ ownEid s → r.1 = true → Yields (.lossNotice ⟨flow, reads⟩) s (count (hc8Ctr 0) 1 r.2))) ∧
  (∀ ifc f reads s, coreUp s = true → s.tray.restart ≠ .warming →
    (link s (ifcUnit ifc)).rxq.find? (fun f => f.cls == 0 && ctypeOf f == 4) = some f →
    Yields (.lossNoticeReceive ⟨ifc, reads⟩) s
      (noticeArrive f (withReads reads (modLink (ifcUnit ifc) fun l => { l with rxq := l.rxq.erase f }) s)))

/-! ### Units (06_ordering_ports_readmission.md) -/

/-- R263 to R266: UNIT_ADMIT and UNIT_WITHDRAW place the action of a unit for a bolt boundary (UNIT_ADMIT of an ASIC
clears its table mismatches first, R259); HOLD_CONFIG_SET stores the hold window; UNIT_STATUS_GET and RESEQ_STATUS_GET
report. -/
def Obligations.UnitCommandsComplete : Prop :=
  (∀ mb w0 w1 w2 s, Ready 0x0900 mb [w0, w1, w2] s → UnitOk w0 → bit w0 15 = false →
    let u := namedUnit w0
    Placeable .admission u (turnOf w1 w2) s → boltBoundary s (turnOf w1 w2) = true → inStandby s u = true →
    (uKind u = 3 ∨ s.tray.st = .admitted) → asicReady s u (turnOf w1 w2) = true →
    Completes (.unitAdmit mb 0) mb s stOk false []
      (schedAdd ⟨.admission, u, turnOf w1 w2, 0x0900, false, .none⟩
        (if uKind u = 2 then modAsic (uAsic u) (fun x => { x with mismatches := 0 }) s else s))) ∧
  (∀ mb w0 w1 w2 s, Ready 0x0901 mb [w0, w1, w2] s → UnitOk w0 → bit w0 15 = false →
    let u := namedUnit w0
    Placeable .withdraw u (turnOf w1 w2) s → boltBoundary s (turnOf w1 w2) = true → unitState s u = 4 →
    (uKind u = 3 ∨ s.tray.st = .admitted) → asicReady s u (turnOf w1 w2) = true →
    Completes (.unitWithdraw mb 0) mb s stOk false []
      (schedAdd ⟨.withdraw, u, turnOf w1 w2, 0x0901, false, .none⟩ s)) ∧
  (∀ mb w0 s, Ready 0x0902 mb [w0] s → UnitOk w0 →
    Completes (.unitStatusGet mb 0) mb s stOk true (leWords (unitWords s (namedUnit w0))) s) ∧
  (∀ mb w0 w1 s, Ready 0x0903 mb [w0, w1] s → fld w0 6 0 < 92 → fld w1 12 0 ≤ 4096 →
    let u := asicEnd (addressUnit w0)
    Completes (.holdConfigSet mb 0) mb s stOk false []
      (forAll (if bit w1 16 then asicPorts (uAsic u) else [u])
        (fun v => modPunit v fun p => { p with window := fld w1 12 0 }) s)) ∧
  (∀ mb w0 s, Ready 0x0904 mb [w0] s →
    Completes (.reseqStatusGet mb 0) mb s stOk true (leWords (reseqWords s (fld w0 1 0))) s)

/-- R239, R241, R246, R249, R250, R259: an admission or withdrawal that is due takes effect; a withdrawn unit leaves
ADMITTED once drained, or at its limit with its frames placed elsewhere; a hold window ends after W + 1 boundaries, or
at turn L + W + 1 where a step of the count brings that sooner, behind the changes of the turn; an ASIC whose domain
is on answers and trains; an ASIC in PROBATION with its required ports passed enters STANDBY after at most one
mismatch of its tables, and stays with ASIC_TABLE_FAULT after two. -/
def Obligations.UnitEventsComplete : Prop :=
  (∀ u a s, dueAction .admission (some u) s = some a → Yields (.unitAdmission u) s (admitUnit u a.turn (schedRemove a s))) ∧
  (∀ u a s, dueAction .withdraw (some u) s = some a →
    Yields (.unitWithdrawal u) s (withdrawUnit u a.turn (schedRemove a s))) ∧
  (∀ u t s, drains s u = some t → reached t s.reel.turn = true → s.reel.tick = 0 → unitHolds s u = false →
    Yields (.withdrawalDrained u) s (withdrawDone u s)) ∧
  (∀ u reads t s, drains s u = some t → reached ((t + 8) % 2 ^ 48) s.reel.turn = true →
    Yields (.withdrawalDrainLimit ⟨u, reads⟩) s
      (withReads reads (fun r => forAll ((servingPorts s u).filter fun v => uSide v == 0 && holdsFrames s v)
        (fun v s => placeHeld v (divertQueued v s)) (withdrawDone u r)) s)) ∧
  (∀ a p reads h s, a < 4 → p < 92 → (punit s (unitOf a p)).hold = some h → stepsDone s = true →
    (h.bound + h.window + 1 ≤ s.reel.bounds ∨ reached ((h.lossTurn + h.window + 1) % 2 ^ 48) s.reel.turn = true) →
    Yields (.holdWindowEnd a ⟨p, reads⟩) s (withReads reads (holdExpire (unitOf a p)) s)) ∧
  (∀ a s, a < 4 → (asicSt s a).st = .dark → domainOn s (4 + a) = true →
    let t := asicTo a .training (modAsic a (fun x => { x with answered := true, mismatches := 0 }) s)
    Yields (.asicAnswer a) s (forAll (bringUpPorts t a) trainAuto t)) ∧
  (∀ a m s, a < 4 → (asicSt s a).st = .probation → (asicSt s a).mismatches < 2 →
    (requiredPorts s a).all (fun u => (punit s u).passed) = true → m < 2 →
    Yields (.asicTableLoad a m) s
      (forAll (asicPorts a ++ (List.range 8).map fun i => hc8End (unitOf a (72 + i))) probationExit
        (asicTo a .standby (modAsic a (fun x => { x with mismatches := 0 }) s)))) ∧
  (∀ a m s, a < 4 → (asicSt s a).st = .probation → (asicSt s a).mismatches < 2 →
    (requiredPorts s a).all (fun u => (punit s u).passed) = true → 2 ≤ m →
    Yields (.asicTableLoad a m) s (raise 0x0907 [iUnit (asicUnit a)] (modAsic a (fun x => { x with mismatches := 2 }) s)))

/-! ### The pitch plan (07_pitch_plan.md) -/

/-- R310, R311, R312: a bank that is neither in force nor sealed takes a new header (with every pattern and map entry
at its default), then patterns and map entries; the last argument word of an odd map write is half used. R308, R313,
R314, R315, R316: PLAN_SEAL seals a bank without an error and unseals one that is neither in force nor about to be,
with the digest of its contents; PLAN_SWAP places the swap of a sealed bank for a bolt boundary, or takes the pending
one back; PLAN_STATUS_GET and PLAN_CONFORM_GET report. -/
def Obligations.PlanBankCommandsComplete : Prop :=
  (∀ mb w0 ws s, Ready 0x0300 mb (w0 :: ws) s → ws.length = 8 → s.plan.inForce ≠ some (bit w0 0) →
    (bankOf s (bit w0 0)).sealed = false →
    Completes (.planHeaderWrite mb 0) mb s stOk false []
      (modBank (bit w0 0) (fun _ => { header := ws.map (BitVec.ofNat 32), written := true }) s)) ∧
  (∀ mb w0 w1 ws s, Ready 0x0301 mb ([w0, w1] ++ ws) s → 1 ≤ fld w0 21 18 → fld w0 21 18 ≤ 12 →
    ws.length = 64 * fld w0 21 18 → (bankOf s (bit w0 0)).written = true →
    fld w0 31 22 + fld w0 21 18 ≤ patternCount (bankOf s (bit w0 0)) → s.plan.inForce ≠ some (bit w0 0) →
    (bankOf s (bit w0 0)).sealed = false →
    Completes (.planPatternWrite mb 0) mb s stOk false []
      (modBank (bit w0 0) (fun k =>
        { k with
          patterns := (List.range (64 * fld w0 21 18)).foldl
            (fun t i => tabSet 0 t (64 * fld w0 31 22 + i) (BitVec.ofNat 32 (ws.getD i 0))) k.patterns }) s)) ∧
  (∀ mb w0 w1 ws s, Ready 0x0302 mb ([w0, w1] ++ ws) s →
    let n := fld w0 14 11 * 1024 + fld w0 10 1
    let b := bit w0 0
    1 ≤ n → n ≤ 1536 → ws.length = (n + 1) / 2 → (bankOf s b).written = true →
    fld w0 31 17 + n ≤ 92 * boltTurns (bankOf s b) → s.plan.inForce ≠ some b → (bankOf s b).sealed = false →
    Completes (.planMapWrite mb 0) mb s stOk false []
      (modBank b (fun k =>
        { k with
          map := (List.range n).foldl (fun t i =>
            tabSet 0x3FF t (fld w0 16 15 * 2 ^ 15 + fld w0 31 17 + i)
              (ofLe (((leWords ws).drop (2 * i)).take 2) % 1024)) k.map }) s)) ∧
  (∀ mb w0 s, Ready 0x0303 mb [w0] s →
    let b := bit w0 0
    let k := bankOf s b
    (bit w0 1 = false → k.sealed = false → (sealError k).1 = 0 →
      Completes (.planSeal mb 0) mb s stOk false (sealResult 0 0 (localDigestOf k))
        (modBank b (fun k => { k with sealed := true }) s)) ∧
    (bit w0 1 = true → s.plan.inForce ≠ some b → (∀ a, pendingSwap s = some a → swapBank a ≠ b) →
      Completes (.planSeal mb 0) mb s stOk false (sealResult 0 0 (localDigestOf k))
        (modBank b (fun k => { k with sealed := false }) s))) ∧
  (∀ mb w0 w1 w2 s, Ready 0x0304 mb [w0, w1, w2] s → bit w0 1 = false →
    let b := bit w0 0
    let turn := turnOf w1 w2
    Placeable .planSwap 0 turn s → (bankOf s b).sealed = true → boltAt (bankOf s b) turn = true →
    (∀ k, planNow s = some k → boltAt k turn = true) → excludesAdmitted s (bankOf s b) turn = false →
    pendingSwap s = none → s.plan.inForce ≠ some b →
    Completes (.planSwap mb 0) mb s stOk false [] (schedAdd ⟨.planSwap, 0, turn, 0x0304, false, .plan b⟩ s)) ∧
  (∀ mb w0 w1 w2 a s, Ready 0x0304 mb [w0, w1, w2] s → bit w0 1 = true → pendingSwap s = some a →
    Completes (.planSwap mb 0) mb s stOk false [] (schedRemove a s)) ∧
  (∀ mb s, Ready 0x0305 mb [] s → Completes (.planStatusGet mb 0) mb s stOk true (leWords (planWords s)) s) ∧
  (∀ mb w0 s, Ready 0x0306 mb [w0] s → fld w0 6 0 < 92 →
    Completes (.planConformGet mb 0) mb s stOk true (leWords (conformWords s (asicEnd (addressUnit w0)))) s)

/-! ### Collectives (08_collectives.md) -/

/-- R349, R354 to R359: GROUP_SET puts a group that passes its checks into effect with its replication sets,
INSTANCE_ABANDON abandons an OPEN instance, and the other collective commands read; a tally page that fails to be read
twice gives FAULT. -/
def Obligations.CollectiveCommandsComplete : Prop :=
  (∀ mb args sets s, Ready 0x0400 mb args s → args.length = 24 + fld (args.getD 3 0) 13 7 →
    let n := fld (args.getD 0 0) 31 20
    let g := groupArg (cmdOf 0x0400 mb 0 s)
    let old := groupOf s n
    (∀ x ∈ groupChecks (cmdOf 0x0400 mb 0 s) s, x.2 = false) →
    (g.valid = false ∨ old.valid = false ∨ g.gepoch ≠ old.gepoch ∨ groupOpen s n = false) →
    (g.valid = true →
      freeSets (modTwine (fun t => { t with groups := tabSet {} t.groups n { old with sets := [] } }) s)
        (ceilDiv g.locals.length 16) = some sets) →
    (g.valid = false → sets = []) →
    Completes (.groupSet mb 0) mb s stOk false [] (groupApply n g sets s)) ∧
  (∀ mb w0 s, Ready 0x0401 mb [w0] s →
    Completes (.groupGet mb 0) mb s stOk true (groupBytes (fld w0 31 20) (groupOf s (fld w0 31 20))) s) ∧
  (∀ mb w0 w1 s, Ready 0x0402 mb [w0, w1] s →
    Completes (.instanceGet mb 0) mb s stOk true
      (leWords (instWords s (instOf s (fld w0 31 12 * 2 ^ 16 + fld w1 15 0)))) s) ∧
  (∀ mb w0 w1 s, Ready 0x0403 mb [w0, w1] s → (instOf s (fld w0 31 12 * 2 ^ 16 + fld w1 15 0)).st = .opened →
    Completes (.instanceAbandon mb 0) mb s stOk false []
      (abandon (fld w0 31 12 * 2 ^ 16 + fld w1 15 0) causeDriver none s)) ∧
  (∀ mb w0 w1 w2 w3 s, Ready 0x0404 mb [w0, w1, w2, w3] s →
    let key := fld w0 31 12 * 2 ^ 16 + fld w1 15 0
    let all := match chunkAt (instOf s key) (fld w2 31 8) with | some k => k.tally | none => []
    let got := (all.drop (fld w3 15 0)).take 960
    let scan := fun (reads : List Nat) => tallyScan (cmdOf 0x0404 mb 0 s) (modPool (fun p => { p with reads := reads }) s)
    (groupOf s (keyGroup key)).tally = true → (instOf s key).st ≠ .free →
    ∀ reads, ((scan reads).1 = true → Completes (.tallyRead mb ⟨0, reads⟩) mb s stOk true
        (leWords ((put 31 16 got.length + put 15 0 (sat 16 all.length)) :: got)) (scan reads).2) ∧
      ((scan reads).1 = false → Completes (.tallyRead mb ⟨0, reads⟩) mb s stFault true []
        (modMail (fun m => { m with faults := sat 32 (m.faults + 1) }) (scan reads).2))) ∧
  (∀ mb s, Ready 0x0405 mb [] s → Completes (.collStatusGet mb 0) mb s stOk true (leWords (collWords s)) s)

/-- R340, R342, R343, R344, R345, R352: the first TWINE frame or marker that waits at an HC-8 fabric interface
arrives; a group whose members stay silent for TIMEOUT turns completes without them or is abandoned, as ON_FAIL says;
so is a chunk that waits for another tray; TIMEOUT turns after its end a context is free. -/
def Obligations.CollectiveEventsComplete : Prop :=
  (∀ ifc reads f s, coreUp s = true → s.tray.restart ≠ .warming →
    (link s (ifcUnit ifc)).rxq.find? (fun f => f.cls == 1 && !isMarker f) = some f →
    Yields (.twineArrival ifc reads) s
      (withReads reads (fun r => twineArrive f (modLink (ifcUnit ifc) (fun l => { l with rxq := l.rxq.erase f }) r)) s)) ∧
  (∀ ifc f s, coreUp s = true → s.tray.restart ≠ .warming → (link s (ifcUnit ifc)).rxq.find? isMarker = some f →
    Yields (.abandonmentMarker ifc) s
      (markerArrive f (modLink (ifcUnit ifc) (fun l => { l with rxq := l.rxq.erase f }) s))) ∧
  (∀ key reads s, (instOf s key).st = .opened → (instOf s key).grp.timeout ≤ idleTurns s (instOf s key) →
    (missingMembers (instOf s key) ≠ [] ∨ waitsForNone (instOf s key) = true) →
    let missing := missingMembers (instOf s key)
    let t := fun s => forAll missing (fun m => raiseOnce (eventKey 0x0400 + keyGroup key * 4096 + m) 0x0400
      [(12, keyGroup key), (16, keyInstance key), (12, m)])
      (modInst key (fun c => { c with failed := c.failed ++ missing }) s)
    ((instOf s key).grp.onFail = false ∨ (instOf s key).op = 0 →
      Yields (.collTimeout ⟨key, reads⟩) s (withReads reads (fun r => abandon key causeTimeout none (t r)) s)) ∧
    ((instOf s key).grp.onFail = true → 0 < (instOf s key).op →
      Yields (.collTimeout ⟨key, reads⟩) s
        (withReads reads (fun r => forAll (((incomplete (instOf s key)).map (·.idx)).filter fun i =>
            decide (i < knownChunks (instOf s key)))
          (fun i s => completeReduce key i (ensureChunk key i s)) (t r)) s))) ∧
  (∀ key idx reads k s, (instOf s key).st = .opened → (incomplete (instOf s key)).find? (fun k => k.idx == idx) = some k →
    waitsUpstream (instOf s key) k = true →
    (instOf s key).grp.timeout * (traysBefore (instOf s key) (idx % 2) + 1) ≤ idleTurns s (instOf s key) →
    Yields (.upstreamWaitEnd key ⟨idx, reads⟩) s
      (withReads reads (fun r => if (instOf s key).grp.onFail && 0 < (instOf s key).op then
        completeReduce key idx (modChunk key idx (fun k => { k with upFailed := true }) (ensureChunk key idx r))
      else abandon key causeTimeout none r) s)) ∧
  (∀ key s, ((instOf s key).st = .closed ∨ (instOf s key).st = .abandoned) →
    (instOf s key).stateAt + (instOf s key).grp.timeout ≤ s.reel.bounds →
    Yields (.contextFree key) s (modTwine (fun t => { t with insts := tabSet {} t.insts key {} }) s))

/-! ### Session stalls and the pool (09_session_stalls.md) -/

/-- R398: STALL_RECALL of positions of a PARKED or DAMAGED stall that touch no lost page loads a replication set on
each of up to 2^SPREAD ASICs that list every target, and the stall is RECALLING (LINGER 16 where 0 is given). -/
def Obligations.StallRecallCompletes : Prop :=
  ∀ mb args sets s, Ready 0x0502 mb args s → args.length = 5 + fld (args.getD 3 0) 3 0 →
    let n := fld (args.getD 0 0) 31 16
    let tag := fld (args.getD 0 0) 15 0
    let first := fld (args.getD 1 0) 31 12
    let num := fld (args.getD 2 0) 31 12
    let w := args.getD 3 0
    let chan := fld w 28 26
    let targets := recallTargets (cmdOf 0x0502 mb 0 s)
    let asics := (recallAsics s targets).take (2 ^ fld w 30 29)
    tag ≠ 0 → first + num ≤ (stallOf s n).positions → 1 ≤ num → num ≤ 524288 → fld w 30 29 ≠ 3 → fld w 25 13 ≤ 4096 →
    (∀ t ∈ targets, t ≤ 0x8FF) → targets.Nodup → touchesLost (stallOf s n) first num = false → asics ≠ [] →
    ((stallOf s n).st = .parked ∨ (stallOf s n).st = .damaged) → s.pool.recalls.length < 256 →
    freeSets s asics.length = some sets →
    let t := forAll (List.range sets.length) (fun j => loadSet (sets.getD j 0) ((chan + j) % 8) targets) s
    let r : Recall :=
      { stall := n, tag := tag, first := first, count := num, targets := targets, chan := chan
        linger := if fld w 25 13 = 0 then 16 else fld w 25 13, release := bit w 31, pmax := pmaxOf t targets
        asics := asics, sets := sets }
    Completes (.stallRecall mb 0) mb s stOk false []
      (modPool (fun p => { p with recalls := p.recalls ++ [r] }) (modStall n (fun x => { x with st := .recalling }) t))

/-- R399, R400, R405: STALL_GET, STALL_MAP_READ and POOL_STATUS_GET report and change nothing. R396 to R402, R404:
STALL_OPEN opens an EMPTY stall, STALL_BUDGET_SET sets its budget (and goes on packing where the budget had halted
it), STALL_TRIM cuts a PARKED or DAMAGED stall to its first positions, STALL_FREE empties a stall that is not
RECALLING, POOL_REGIONS_SET lays out an unused pool, in which the retired pages get their replacements anew. -/
def Obligations.StallCommandsComplete : Prop :=
  (∀ mb w0 s, Ready 0x0505 mb [w0] s →
    Completes (.stallGet mb 0) mb s stOk true (leWords (stallWords s (fld w0 31 16))) s) ∧
  (∀ mb w0 w1 s, Ready 0x0506 mb [w0, w1] s →
    let pages := (stallOf s (fld w0 31 16)).pages
    let got := (pages.drop w1).take 500
    Completes (.stallMapRead mb 0) mb s stOk true
      (leWords ((put 31 23 got.length + put 22 0 pages.length) :: got.flatMap fun g =>
        [put 31 31 g.lost.toNat + put 22 0 g.page, put 31 12 g.first + put 11 6 g.positions])) s) ∧
  (∀ mb s, Ready 0x0508 mb [] s → Completes (.poolStatusGet mb 0) mb s stOk true (leWords (poolWords s)) s) ∧
  (∀ mb w0 w1 w2 s, Ready 0x0500 mb [w0, w1, w2] s → fld w0 11 8 < 2 → fld w0 7 4 < 3 →
    (fld w0 11 8 = 1 → fld w0 7 4 ≠ 2) → fld w1 4 0 ≠ 0 → w2 ≠ 0 → w2 ≤ stallRegion s →
    (stallOf s (fld w0 31 16)).st = .empty →
    Completes (.stallOpen mb 0) mb s stOk false []
      (modStall (fld w0 31 16) (fun x =>
        { st := .filling, gen := (x.gen + 1) % 65536, comp := fld w0 11 8, elem := fld w0 7 4, stride := fld w1 4 0
          budget := w2, timeout := if fld w1 31 16 = 0 then 1024 else fld w1 31 16, idleAt := s.reel.bounds }) s)) ∧
  (∀ mb w0 w1 s, Ready 0x0501 mb [w0, w1] s → w1 ≠ 0 → w1 ≤ stallRegion s →
    (stallOf s (fld w0 31 16)).pages.length ≤ w1 → (stallOf s (fld w0 31 16)).st ≠ .empty →
    let t := modStall (fld w0 31 16) (fun x => { x with budget := w1 }) s
    Completes (.stallBudgetSet mb 0) mb s stOk false []
      (if (stallOf s (fld w0 31 16)).halt then
        packStall (fld w0 31 16) (modStall (fld w0 31 16) (fun x => { x with halt := false }) t) else t)) ∧
  (∀ mb w0 w1 s, Ready 0x0503 mb [w0, w1] s → fld w1 31 12 ≤ (stallOf s (fld w0 31 16)).positions →
    ((stallOf s (fld w0 31 16)).st = .parked ∨ (stallOf s (fld w0 31 16)).st = .damaged) →
    let p := fld w1 31 12
    let x := stallOf s (fld w0 31 16)
    let cut := x.pages.filter fun g => decide (g.first < p) && decide (p < g.first + g.positions) && !g.lost
    let t := forAll cut (fun g => poolIo true g.page 64 4) (modStall (fld w0 31 16) (trimStall p) s)
    let gone := (x.pages.map (·.page)).filter fun g => !((stallOf t (fld w0 31 16)).pages.map (·.page)).contains g
    Completes (.stallTrim mb 0) mb s stOk false []
      (resumePacking (modPool (fun q => { q with copying := q.copying.filter fun k => !gone.contains k.1 }) t))) ∧
  (∀ mb w0 s, Ready 0x0504 mb [w0] s → (stallOf s (fld w0 31 16)).st ≠ .recalling →
    Completes (.stallFree mb 0) mb s stOk false [] (emptyStall (fld w0 31 16) s)) ∧
  (∀ mb w0 w1 s, Ready 0x0507 mb [w0, w1] s → fld w0 7 0 ≤ 192 → fld w1 6 0 ≠ 0 → fld w1 6 0 ≤ 64 →
    let t := modPool (fun p => { p with spillGib := fld w0 7 0, scratchGib := fld w1 6 0 }) s
    1048576 ≤ stallRegion t → ((List.range 4).map fun a => (spillOf s a).reserve).sum ≤ spillPages t →
    s.tray.st = .standby → (∀ e ∈ s.pool.stalls, e.2.st = .empty) → usedSpill s = [] → s.twine.insts = [] →
    Completes (.poolRegionsSet mb 0) mb s stOk false [] (poolLowCheck (replaceAll t)))

/-- R368, R376, R377, R384, R389, R391: the first STALL frame that waits at an interface is taken; a staged block that
is complete is compressed where its plane packer is not deferred and its staging page can be read; TIMEOUT turns
without a push end the filling; a recall reads its next page, and ends LINGER turns after it was handed on. -/
def Obligations.StallEventsComplete : Prop :=
  (∀ ifc f s, coreUp s = true → s.tray.restart ≠ .warming →
    (link s (ifcUnit ifc)).rxq.find? (fun f => f.cls == 4) = some f →
    Yields (.stallPush ifc) s (stallPushArrive f (modLink (ifcUnit ifc) (fun l => { l with rxq := l.rxq.erase f }) s))) ∧
  (∀ n b reads s,
    let x := stallOf s n
    let g := tabGet {} x.staged b
    x.st = .filling → g.packed = none → g.units.length = 64 → s.power.packers.contains ((n + b) % 16) = false →
    let bytes := (List.range 64).flatMap fun i => tabGet [] g.units i
    let page := ((x.stage.find? fun e => e.1 == b / 32).map (·.2)).getD stagingBase
    let got := poolRead page 2048 4 (modPool (fun p => { p with reads := reads }) s)
    (got.1 = true → Yields (.blockCompressed n ⟨b, reads⟩) s
      (packStall n (modStall n (fun x =>
        { x with staged := tabSet {} x.staged b { units := [], packed := some (compressBlock x.comp x.elem bytes) } })
        got.2))) ∧
    (got.1 = false → Yields (.blockCompressed n ⟨b, reads⟩) s (pushEnds n (retirePage page false got.2)))) ∧
  (∀ n s, (stallOf s n).st = .filling → (stallOf s n).idleAt + (stallOf s n).timeout ≤ s.reel.bounds →
    Yields (.stallPushTimeout n) s (pushEnds n s)) ∧
  (∀ n reads r s, recallOf s n = some r → r.granted = true → r.handedAt = none →
    Yields (.recallProgress n reads) s (withReads reads (recallStep n r) s)) ∧
  (∀ n r t s, recallOf s n = some r → r.handedAt = some t → t + r.linger ≤ s.reel.bounds →
    Yields (.stallRecallDone n) s (recallEnds r s))

/-- R385, R386, R461: a granted patrol reads a page in use, with power, that its pass has not read yet; a page copy
that its stall, the power ledger and the half of its new page let go on ends; once in 2^20 turns the pool migrates
pages between the stacks of each half. -/
def Obligations.PoolEventsComplete : Prop :=
  (∀ page result s, s.power.patrolGranted = true → patrolDue (patrolPass s) page = true →
    Yields (.patrolRead page result) s (patrolPage page result (patrolPass s))) ∧
  (∀ page old new retire n g reads s, s.pool.copying.find? (fun c => c.1 == page) = some (old, new, retire) →
    pageOwner s page = some n → (stallOf s n).st ≠ .recalling → (retire = false → (stallOf s n).st = .parked) →
    halfUp s (pageHalf new) = true → (if retire then s.power.copyGranted else s.power.migrateGranted) = true →
    ((stallOf s n).pages.find? fun g => g.page == page && !g.lost) = some g →
    Yields (.pageCopyDone ⟨page, reads⟩) s (withReads reads (copyDone n g new retire) s)) ∧
  (∀ s, s.reel.tick = 0 → 0 < s.reel.bounds → s.reel.bounds % 2 ^ 20 = 0 → coreUp s = true →
    firstThisTurn (eventKey 0x0D00) s = true →
    Yields .poolMigration s
      (modPool (fun p => { p with stackRead := [] })
        (poolLowCheck (migrateHalf 1 (migrateHalf 0 (useTurn (eventKey 0x0D00) s))))))

/-! ### The annealing engine (10_annealing_engine.md) -/

/-- R437, R438, R439: ANNEAL_STATUS_GET, and of a DONE slot ANNEAL_RESULT_GET and ANNEAL_STATE_READ, report. R433,
R434, R435, R436: with domain 1 on ANNEAL_LOAD writes image bytes into a slot (a piece at offset 0 begins a new image
unless one is loading), ANNEAL_SEAL makes an image without an error READY with its count of conflicts, ANNEAL_RUN
queues a READY or DONE slot where nothing defers the unit and the ledger has its charge, ANNEAL_STOP ends a queued run
at once and asks a running one to stop, ANNEAL_CLEAR empties a slot that is neither queued nor running. -/
def Obligations.AnnealingCommandsComplete : Prop :=
  (∀ mb s, Ready 0x0605 mb [] s → annealOn s = true →
    Completes (.annealStatusGet mb 0) mb s stOk true (leWords (annealWords s)) s) ∧
  (∀ mb w0 s, Ready 0x0606 mb [w0] s → annealOn s = true → (slotOf s (fld w0 31 30)).st = .done →
    Completes (.annealResultGet mb 0) mb s stOk true
      (leWords (resultWords (slotOf s (fld w0 31 30)) (slotProblem s (fld w0 31 30)).n)) s) ∧
  (∀ mb w0 w1 s, Ready 0x0607 mb [w0, w1] s → annealOn s = true → (slotOf s (fld w0 31 30)).st = .done →
    let got := ((slotOf s (fld w0 31 30)).result.pos.drop (fld w1 13 0)).take 1536
    Completes (.annealStateRead mb 0) mb s stOk true
      (leBytes 4 (put 31 16 got.length) ++ (got.flatMap fun v => leBytes 2 (enc 16 v))) s) ∧
  (∀ mb w0 w1 data s, Ready 0x0600 mb ([w0, w1] ++ data) s → annealOn s = true → fld w0 21 0 % 4 = 0 →
    fld w1 11 0 = 4 * data.length → 1 ≤ data.length → data.length ≤ 768 →
    let x := slotOf s (fld w0 31 30)
    x.st ≠ .queued → x.st ≠ .running →
    ((fld w0 21 0 = 0 ∧ 16 ≤ data.length ∧ 4 * data.length ≤ imSize (wordLe (leWords data))) ∨
      (fld w0 21 0 ≠ 0 ∧ x.st = .loading ∧ fld w0 21 0 + 4 * data.length ≤ imSize (imWord x.image))) →
    Completes (.annealLoad mb 0) mb s stOk false []
      (modSlot (fld w0 31 30) (fun x =>
        let x : Slot := if fld w0 21 0 = 0 ∧ x.st ≠ .loading then { st := .loading } else x
        { x with
          image := tabWrite x.image (fld w0 21 0) (leWords data)
          covered := cover (fld w0 21 0) (fld w0 21 0 + 4 * data.length) x.covered }) s)) ∧
  (∀ mb w0 s, Ready 0x0601 mb [w0] s → annealOn s = true →
    let x := slotOf s (fld w0 31 30)
    x.st = .loading → (annealError x).1 = 0 →
    let k := conflictCount (slotProblem s (fld w0 31 30))
    Completes (.annealSeal mb 0) mb s stOk false (annealSealResult 0 0 k (imSize (imWord x.image)))
      (modSlot (fld w0 31 30) (fun x => { x with st := .ready, conflicts := k }) s)) ∧
  (∀ mb w0 w1 s, Ready 0x0602 mb [w0, w1] s → annealOn s = true →
    ((slotOf s (fld w0 31 30)).st = .ready ∨ (slotOf s (fld w0 31 30)).st = .done) →
    kindBlocked s 5 = false → (annealCharge : Int) ≤ s.power.avail →
    Completes (.annealRun mb 0) mb s stOk false []
      (modAnneal (fun a => { a with order := a.order ++ [fld w0 31 30] })
        (modSlot (fld w0 31 30) (fun x =>
          { x with
            st := .queued, seed := if bit w0 29 then w1 else (slotProblem s (fld w0 31 30)).seed, result := {} }) s))) ∧
  (∀ mb w0 s, Ready 0x0603 mb [w0] s → annealOn s = true →
    let n := fld w0 31 30
    ((slotOf s n).st = .queued → Completes (.annealStop mb 0) mb s stOk false []
      (slotDone n { outcome := 1, pos := (runInit (slotProblem s n) (slotOf s n).seed).x } none s)) ∧
    ((slotOf s n).st = .running → s.anneal.stopAt = none → Completes (.annealStop mb 0) mb s stOk false []
      (modAnneal (fun a => { a with stopAt := some (engineNs s) }) s))) ∧
  (∀ mb w0 s, Ready 0x0604 mb [w0] s → annealOn s = true →
    ((slotOf s (fld w0 31 30)).st = .loading ∨ (slotOf s (fld w0 31 30)).st = .ready ∨
      (slotOf s (fld w0 31 30)).st = .done) →
    Completes (.annealClear mb 0) mb s stOk false [] (modSlot (fld w0 31 30) (fun _ => {}) s))

/-- R419, R425, R426, R428, R431: the first queued slot starts to run where no slot runs; a run is done once the
engine has had its time, or the time of what comes before its lasting parity error; a run that is asked to stop ends
at the step that the request meets. -/
def Obligations.AnnealEventsComplete : Prop :=
  (∀ n rest parity k pass s, s.anneal.running = none → s.anneal.order = n :: rest → domainOn s 1 = true →
    (slotOf s n).st = .queued →
    let t := modAnneal (fun a =>
      { a with
        order := rest, running := some n, paused := false, ran := 0, since := s.reel.clock, stopAt := none
        faultAt := if 2 ≤ parity then some (k, pass) else none })
      (modSlot n (fun x => { x with st := .running }) s)
    Yields (.annealRunStart parity k pass) s
      (onlyIf (parity == 1) (modAnneal fun a => { a with transient := sat 16 (a.transient + 1) }) t)) ∧
  (∀ n s, s.anneal.running = some n → s.anneal.stopAt = none → s.anneal.paused = false →
    (s.anneal.faultAt = none →
      let r := runProblem (slotProblem s n) (slotOf s n).seed fun _ => false
      r.ns ≤ engineNs s → Yields .annealDone s (finishRun n 0 r none s)) ∧
    (∀ f, s.anneal.faultAt = some f →
      let r := runTo s n fun _ => false
      r.halted = true → r.ns ≤ engineNs s + finalNs (slotProblem s n) → Yields .annealDone s (faultRun n f r s))) ∧
  (∀ n t s, s.anneal.running = some n → s.anneal.stopAt = some t →
    let r := runTo s n fun r => decide (t ≤ r.ns)
    (s.anneal.paused = true ∨ r.ns ≤ engineNs s + finalNs (slotProblem s n)) →
    Yields .annealStopEffect s (endRun n r (decide (t + finalNs (slotProblem s n) ≤ r.ns)) s))

/-! ### Loss notices and power (05_forwarding_core.md, 11_power_ledger.md) -/

/-- R470, R471, R475, R476: POWER_CONFIG_SET with READ_ONLY, POWER_STATUS_GET, SENSOR_READ and POWER_CAL_GET report
and change nothing. R443, R465, R470, R472 to R474, R476: POWER_CONFIG_SET in range stores its settings, cap, bank and
debt for the next tick 0, clamps the balance to their bounds at once, and reports what is in effect; POWER_DOMAIN_SET
switches a domain off, or leaves one on that is on; POWER_FREQ_SET places a frequency step; POWER_IDLE_SET sets idle
modes; POWER_CAL_SET stores an overlay for the next tick 0. -/
def Obligations.PowerCommandsComplete : Prop :=
  (∀ mb w0 w1 w2 w3 s, Ready 0x0700 mb [w0, w1, w2, w3] s → bit w0 31 = true →
    Completes (.powerConfigSet mb 0) mb s stOk true (leWords (powerCfgWords s.power.cfg)) s) ∧
  (∀ mb s, Ready 0x0701 mb [] s → Completes (.powerStatusGet mb 0) mb s stOk true (leWords (powerWords s)) s) ∧
  (∀ mb s, Ready 0x0705 mb [] s → Completes (.sensorRead mb 0) mb s stOk true (leWords (sensorWords s)) s) ∧
  (∀ mb w0 s, Ready 0x0707 mb [w0] s → fld w0 7 0 < 0x2C →
    let i := fld w0 7 0
    Completes (.powerCalGet mb 0) mb s stOk true
      (leWords [put 31 16 (enc 16 (calBase i)) + put 15 0 (enc 16 (calStored s i)), put 31 16 (enc 16 (calEffective s i))])
      s) ∧
  (∀ mb w0 w1 w2 w3 s, Ready 0x0700 mb [w0, w1, w2, w3] s → bit w0 31 = false →
    let n : PowerCfg :=
      { cap := fld w0 12 0, bank := fld w1 28 16, debt := fld w1 10 0
        recover := fld w2 15 0, imbalance := fld w3 23 16, migrate := fld w3 15 0 }
    let t := modPower (fun p => { p with
      balance := clampBalance (modPower (fun p => { p with cfg := n }) s) p.balance
      cfg := { p.cfg with recover := n.recover, imbalance := n.imbalance, migrate := n.migrate }, cfgNext := some n }) s
    1000 ≤ n.cap → (n.cap : Int) ≤ calEffective s 0x2B → n.bank ≤ 4096 → n.debt ≤ 1024 → 16 ≤ n.recover →
    10 ≤ n.imbalance → n.imbalance ≤ 100 →
    Completes (.powerConfigSet mb 0) mb s stOk false
      (leWords (powerCfgWords { n with cap := s.power.cfg.cap, bank := s.power.cfg.bank, debt := s.power.cfg.debt })) t) ∧
  (∀ mb w0 s, Ready 0x0702 mb [w0] s → fld w0 3 0 < 10 → (s.mail.long.any fun l => l.opcode == 0x0702) = false →
    let d := fld w0 3 0
    (bit w0 8 = false → offForbidden s d = false →
      Completes (.powerDomainSet mb 0) mb s stOk false [] (domainOff d causeCommand s)) ∧
    (bit w0 8 = true → s.power.on.contains d = true → Completes (.powerDomainSet mb 0) mb s stOk false [] s)) ∧
  (∀ mb w0 w1 w2 s, Ready 0x0703 mb [w0, w1, w2] s → fld w0 1 0 ≠ 3 → Placeable .freqStep 0 (turnOf w1 w2) s →
    Completes (.powerFreqSet mb 0) mb s stOk false []
      (schedAdd ⟨.freqStep, 0, turnOf w1 w2, 0x0703, false, .freq (fld w0 1 0) 0⟩ s)) ∧
  (∀ mb w0 w1 s, Ready 0x0704 mb [w0, w1] s → fld w1 1 0 ≠ 3 → (bit w1 16 = false → AddressOk w0) →
    let ports :=
      if bit w1 16 = false then [addressUnit w0]
      else if bit w0 11 then (List.range 8).map fun i => hc8End (unitOf (fld w0 8 7) (72 + i))
      else asicPorts (fld w0 8 7)
    Completes (.powerIdleSet mb 0) mb s stOk false []
      (forAll ports (fun u => modPunit u fun p => { p with idleMode := fld w1 1 0 }) s)) ∧
  (∀ mb w0 w1 s, Ready 0x0706 mb [w0, w1] s → fld w0 7 0 < 0x2C → longOp s 0x0708 = none →
    (calRange (fld w0 7 0)).1 ≤ sgn 16 (fld w1 15 0) → sgn 16 (fld w1 15 0) ≤ (calRange (fld w0 7 0)).2 →
    Completes (.powerCalSet mb 0) mb s stOk false [] (calStore (fld w0 7 0) (sgn 16 (fld w1 15 0)) s))

/-- R443, R466, R467, R472, R478, R601: POWER_DOMAIN_SET within the budget switches a domain on, with twice its ready
time as the limit; POWER_CAL_RUN starts a thermal trim in STANDBY with a stable inlet, or a retrain of an idle pool,
with 3 s as the limit. -/
def Obligations.PowerLongCommandsStart : Prop :=
  (∀ mb w0 s, Ready 0x0702 mb [w0] s → fld w0 3 0 < 10 → bit w0 8 = true →
    let d := fld w0 3 0
    s.power.on.contains d = false → s.power.ramping = none → (s.mail.long.any fun l => l.opcode == 0x0702) = false →
    overBudget s d = false →
    Starts (.powerDomainSet mb 0) 0x0702 mb 0 (2 * readyTicks d) false s (domainStart d causeCommand s)) ∧
  (∀ mb w0 s, Ready 0x0708 mb [w0] s → longOp s 0x0708 = none →
    (fld w0 1 0 = 0 → s.tray.st = .standby → inletStable s = true →
      Starts (.powerCalRun mb 0) 0x0708 mb 0 1500000000 false s s) ∧
    (fld w0 1 0 = 1 → poolIdle s = true →
      Starts (.powerCalRun mb 0) 0x0708 mb 1 1500000000 false s (modPool (fun p => { p with retrain := true }) s)))

/-- R75, R92, R448, R451, R452, R454, R455: a frequency step is applied at its turn and egress resumes; LEDGER_TURN at
tick 0, once and after the turn's actions, updates the balance and grants work; the voltage loop of an ASIC that is on
reads its monitors every 1,024 turns and moves toward its target. R451, R457, R458, R462: a temperature reading acts
by its thresholds and other readings are kept; COOLANT_FAULT after 2 s below the minimum flow sets 1.6 GHz and defers
work, and ends after 8 s at or above it; 16 turns without a busbar reading are a SENSOR_FAULT; the thermal level
recovers after RECOVER_TURNS cool turns. -/
def Obligations.PowerEventsComplete : Prop :=
  (∀ a s, dueAction .freqStep none s = some a → Yields .freqStep s (applyFreqStep a (schedRemove a s))) ∧
  (∀ s, Yields .freqStepEgressResume s (modReel (fun r => { r with freqPause := false }) s)) ∧
  (∀ raw s, coreUp s = true → s.reel.tick = 0 → firstThisTurn (eventKey 0x0D01) s = true →
    (∀ a ∈ s.sched, schedDue s a = false) →
    Yields (.ledgerTurn raw) s (ledgerTurnStep raw (useTurn (eventKey 0x0D01) s))) ∧
  (∀ a needed s, a < 4 → domainOn s (4 + a) = true → avsQuiet s = false → fwUp s = true →
    (tabGet 0 s.power.avsAt a = 0 ∨ tabGet 0 s.power.avsAt a + 1023 ≤ s.reel.bounds →
      Yields (.avsUpdate a needed) s (avsMove a (avsRead a needed s))) ∧
    (tabGet 0 s.power.avsAt a ≠ 0 → s.reel.bounds < tabGet 0 s.power.avsAt a + 1023 →
      Yields (.avsUpdate a needed) s (avsMove a s))) ∧
  (∀ sensor raw s, coreUp s = true → sensor < 32 →
    Yields (.thermalThreshold sensor raw) s
      (if sensor < 26 then thermalAct sensor raw s else sensorSet sensor raw s)) ∧
  (∀ (flow turns : Nat) s, coreUp s = true → s.power.coolantFault = false → sensorCal s 30 flow < 800 → 244141 ≤ turns →
    let t := sensorSet 30 flow s
    Yields (.coolantFault flow turns) s
      (withLevels 3 (fun p => { p with thermalLevel := 2, coolRun := 0 })
        (stick 25 (raise 0x0705 [(16, enc 16 (sensorCal s 30 flow))]
          (modPower (fun p => { p with coolantFault := true }) t))))) ∧
  (∀ (flow turns : Nat) s, s.power.coolantFault = true → 800 ≤ sensorCal s 30 flow → 976563 ≤ turns →
    Yields (.coolantRecovery flow turns) s
      (sensorSet 30 flow (modPower (fun p => { p with coolantFault := false, coolRun := 0 }) s))) ∧
  (∀ s, 16 ≤ s.power.badRun → s.power.sensorFault = false →
    Yields .sensorFault s (raise 0x0708 [] (modPower (fun p => { p with sensorFault := true }) s))) ∧
  (∀ s, s.power.cfg.recover ≤ s.power.coolRun → s.power.setLevel < s.power.thermalLevel → s.power.coolantFault = false →
    Yields .thermalRecovery s
      (withLevels 2 (fun p => { p with thermalLevel := p.thermalLevel - 1, coolRun := 0 }) s))

/-- R371, R441, R464, R468, R601: a ramp that ends completes its POWER_DOMAIN_SET, or lets the boot go on, and lets
packing that halted go on where it was a pool half's; a domain that fails is switched off (its DOMAIN_STATE cause is a
free value, log entry 130); a calibration that ends well, a trim after 1 s with a steady inlet, completes its
POWER_CAL_RUN. -/
def Obligations.PowerEndingsComplete : Prop :=
  (∀ d s, d ≠ 8 → s.power.ramping = some d →
    let t := modPower (fun p => { p with ramping := none }) s
    let half := d == 2 || d == 3
    (∀ l, longOp s 0x0702 = some l → s.tray.booting = false →
      Yields (.domainRampDone d) s (onlyIf half resumePacking (endLong l stOk [] t))) ∧
    (longOp s 0x0702 = none → s.tray.booting = true →
      Yields (.domainRampDone d) s (bootNextDomain (onlyIf half resumePacking t)))) ∧
  (∀ d s, s.power.on.contains d = true →
    Yields (.domainFail d) s
      (if d = 0 then coreGone (drawFree s).1 (drawFree s).2
       else safeCheck (domainOff d (drawFree s).1 (drawFree s).2))) ∧
  (∀ held readings l s, longOp s 0x0708 = some l → l.attempts = 1 ∨ l.attempts = 2 →
    (l.subject = 0 → l.limit ≤ s.reel.clock + 1000000000 ∧ held = true) →
    let gone := modMail (fun m => { m with long := (m.long.erase l) ++ [l] }) s
    Yields (.calDone true held readings) s
      (endLong l stOk [] (raiseCalDone l stOk (if l.subject = 0 then trimSensors readings gone else gone))))

/-! ### The tray's place, Crier and the ledger (01_tray_and_domain.md, 12_crier_and_agreement.md) -/

/-- R53 to R58: DOMAIN_ROLE_SET in range, within R35 and outside ADMITTED declares the role, reports the cartridges
whose state that changes and judges the held first frames again; DOMAIN_ROLE_GET and TRAY_INVENTORY_GET report. -/
def Obligations.DomainCommandsComplete : Prop :=
  (∀ mb w0 w1 s, Ready 0x0800 mb [w0, w1] s →
    let r : Role :=
      { role := fld w0 1 0, gcount := fld w0 3 2, group := fld w0 5 4, position := fld w0 13 8,
        endpoints := fld w1 11 0, pods := fld w1 19 12, traysM1 := fld w1 27 20 }
    r.role ≠ 3 → r.gcount ≠ 3 → r.group < 2 ^ r.gcount → positionBad r = false → podsBad r = false → r.endpoints ≠ 0 →
    roleExceeds r = false → s.tray.st ≠ .admitted →
    Completes (.domainRoleSet mb 0) mb s stOk false []
      (forAll (List.range 4) rejudgeWiring (withCarts (modTray fun t => { t with role := some r }) s))) ∧
  (∀ mb s, Ready 0x0801 mb [] s → Completes (.domainRoleGet mb 0) mb s stOk true (leWords (roleWords s)) s) ∧
  (∀ mb s, Ready 0x0802 mb [] s → Completes (.trayInventoryGet mb 0) mb s stOk true (leWords (inventoryWords s)) s)

/-- R510, R514 to R516: CRIER_CONFIG_SET sets enable and blanking while no trim runs, or with READ_ONLY reports them;
CRIER_STATUS_GET reports; CRIER_TRIM starts where no foreign carrier was heard for 244,141 turns. R517 to R519:
LEDGER_PEERS_SET stores the trays of its eight words, the tray itself apart, as the peer set from the next comparison
on, or with READ_ONLY reports the stored set; LEDGER_GET and LEDGER_STATUS_GET report. -/
def Obligations.CrierAndLedgerCommandsComplete : Prop :=
  (∀ mb w0 w1 s, Ready 0x0820 mb [w0, w1] s →
    (bit w0 31 = true → Completes (.crierConfigSet mb 0) mb s stOk true (leWords (crierWords s)) s) ∧
    (bit w0 31 = false → longOp s 0x0822 = none →
      Completes (.crierConfigSet mb 0) mb s stOk false
        (leWords [put 8 8 (bit w0 8).toNat + put 7 0 (fld w0 7 0), put 7 0 (fld w1 7 0)])
        (modCrier (fun c => { c with enable := bit w0 8, blankLevel := fld w0 7 0, blankHold := fld w1 7 0 }) s))) ∧
  (∀ mb s, Ready 0x0821 mb [] s → Completes (.crierStatusGet mb 0) mb s stOk true (leWords (crierStatusWords s)) s) ∧
  (∀ mb s, Ready 0x0822 mb [] s → (∀ t, s.crier.foreignAt = some t → t + 244141 ≤ s.reel.bounds) →
    longOp s 0x0822 = none → Starts (.crierTrim mb 0) 0x0822 mb 0 1500000000 false s s) ∧
  (∀ mb args s, Ready 0x0823 mb args s → args.length = 9 →
    (bit (args.getD 0 0) 31 = true → Completes (.ledgerPeersSet mb 0) mb s stOk true (leWords (peerWords s)) s) ∧
    (bit (args.getD 0 0) 31 = false →
      let t := modLedger (fun l => { l with
        peersNext := some (numbers 256 fun n => bit (args.getD (1 + n / 32) 0) (n % 32) && n != s.tray.number) }) s
      Completes (.ledgerPeersSet mb 0) mb s stOk false (leWords (peerWords t)) t)) ∧
  (∀ mb w0 s, Ready 0x0824 mb [w0] s →
    Completes (.ledgerGet mb 0) mb s stOk true (leWords (ledgerWords s (fld w0 7 0))) s) ∧
  (∀ mb s, Ready 0x0825 mb [] s → Completes (.ledgerStatusGet mb 0) mb s stOk true (leWords (ledgerStatusWords s)) s)

/-- R491, R495, R506, R507, R517: at tick 0 of a check-period turn a stored peer set comes into effect, and the record
is sampled, sent to every peer and compared; the first LEDGER frame that waits at an interface is received; a peer
whose record is no longer current is reported once. R75, R198, R287, R303, R503, R568: a table switch, a plan swap and
an exit from UNSCHEDULED that are due are applied in the order of R75; a resume of an UNSCHEDULED tray goes to the
return state where no cause stands against it. -/
def Obligations.LedgerAndAgreementEventsComplete : Prop :=
  (∀ s, ledgerSends s = true → s.reel.tick = 0 → s.reel.turn % checkPeriod s = 0 →
    firstThisTurn (eventKey 0x0D02) s = true → boundaryDone s = true →
    let r := sampleRecord s.reel.turn s
    Yields .ledgerExchange s
      (ledgerCompare .period (forAll (peersStored s.ledger) (ledgerSend r)
        (modLedger (fun l => { l with own := some r, peers := peersStored s.ledger, peersNext := none })
          (useTurn (eventKey 0x0D02) s))))) ∧
  (∀ ifc f s, coreUp s = true → s.tray.restart ≠ .warming →
    (link s (ifcUnit ifc)).rxq.find? (fun f => f.cls == 0 && ctypeOf f == 5) = some f →
    Yields (.ledgerRecordReceive ifc) s
      (ledgerReceive false (trayOfEid f.src) none f.payload
        (modLink (ifcUnit ifc) (fun l => { l with rxq := l.rxq.erase f }) s))) ∧
  (∀ tray r s, recordOf s tray = some r → coreUp s = true → s.ledger.peers.contains tray = true →
    recCurrent s r = false → s.ledger.silent.contains tray = false →
    Yields (.ledgerPeerSilent tray) s
      (raise 0x0825 [(8, tray)] (modLedger (fun l => { l with silent := l.silent ++ [tray] }) s))) ∧
  (∀ a s, dueAction .tableSwitch none s = some a → Yields .tableBankSwitch s (applyTableSwitch a s)) ∧
  (∀ a s, dueAction .planSwap none s = some a → Yields .planBankSwap s (applyPlanSwap a s)) ∧
  (∀ a s, dueAction .resume none s = some a → s.tray.st = .unscheduled →
    (s.reel.st = .locked ∨ s.reel.st = .bench) →
    (s.tray.returnSt = .admitted → s.plan.inForce ≠ none ∧ ledgerAgrees s = true) →
    Yields .unscheduledExit s (trayTo s.tray.returnSt (schedRemove a s)))

/-- R482, R485 to R487, R489, R492: in slotted mode, at the first tick of an own slot before which no tone energy
exceeded CARRIER_LEVEL, the tray sends its record in the slots 0 to 7 and the oldest queued frame that fits in the
others; in backoff mode, once its wait has passed without carrier, the record where it is due and otherwise the oldest
queued frame; where carrier is heard the wait begins anew; a frame whose last symbol has left ends. R482, R508 to
R511: a frame whose tones hold a delimiter within the first 32 symbols, heard whole and with no symbol erased, with a
good CRC and a TYPE and length in range, from another tray and to this one or to all, is passed on by TYPE; R510: a
trim that ends well after 1.4 s without carrier writes its two overlays (CARRIER_LEVEL's value is free, log entry 139)
and completes its CRIER_TRIM. -/
def Obligations.CrierFramesComplete : Prop :=
  (∀ energy s, carrierOn s energy = false → crierSends s = true → s.crier.slotted = true → reelTimed s = true → s.reel.tick = 0 → s.reel.turn % 8192 = 0 →
    slotOwner s.reel.turn = busIndex s → s.crier.slotSent ≠ some s.reel.turn →
    let t := modCrier (fun c => { c with slotSent := some s.reel.turn }) s
    (slotOfTurn s.reel.turn < 8 → Yields (.crierSlotStart energy) s (crierLedger s.reel.turn t)) ∧
    (∀ f rest, 8 ≤ slotOfTurn s.reel.turn → s.crier.queue = f :: rest →
      crierTicks f ≤ (131072 - s.reel.turn % 131072) * 4096 →
      Yields (.crierSlotStart energy) s (crierStart f (modCrier (fun c => { c with queue := rest }) t)))) ∧
  (∀ energy t s, carrierOn s energy = false → crierSends s = true → s.crier.slotted = false → reelTimed s = false →
    s.crier.waitEnd = some t → t ≤ s.reel.clock →
    (backoffLedgerDue s = true →
      Yields (.crierBackoffEnd energy) s
        (crierLedger s.reel.turn (modCrier (fun c => { c with ledgerAt := some s.reel.bounds }) s))) ∧
    (∀ f rest, backoffLedgerDue s = false → s.crier.queue = f :: rest →
      Yields (.crierBackoffEnd energy) s (crierStart f (modCrier (fun c => { c with queue := rest }) s)))) ∧
  (∀ energy s, carrierOn s energy = true → s.crier.slotted = false → reelTimed s = false →
    Yields (.crierBackoffEnd energy) s (modCrier (fun c => { c with
      foreignAt := some s.reel.bounds, quietAt := some s.reel.clock, waitEnd := none }) s)) ∧
  (∀ s, s.crier.sending.isSome = true → s.crier.sendEnd ≤ s.reel.clock →
    Yields .crierFrameEnded s
      (crierMode (count (hc8Ctr 15) 1 (modCrier (fun c => { c with
        sending := none, quietAt := some s.reel.clock, tx := sat 32 (c.tx + 1) }) s)))) ∧
  (∀ tones loud slot start k s, coreUp s = true → s.tray.restart ≠ .warming → delimiterAt tones = some k →
    someErased s loud tones.length = false →
    let bytes := tonesBytes (tones.drop (k + 8))
    let w := wordBe bytes 0
    let len := fld w 7 0
    10 + len ≤ bytes.length → crc16 (bytes.take (8 + len)) = ofBe ((bytes.drop (8 + len)).take 2) →
    fld w 15 12 < 3 → len ≤ 246 → fld w 23 16 ≠ s.tray.number → (bit w 11 = true ∨ fld w 31 24 = s.tray.number) →
    Yields (.crierFrameReceive tones loud slot start) s
      (crierPass slot (fld w 23 16) (fld w 15 12) ((bytes.take (8 + len)).drop 8) (slotClash slot start (heard true s)))) ∧
  (∀ energy gain noise l s, longOp s 0x0822 = some l → trimDisturbed energy l s = false → l.attempts = 1 ∨ l.attempts = 2 → l.limit ≤ s.reel.clock + 800000000 →
    Yields (.crierTrimDone true energy gain noise) s
      (endLong l stOk [] (raiseTrimDone stOk
        (trimCrier gain noise (trimTones (modMail (fun m => { m with long := (m.long.erase l) ++ [l] }) s))))))

/-! ### The front panel (13_front_panel_and_service.md) -/

/-- R530, R531, R546, R552 to R556: PANEL_CONFIG_SET sets or reports, PANEL_STATUS_GET reports and clears the
thermal-trip lamp condition, CART_ANSWER grants or refuses a pending ask, PANEL_FIND_SET sets find indications,
CART_INFO_GET reports. -/
def Obligations.PanelCommandsComplete : Prop :=
  (∀ mb w0 w1 s, Ready 0x0920 mb [w0, w1] s →
    (bit w0 31 = true → Completes (.panelConfigSet mb 0) mb s stOk true (leWords (panelCfgWords s)) s) ∧
    (bit w0 31 = false → fld w0 7 0 ≠ 0 →
      Completes (.panelConfigSet mb 0) mb s stOk false
        (leWords [put 8 8 (bit w0 8).toNat + put 7 0 (fld w0 7 0), put 7 0 (fld w1 7 0)])
        (modPanel (fun p => { p with seatTrain := bit w0 8, askTimeout := fld w0 7 0, findTimeout := fld w1 7 0 }) s))) ∧
  (∀ mb s, Ready 0x0921 mb [] s →
    Completes (.panelStatusGet mb 0) mb s stOk true (leWords (panelWords s)) (modPanel (fun p => { p with tripped := false }) s)) ∧
  (∀ mb w0 s, Ready 0x0922 mb [w0] s →
    let b := fld w0 3 0
    (bay s b).askEnd ≠ none →
    (bit w0 8 = true → (∀ u ∈ bayPorts b, (port s u).st ≠ .admitted) → cartPending s b = false →
      Completes (.cartAnswer mb 0) mb s stOk false [] (releaseCart b false s)) ∧
    (bit w0 8 = false →
      Completes (.cartAnswer mb 0) mb s stOk false []
        (raise 0x0929 [(4, b)] (modBay b (fun y => { y with askEnd := none, deniedAt := some s.reel.bounds }) s)))) ∧
  (∀ mb w0 s, Ready 0x0923 mb [w0] s → (fld w0 15 0 = 0 ∨ cartsOn s = true) →
    let v := if bit w0 17 then some (findEnd s) else none
    let t := if bit w0 16 then modPanel (fun p => { p with trayFind := v }) s else s
    Completes (.panelFindSet mb 0) mb s stOk false []
      (forAll (numbers 16 fun b => (fld w0 15 0).testBit b) (fun b => modBay b fun y => { y with find := v }) t)) ∧
  (∀ mb w0 s, Ready 0x0924 mb [w0] s → Completes (.cartInfoGet mb 0) mb s stOk true (cartInfo s (fld w0 3 0)) s)

/-- R521 to R528: the panel is sampled at tick 0 of a turn that is a multiple of 128, once; a short press of the find
button toggles the tray's find indication; a hold of it starts a lamp test, which ends after 262,144 turns; a hold of
an ask button sets the bay's find indication; a press of 8,388,608 turns is reported and ignored; a find indication
ends at its time. -/
def Obligations.PanelEventsComplete : Prop :=
  (∀ raw s, aonUp s = true → s.reel.tick = 0 → s.reel.turn % 128 = 0 → firstThisTurn (eventKey 0x0D03) s = true →
    Yields (.panelSample raw) s (samplePanel raw (useTurn (eventKey 0x0D03) s))) ∧
  (∀ s, panelUp s = true → s.panel.find.shortDue = true →
    let on := s.panel.trayFind.isNone
    let t := modPanel (fun p =>
      { p with find := { p.find with shortDue := false }, trayFind := if on then some (findEnd s) else none }) s
    Yields .trayFindPressed s
      (raise 0x0920 [iFlag on]
        (forAll (numbers 16 fun b => (bay s b).find.isSome) (fun b => modBay b fun y => { y with find := none }) t))) ∧
  (∀ s, panelUp s = true → holdDue s s.panel.find = true → s.panel.lampTest = none →
    Yields .lampTest s
      (raise 0x0921 [iFlag false, (8, 16)]
        (modPanel (fun p => { p with find := { p.find with holdDone := true }, lampTest := some s.reel.bounds }) s))) ∧
  (∀ t s, s.panel.lampTest = some t → t + 262144 ≤ s.reel.bounds →
    Yields .lampTestEnd s (modPanel (fun p => { p with lampTest := none }) s)) ∧
  (∀ b s, b < 16 → panelUp s = true → cartsOn s = true → holdDue s (bay s b).ask = true →
    Yields (.cartLocate b) s
      (raise 0x092E [(4, b)]
        (modBay b (fun y => { y with ask := { y.ask with holdDone := true }, find := some (findEnd s) }) s))) ∧
  (∀ s, panelUp s = true → stuckDue s s.panel.find = true →
    Yields (.buttonStuck 16) s
      (raise 0x0921 [iFlag true, (8, 16)]
        (modPanel (fun p => { p with find := { p.find with stuck := true, ignore := true } }) s))) ∧
  (∀ b s, b < 16 → panelUp s = true → cartsOn s = true → stuckDue s (bay s b).ask = true →
    Yields (.buttonStuck b) s
      (raise 0x0921 [iFlag true, (8, b)]
        (modBay b (fun y => { y with ask := { y.ask with stuck := true, ignore := true } }) s))) ∧
  (∀ t s, s.panel.trayFind = some t → t ≠ 0 → t ≤ s.reel.bounds →
    Yields (.findTimeout 16) s (modPanel (fun p => { p with trayFind := none }) s)) ∧
  (∀ b t s, b < 16 → (bay s b).find = some t → t ≠ 0 → t ≤ s.reel.bounds →
    Yields (.findTimeout b) s (modBay b (fun y => { y with find := none }) s))

/-- R529, R531, R532, R545: a short press of the ask button of an occupied bay asks, cancels a pending ask, takes back
a release, or releases at once a cartridge whose ports are all DARK; an unanswered ask is refused at its time, and the
refusal is shown for 524,288 turns. R44, R534 to R538, R543, R548, R549, R676: a bay recognised open is a surprise
unless its cartridge is released; one recognised closed settles for 65,536 turns and is then read; a cartridge
recognised gone empties the bay and every port of it that is still lit goes DARK; an overload switches the bay's
supply off; the tray latch is reported as it is lifted and lowered. -/
def Obligations.AskAndBayEventsComplete : Prop :=
  (∀ b s, b < 16 → panelUp s = true → cartsOn s = true → (bay s b).ask.shortDue = true →
    let t := modBay b (fun y => { y with ask := { y.ask with shortDue := false } }) s
    Yields (.askPress b) s (askAct b t) ∧
    ((bay s b).presence.closed = true → (bay s b).askEnd ≠ none →
      Yields (.askPress b) s
        (raise 0x0928 [(4, b), iFlag false] (modBay b (fun y => { y with askEnd := none }) t)))) ∧
  (∀ b t s, b < 16 → (bay s b).askEnd = some t → t ≤ s.reel.bounds →
    Yields (.askTimeout b) s
      (raise 0x092A [(4, b)] (modBay b (fun y => { y with askEnd := none, deniedAt := some s.reel.bounds }) s))) ∧
  (∀ b t s, b < 16 → (bay s b).deniedAt = some t → t + 524288 ≤ s.reel.bounds →
    Yields (.deniedDisplayEnd b) s (modBay b (fun y => { y with deniedAt := none }) s)) ∧
  (∀ b s, b < 16 → panelUp s = true → (bay s b).openDue = true →
    Yields (.bayLatchOpen b) s (bayOpened b s)) ∧
  (∀ b s, b < 16 → panelUp s = true → (bay s b).closeDue = true →
    Yields (.bayLatchClosed b) s (beginSeat b s)) ∧
  (∀ b record t s, b < 16 → panelUp s = true → cartsOn s = true → (bay s b).settleAt = some t → t ≤ s.reel.bounds →
    Yields (.cartIdRead b record) s (idRead b record s)) ∧
  (∀ b s, b < 16 → panelUp s = true → (bay s b).goneDue = true → (bay s b).openDue = false →
    let t := forAll (litPorts s b) portDark s
    Yields (.cartRemoved b) s
      (raise 0x092C [(4, b), iFlag (bay t b).surprise]
        (withBay b (modBay b fun y =>
          { y with
            goneDue := false, released := false, surprise := false, seated := false, idOk := false, idBad := false
            askEnd := none, settleAt := none, deniedAt := none }) t))) ∧
  (∀ b s, b < 16 → cartsOn s = true → (bay s b).supplied = true → (bay s b).presence.closed = true →
    Yields (.bayMgmtOverload b) s (identityBad b (modBay b (fun y => { y with supplied := false }) s))) ∧
  (∀ s, panelUp s = true → s.panel.liftDue = true →
    Yields .trayLatchOpen s (safeCheck (raise 0x0922 [] (modPanel (fun p => { p with liftDue := false }) s)))) ∧
  (∀ s, panelUp s = true → s.panel.dropDue = true →
    Yields .trayLatchClosed s (safeCheck (raise 0x0923 [] (modPanel (fun p => { p with dropDue := false }) s))))

/-! ### Start-up, tray states and firmware (14_startup_and_states.md) -/

/-- R6, R39, R547, R559, R566, R578, R674: AON power-up reads the straps, takes the contacts as found and wakes the
tray (that POWER_ON wakes at once is log entry 18); its loss leaves only what is in flash; PERST# released after 100
us in AON is a wake condition; a sag of 10 ms with a switched domain on, or an overvoltage of 1 ms, switches
everything off; busbar back for 1 s is a wake condition. -/
def Obligations.PowerSupplyEventsComplete : Prop :=
  (∀ straps found jtag s, aonFresh s = true →
    ∃ u, exec (.aonPowerUp straps found jtag) s = .next u ∧
      u = { finish s (powerUp found jtag s) with
            tray := { (finish s (powerUp found jtag s)).tray with number := straps % 256 } } ∧
      u.tray.number = straps % 256 ∧ u.pending = s.pending) ∧
  (∀ s, Yields .aonPowerLost s (powerLost s)) ∧
  (∀ us jtag s, s.tray.st = .aon → s.tray.strapsRead = true → 100 ≤ us →
    Yields (.perstRelease us jtag) s (wake wakePerst jtag s)) ∧
  (∀ us s, aonUp s = true → s.power.on ≠ [] → 10000 ≤ us → Yields (.busbarSag us) s (brownOut s)) ∧
  (∀ us s, aonUp s = true → 1000 ≤ us → Yields (.busbarOvervoltage us) s (brownOut s)) ∧
  (∀ us jtag s, s.tray.st = .aon → s.tray.brownOut = true → 1000000 ≤ us →
    Yields (.brownOutRecovery us jtag) s (wake wakeBrownOut jtag s))

/-- R561 to R563: a booting tray passes from each boot state when its condition holds: from AON with coolant flow,
from AUTH by the images, from CORE at once, from POOL, SWITCHES and LANES once its domains and ASICs are there, from
REEL with lock, from JOIN with a comparison in quorum. -/
def Obligations.BootStepsComplete : Prop :=
  ∀ fails0 fails1 flow s, s.tray.booting = true → s.tray.halted = false →
    let i : Instr := .bootStepComplete fails0 fails1 flow
    (s.tray.st = .aon → minFlow ≤ (flow : Int) →
      let t := modPower (fun p => { p with ramping := none }) (sensorSet 30 flow s)
      Yields i s (modPower (fun p => { p with ramping := none }) (bootTo .auth (turnOn 0 causeBoot t)))) ∧
    (s.tray.st = .auth → Yields i s (authenticate (fun b => if b then fails1 else fails0) s)) ∧
    (s.tray.st = .core → Yields i s (bootNextDomain (bootTo .pool s))) ∧
    (s.tray.st = .pool → bootedPast s 2 = true → bootedPast s 3 = true →
      Yields i s (bootNextDomain (bootTo .switches s))) ∧
    (s.tray.st = .switches → (∀ a < 4, (asicSt s a).answered = true ∨ s.tray.failed.contains (4 + a) = true) →
      Yields i s (bootNextDomain (bootTo .lanes s))) ∧
    (s.tray.st = .lanes → (∀ a < 4, s.power.on.contains (4 + a) = true → (asicSt s a).st = .standby) →
      Yields i s (modReel (fun r => { r with waitFrom := s.reel.bounds }) (bootTo .reel s))) ∧
    (s.tray.st = .reel → (s.reel.st = .locked ∨ s.reel.st = .bench) → Yields i s (bootTo .join s)) ∧
    (s.tray.st = .join → s.ledger.compared = true → s.ledger.quorum = true →
      Yields i s (bootTo .standby s))

/-- R573, R576, R579, R601, R615: a boot step past its limit is tried once more, and a second failure in CORE halts
the tray; 10 s after the HC-8 core the pump goes off and the tray is in AON, where a cold restart wakes it; a warm
restart begins when no long command runs, ends, or passes its limit; a long command past its limit completes with
TIMEOUT. -/
def Obligations.RestartEventsComplete : Prop :=
  (∀ item s, s.tray.booting = true → s.tray.halted = false → stepLimitPassed s = true → s.tray.st = .core →
    (s.tray.stepTries = 0 →
      Yields (.bootStepLimit item) s (stepBegin (modTray (fun t => { t with stepTries := 1 }) s))) ∧
    (s.tray.stepTries ≠ 0 → Yields (.bootStepLimit item) s (haltWith 3 true (lastingStep trayUnit s)))) ∧
  (∀ t s, s.tray.pumpOffAt = some t → t ≤ s.reel.clock →
    let off := domainOff 9 causePowerDown (modTray (fun y => { y with pumpOffAt := none }) s)
    Yields .pumpRunOnEnd s (if s.tray.restart = .cold then wake wakeCold false (enterAon off) else enterAon off)) ∧
  (∀ s, s.tray.restart = .warm → s.mail.long = [] → Yields .warmRestartBegin s (warmBegin s)) ∧
  (∀ s, s.tray.restart = .warming → s.tray.halted = false → Yields .warmRestartDone s (warmDone s)) ∧
  (∀ s, s.tray.restart = .warming → s.tray.halted = false → s.tray.restartAt + 131072 ≤ s.reel.bounds →
    Yields .warmRestartLimit s
      (if s.tray.restartTry = 0 then modTray (fun t => { t with restartTry := 1, restartAt := s.reel.bounds }) s
       else haltWith 5 true s)) ∧
  (∀ mb l s, longOf s mb = some l → l.limit ≤ s.reel.clock →
    let shown : Long := { l with attempts := min l.attempts 2 }
    Yields (.longCommandLimit mb) s
      (endLong shown stTimeout []
        (limitEffect l (modMail (fun m => { m with long := (m.long.erase l) ++ [shown] }) s))))

/-- R582 to R585: FW_WRITE in range writes the spare slot, at offset 0 as a long command that first erases it;
FW_VERIFY starts; FW_ACTIVATE selects a slot that runs or is verified; FW_STATUS_GET reports. R582, R583: the erase
ends and the data of the FW_WRITE goes into the slot (what else an erased slot reads is free, log entry 160); a
verification ends with OK and the slot's mark, with FAULT where the flash could not be read, or with BAD_ARG and its
ERROR. -/
def Obligations.FirmwareComplete : Prop :=
  (∀ mb w0 w1 data s, Ready 0x0A00 mb ([w0, w1] ++ data) s → fld w1 11 0 = 4 * data.length → 1 ≤ data.length →
    data.length ≤ 768 → w0 % 4 = 0 → w0 + 4 * data.length ≤ 67108864 → spareBusy s = false →
    (w0 = 0 → Starts (.fwWrite mb 0) 0x0A00 mb 0 1000000000 false s
      (modFw (fun w => { w with write := leWords data }) (writeMarks s))) ∧
    (w0 ≠ 0 → Completes (.fwWrite mb 0) mb s stOk false []
      (imgWrite (spareSlot s) w0 (leWords data) (writeMarks s)))) ∧
  (∀ mb s, Ready 0x0A01 mb [] s → spareBusy s = false → Starts (.fwVerify mb 0) 0x0A01 mb 0 2000000000 false s s) ∧
  (∀ mb w0 s, Ready 0x0A02 mb [w0] s → (bit w0 0 = s.fw.running ∨ ((imageOf s (bit w0 0)).verified = true ∧ spareBusy s = false)) →
    Completes (.fwActivate mb 0) mb s stOk false [] (modFw (fun w => { w with selected := bit w0 0 }) s)) ∧
  (∀ mb s, Ready 0x0A03 mb [] s → Completes (.fwStatusGet mb 0) mb s stOk true (leWords (fwWords s)) s) ∧
  (∀ l s, longOp s 0x0A00 = some l → l.attempts = 1 ∨ l.attempts = 2 →
    let gone := modMail (fun m => { m with long := (m.long.erase l) ++ [l] }) s
    let t := eraseSpare (modFw (fun w => { w with write := [] }) gone)
    Yields (.fwEraseDone true) s (endLong l stOk [] (imgWrite (spareSlot s) 0 s.fw.write t))) ∧
  (∀ readFails l s, longOp s 0x0A01 = some l →
    let e := imageError s (spareSlot s) readFails
    let gone := modMail (fun m => { m with long := (m.long.erase l) ++ [{ l with attempts := 2 }] }) s
    Yields (.fwVerifyDone readFails) s
      (if e = 0 then endLong l stOk (leBytes 4 0) (modImage (spareSlot s) (fun m => { m with verified := true }) s)
       else if e = 5 then endLongFault { l with attempts := 2 } (leBytes 4 5) gone
       else endLong l stBadArg (leBytes 4 e) s))

/-- R568, R571, R573, R574, R586 to R590: TRAY_STATE_GET reports; TRAY_SERVICE moves between STANDBY and SERVICE;
TRAY_RESUME places an exit from UNSCHEDULED; TRAY_RESTART asks for a warm restart; TRAY_RESTART COLD and
TRAY_POWER_DOWN complete and then run the power-down sequence. -/
def Obligations.TrayCommandsComplete : Prop :=
  (∀ mb s, Ready 0x0A04 mb [] s → Completes (.trayStateGet mb 0) mb s stOk true (leWords (trayWords s)) s) ∧
  (∀ mb w0 s, Ready 0x0A06 mb [w0] s → s.tray.powerDown = false →
    (bit w0 0 = true → s.tray.st = .standby → s.tray.dup = false →
      Completes (.trayService mb 0) mb s stOk false [] (trayTo .service s)) ∧
    (bit w0 0 = false → s.tray.st = .service → Completes (.trayService mb 0) mb s stOk false [] (trayTo .standby s))) ∧
  (∀ mb w0 w1 w2 s, Ready 0x0A07 mb [w0, w1, w2] s → Placeable .resume 0 (turnOf w1 w2) s → s.reel.st ≠ .holdover →
    resumeBoundary s (turnOf w1 w2) = true → s.tray.st = .unscheduled →
    (s.tray.returnSt = .admitted → s.plan.inForce ≠ none ∨ pendingSwap s ≠ none) →
    Completes (.trayResume mb 0) mb s stOk false []
      (schedAdd ⟨.resume, 0, turnOf w1 w2, 0x0A07, false, .none⟩ s)) ∧
  (∀ mb w0 s, Ready 0x0A05 mb [w0] s → fld w0 1 0 = 0 → warmForbidden s = false → 9 ≤ stCode s.tray.st →
    Completes (.trayRestart mb 0) mb s stOk false [] (modTray (fun t => { t with restart := .warm }) s)) ∧
  (∀ mb w0 s, Ready 0x0A05 mb [w0] s → fld w0 1 0 = 1 → stallsHold (bit w0 8) s = false → 3 ≤ stCode s.tray.st →
    s.tray.st ≠ .admitted → s.tray.st ≠ .unscheduled → s.tray.powerDown = false →
    ∃ v, Yields (.trayRestart mb 0) s (powerDownSeq v) ∧
      v.arch = (modTray (fun t => { t with restart := .cold }) s).arch ∧ (box v mb).st = .done) ∧
  (∀ mb w0 s, Ready 0x0A08 mb [w0] s → stallsHold (bit w0 8) s = false →
    (s.tray.st = .standby ∨ s.tray.st = .service) → s.tray.powerDown = false →
    ∃ v, Yields (.trayPowerDown mb 0) s (powerDownSeq v) ∧
      v.arch = (modTray (fun t => { t with restart := .down }) s).arch ∧ (box v mb).st = .done)

/-- R561, R562: the boot ROM takes the tray from AUTH to CORE just where one of the slots can be read and holds an
image whose header is in order, whose public key has the digest held in one-time-programmable memory and whose
signature is valid; the image that then runs is such a one, the selected slot's where both are. -/
def Obligations.OnlySignedImagesRun : Prop :=
  ∀ fails0 fails1 flow s, s.tray.booting = true → s.tray.halted = false → s.tray.st = .auth →
    let good := fun (b : Bool) =>
      (if b then fails1 else fails0) = false ∧ headerError s b = 0 ∧ keyMatches s b = true ∧ signatureValid s b = true
    ∃ t, exec (.bootStepComplete fails0 fails1 flow) s = .next t ∧
      (t.tray.st = .core ↔ good false ∨ good true) ∧ (t.tray.st = .core → good t.fw.running) ∧
      (good s.fw.selected → t.fw.running = s.fw.selected)

/-! ### Reel time (02_reel_time.md) -/

/-- R94, R97 to R99: REEL_CONFIG_SET stores the holdover limit for the next tick 0; REEL_STATUS_GET reports;
REEL_BENCH_SET, outside ADMITTED, enters BENCH at once, or leaves it for ACQUIRING. -/
def Obligations.ReelCommandsComplete : Prop :=
  (∀ mb w0 s, Ready 0x0810 mb [w0] s → fld w0 12 0 ≤ 4096 →
    Completes (.reelConfigSet mb 0) mb s stOk false [] (modReel (fun r => { r with limitNext := some (fld w0 12 0) }) s)) ∧
  (∀ mb s, Ready 0x0811 mb [] s → Completes (.reelStatusGet mb 0) mb s stOk true (leWords (reelWords s)) s) ∧
  (∀ mb w0 w1 w2 s, Ready 0x0812 mb [w0, w1, w2] s → s.tray.st ≠ .admitted →
    (bit w0 0 = true →
      Completes (.reelBenchSet mb 0) mb s stOk false [] (benchEnter (fld w0 15 8) (turnOf w1 w2) s)) ∧
    (bit w0 0 = false → s.reel.st = .bench →
      Completes (.reelBenchSet mb 0) mb s stOk false []
        (reelTo .acquiring (modReel (fun r => { trackFresh r with timeValid := false, step := none }) s))) ∧
    (bit w0 0 = false → s.reel.st ≠ .bench → Completes (.reelBenchSet mb 0) mb s stOk false [] s))

/-- R77, R79, R81, R83, R85, R90, R93, R95: the receiver's events. Edges present take it from ABSENT to ACQUIRING;
loss of the reference takes LOCKED to HOLDOVER and ACQUIRING to ABSENT; two turns without a marker take LOCKED to
HOLDOVER; a held turn is abandoned; egress goes on after tick 128; HOLDOVER expires into FREE; 16 turns without a
valid frame are noted; waiting for lock is reported; the count wraps. -/
def Obligations.ReelEventsComplete : Prop :=
  (∀ s, coreUp s = true → s.reel.st = .absent →
    Yields .reelEdgesPresent s
      (reelTo .acquiring (modReel (fun r =>
        { trackFresh r with
          turn := if r.seenAcq then r.turn else 0, tick := if r.seenAcq then r.tick else 0
          seenAcq := true, timeValid := false }) s))) ∧
  (∀ out s, s.reel.st = .locked → isHeld s = false →
    Yields (.referenceLoss out) s (toHoldover s.reel.turn 0 s)) ∧
  (∀ s, s.reel.st = .acquiring → Yields (.referenceLoss false) s (reelTo .absent (modReel trackFresh s))) ∧
  (∀ s, s.reel.st = .locked → s.reel.markerSeen = false → 1 ≤ s.reel.noMarker →
    Yields .markerAbsent s (if isHeld s = true then abandonStep s else toHoldover s.reel.turn 0 s)) ∧
  (∀ lost s, isHeld s = true → (lost = true ∨ 4096 ≤ s.reel.held) → Yields (.stepHoldAbandon lost) s (abandonStep s)) ∧
  (∀ s, s.reel.step = none → 128 ≤ s.reel.tick →
    Yields .stepCtrlOnlyEnd s (modReel (fun r => { r with ctrlOnly := false }) s)) ∧
  (∀ s, s.reel.st = .holdover → s.reel.limit < s.reel.holdTurns →
    Yields .holdoverExpiry s (unschedule (cancelAll (reelTo .free s)))) ∧
  (∀ s, s.reel.st ≠ .absent → 16 ≤ s.reel.noFrame → s.reel.unverified = false →
    Yields .countUnverified s (raise 0x0812 [] (modReel (fun r => { r with unverified := true }) s))) ∧
  (∀ s, s.tray.st = .reel → (s.reel.st = .absent ∨ s.reel.st = .acquiring) →
    s.reel.waitFrom + 131072 ≤ s.reel.bounds →
    Yields .reelWaiting s
      (raise 0x0815 [(3, reelCode s.reel.st)] (modReel (fun r => { r with waitFrom := r.bounds }) s))) ∧
  (∀ s, aonUp s = true → s.reel.turn = 2 ^ 48 - 1 → s.reel.tick = 4095 → s.reel.step = none →
    s.ledger.stepBy = none →
    Yields .reelWrap s (turnBoundary (2 ^ 48) (tickWork s)))

/-- R77, R78, R84, R85, R89: a marker completes acquisition where the PLL is locked, markers are one turn apart and
frames count on by 1: from ACQUIRING the count is loaded, from HOLDOVER or FREE it is slewed or stepped; in LOCKED a
marker takes a step that is decided, or is judged by its place. R61, R88, R90, R91, R96: a frame that is due is read.
One that R96 does not accept is counted; a valid one is counted, notes the master, is kept as this turn's count, and
clears COUNT_UNVERIFIED where it names the turn after this one. -/
def Obligations.ReelMarkersAndFramesComplete : Prop :=
  (∀ pll ps c s, coreUp s = true → s.reel.st = .acquiring → acquired pll s.reel = some c →
    Yields (.reelMarker pll ps) s
      (modReel (fun r => { r with sinceMarker := some 0, markerSeen := true }) (lockLoad c (modReel markReel s)))) ∧
  (∀ pll ps s, coreUp s = true → s.reel.st = .acquiring → acquired pll s.reel = none →
    Yields (.reelMarker pll ps) s (modReel markReel s)) ∧
  (∀ pll ps c s, coreUp s = true → (s.reel.st = .holdover ∨ s.reel.st = .free) → acquired pll s.reel = some c →
    Yields (.reelMarker pll ps) s (lockCorrect c ps (modReel markReel s))) ∧
  (∀ pll ps d s, coreUp s = true → s.reel.st = .locked → s.reel.step = some d →
    Yields (.reelMarker pll ps) s (modReel markReel (takeStep d s))) ∧
  (∀ pll ps s, coreUp s = true → s.reel.st = .locked → s.reel.step = none →
    Yields (.reelMarker pll ps) s (modReel markReel (lockedMarker ps s))) ∧
  (∀ bits s, frameDue s = true → reelValid bits = false →
    Yields (.reelFrame bits) s (count (hc8Ctr 3) 1 (modReel (fun r => { r with frameSeen := true }) s))) ∧
  (∀ bits s, frameDue s = true → reelValid bits = true →
    let c := fld (reelWord bits 0) 15 0 * 2 ^ 32 + reelWord bits 1
    let w := reelWord bits 2
    let t := noteMaster (fld w 27 20) (bit w 19) (bit w 18)
      (count (hc8Ctr 2) 1 (modReel (fun r => { r with frameSeen := true }) s))
    c = (s.reel.turn + 1) % 2 ^ 48 →
    Yields (.reelFrame bits) s (modReel (fun r => { r with frameNow := some c, frameValid := true, unverified := false }) t))

/-! ### Mailboxes and registers (15_mailboxes.md, 16_registers_counters_events.md) -/

/-- R594, R597, R606, R607, R610: a doorbell is accepted or counted as rejected; MB_CTRL claims, releases and forces;
a mailbox request from the fabric that R607 accepts queues its command; a response of TRANSPORT 0 completes the
running REMOTE_CALL it belongs to. -/
def Obligations.MailboxEventsComplete : Prop :=
  (∀ v s, barUp s = true →
    let n := fld v.toNat 4 0
    Yields (.mbDoorbell v) s
      (if doorbellOk n (fld v.toNat 31 16) s = true then acceptCommand n .pcie 0 0 0 s
       else modMail (fun m => { m with rejects := sat 32 (m.rejects + 1) }) s)) ∧
  (∀ n owner s, barUp s = true → n < 32 →
    Yields (.mbCtrlClaim n owner) s (modBox n (fun b => if b.owner = 0 then { b with owner := owner % 65536 } else b) s) ∧
    Yields (.mbCtrlRelease n owner) s
      (modBox n (fun b => if b.owner = owner % 65536 then { b with owner := 0 } else b) s) ∧
    Yields (.mbCtrlForce n owner) s
      (raise 0x0001 [(5, n), (16, (box s n).owner), (16, owner)] (modBox n (fun b => { b with owner := owner % 65536 }) s))) ∧
  (∀ ifc f s, coreUp s = true → s.tray.restart ≠ .warming →
    (link s (ifcUnit ifc)).rxq.find? (fun f => f.cls == 0 && ctypeOf f == 2) = some f →
    let t := modLink (ifcUnit ifc) (fun l => { l with rxq := l.rxq.erase f }) s
    let n := fld f.w4.toNat 31 27
    remoteCase n .fabric f.src (ctagOf f) f.payload s = .accept →
    Yields (.mailboxReq ifc) s (remoteAccept n .fabric f.src (ctagOf f) f.chan f.payload t)) ∧
  (∀ ifc f r l s, coreUp s = true → s.tray.restart ≠ .warming →
    (link s (ifcUnit ifc)).rxq.find? (fun f => f.cls == 0 && ctypeOf f == 3) = some f →
    (s.mail.calls.find? fun r => r.viaCrier == false && r.tray == trayOfEid f.src && r.tag == ctagOf f) = some r →
    longOf s r.mb = some l → fld f.w4.toNat 26 24 = 0 →
    let t := modLink (ifcUnit ifc) (fun l => { l with rxq := l.rxq.erase f }) s
    let head := f.payload.take 32
    let block := (f.payload.drop 32).take (fld (wordLe head 2) 27 16)
    let cut := bit f.w4.toNat 23 || decide (4028 < block.length)
    Yields (.mailboxRsp ifc) s
      (endLong l stOk (leBytes 4 (put 23 23 cut.toNat) ++ head ++ block.take 4028)
        (modMail (fun m => { m with calls := m.calls.erase r }) t)))

/-- R639, R643, R646, R647: enabling a ring of a legal size and base starts it afresh; disabling it with the same
SIZE_LOG stops it; EV_READ within the ring makes room; a backlog drains; the oldest unsignalled record's wait ends in
a message. -/
def Obligations.EventRingCommandsComplete : Prop :=
  (∀ v s, coreUp s = true → s.ev.enable = false → 6 ≤ fld v.toNat 20 16 → fld v.toNat 20 16 ≤ 16 →
    fld s.ev.baseLo.toNat 11 0 = 0 →
    Yields (.evRingEnable v) s
      (modEv (fun e =>
        { e with
          vector := fld v.toNat 4 0, sizeLog := fld v.toNat 20 16, enable := true, write := 0, read := 0
          unsignalled := 0, ring := [] }) s)) ∧
  (∀ v s, coreUp s = true → fld v.toNat 20 16 = s.ev.sizeLog →
    Yields (.evRingDisable v) s (modEv (fun e => { e with vector := fld v.toNat 4 0, enable := false }) s)) ∧
  (∀ v s, coreUp s = true →
    Yields (.evRead v) s
      (if (s.ev.write + 2 ^ 32 - v.toNat) % 2 ^ 32 ≤ ringSize s.ev then
        drainBacklog 1024 (modEv (fun e => { e with read := v.toNat }) s)
       else cfgError s)) ∧
  (∀ s, Yields .eventBacklogDrain s (drainBacklog 1024 s)) ∧
  (∀ s, 0 < s.ev.modTurns → 0 < s.ev.unsignalled → s.ev.oldestAt + s.ev.modTurns ≤ s.reel.bounds →
    Yields .eventInterrupt s (msix s.ev.vector (modEv (fun e => { e with unsignalled := 0 }) s)))

/-- R616, R628, R630, R634 to R636: CW_SELECT discards the frozen copy; SNAP = 1 freezes the selected page and SNAP =
0 discards it, each with CLEAR where the same write sets it; CLEAR zeroes the page; a read of a latching low word
latches its high word; an aligned 4-byte write of a register applies its fields, and one to a mailbox buffer its
bytes; the PCI Express endpoint is reset alone. -/
def Obligations.RegisterCommandsComplete : Prop :=
  (∀ v s, coreUp s = true →
    Yields (.cwSelect v) s (modCtr (fun c => { c with select := v, snap := false, frozen := [] }) s) ∧
    Yields (.cwSnap v) s (if v.getLsbD 30 then cwClear (cwFreeze s) else cwFreeze s) ∧
    (let t := modCtr (fun c => { c with snap := false, frozen := [] }) s
     Yields (.cwSnapDiscard v) s (if v.getLsbD 30 then cwClear t else t) ∧
     Yields (.cwClear v) s (cwClear (if v.getLsbD 31 then cwFreeze s else t)))) ∧
  (∀ off s, barUp s = true → latchLow off = true →
    Yields (.countLoRead off) s
      (modCtr (fun c =>
        { c with shadow := BitVec.ofNat 32 (regLive s (off + 4)), lastRead := BitVec.ofNat 32 (regLive s off) }) s)) ∧
  (∀ off v s, barUp s = true → off < 0x10000 → off % 4 = 0 → v < 2 ^ 32 →
    Yields (.registerWrite off ((leBytes 4 v).map some)) s (regWrite off (BitVec.ofNat 32 v) s)) ∧
  (∀ off data s, barUp s = true → s.tray.recovery = false → 0x10000 ≤ off → off + data.length ≤ 0x30000 → data ≠ [] →
    Yields (.registerWrite off data) s (bufBytes (off - 0x10000) data s)) ∧
  (∀ perst s, coreUp s = true → Yields (.pcieLinkReset perst) s (linkResetPcie perst s))
end

