-- ==== Sys2Proof/Laws/State.lean ====
section
/-! SUPPORT. What each named update of the state leaves and changes, one lemma per field, so that no proof unfolds a
record update. -/

namespace Sys2Proof.Machine

open Sys2Proof

@[simp] theorem modReel_pending (g : Reel → Reel) (s : State) : (modReel g s).pending = s.pending := by rfl
@[simp] theorem modReel_reel (g : Reel → Reel) (s : State) : (modReel g s).reel = g s.reel := by rfl
@[simp] theorem modReel_sched (g : Reel → Reel) (s : State) : (modReel g s).sched = s.sched := by rfl
@[simp] theorem modReel_tray (g : Reel → Reel) (s : State) : (modReel g s).tray = s.tray := by rfl
@[simp] theorem modReel_ports (g : Reel → Reel) (s : State) : (modReel g s).ports = s.ports := by rfl
@[simp] theorem modReel_links (g : Reel → Reel) (s : State) : (modReel g s).links = s.links := by rfl
@[simp] theorem modReel_punits (g : Reel → Reel) (s : State) : (modReel g s).punits = s.punits := by rfl
@[simp] theorem modReel_units (g : Reel → Reel) (s : State) : (modReel g s).units = s.units := by rfl
@[simp] theorem modReel_asics (g : Reel → Reel) (s : State) : (modReel g s).asics = s.asics := by rfl
@[simp] theorem modReel_eq (g : Reel → Reel) (s : State) : (modReel g s).eq = s.eq := by rfl
@[simp] theorem modReel_fwd (g : Reel → Reel) (s : State) : (modReel g s).fwd = s.fwd := by rfl
@[simp] theorem modReel_plan (g : Reel → Reel) (s : State) : (modReel g s).plan = s.plan := by rfl
@[simp] theorem modReel_twine (g : Reel → Reel) (s : State) : (modReel g s).twine = s.twine := by rfl
@[simp] theorem modReel_pool (g : Reel → Reel) (s : State) : (modReel g s).pool = s.pool := by rfl
@[simp] theorem modReel_anneal (g : Reel → Reel) (s : State) : (modReel g s).anneal = s.anneal := by rfl
@[simp] theorem modReel_power (g : Reel → Reel) (s : State) : (modReel g s).power = s.power := by rfl
@[simp] theorem modReel_crier (g : Reel → Reel) (s : State) : (modReel g s).crier = s.crier := by rfl
@[simp] theorem modReel_ledger (g : Reel → Reel) (s : State) : (modReel g s).ledger = s.ledger := by rfl
@[simp] theorem modReel_panel (g : Reel → Reel) (s : State) : (modReel g s).panel = s.panel := by rfl
@[simp] theorem modReel_fw (g : Reel → Reel) (s : State) : (modReel g s).fw = s.fw := by rfl
@[simp] theorem modReel_mail (g : Reel → Reel) (s : State) : (modReel g s).mail = s.mail := by rfl
@[simp] theorem modReel_ev (g : Reel → Reel) (s : State) : (modReel g s).ev = s.ev := by rfl
@[simp] theorem modReel_ctr (g : Reel → Reel) (s : State) : (modReel g s).ctr = s.ctr := by rfl
@[simp] theorem modReel_once (g : Reel → Reel) (s : State) : (modReel g s).once = s.once := by rfl
@[simp] theorem modReel_free (g : Reel → Reel) (s : State) : (modReel g s).free = s.free := by rfl
@[simp] theorem modReel_out (g : Reel → Reel) (s : State) : (modReel g s).out = s.out := by rfl
@[simp] theorem modTray_pending (g : Tray → Tray) (s : State) : (modTray g s).pending = s.pending := by rfl
@[simp] theorem modTray_reel (g : Tray → Tray) (s : State) : (modTray g s).reel = s.reel := by rfl
@[simp] theorem modTray_sched (g : Tray → Tray) (s : State) : (modTray g s).sched = s.sched := by rfl
@[simp] theorem modTray_tray (g : Tray → Tray) (s : State) : (modTray g s).tray = g s.tray := by rfl
@[simp] theorem modTray_ports (g : Tray → Tray) (s : State) : (modTray g s).ports = s.ports := by rfl
@[simp] theorem modTray_links (g : Tray → Tray) (s : State) : (modTray g s).links = s.links := by rfl
@[simp] theorem modTray_punits (g : Tray → Tray) (s : State) : (modTray g s).punits = s.punits := by rfl
@[simp] theorem modTray_units (g : Tray → Tray) (s : State) : (modTray g s).units = s.units := by rfl
@[simp] theorem modTray_asics (g : Tray → Tray) (s : State) : (modTray g s).asics = s.asics := by rfl
@[simp] theorem modTray_eq (g : Tray → Tray) (s : State) : (modTray g s).eq = s.eq := by rfl
@[simp] theorem modTray_fwd (g : Tray → Tray) (s : State) : (modTray g s).fwd = s.fwd := by rfl
@[simp] theorem modTray_plan (g : Tray → Tray) (s : State) : (modTray g s).plan = s.plan := by rfl
@[simp] theorem modTray_twine (g : Tray → Tray) (s : State) : (modTray g s).twine = s.twine := by rfl
@[simp] theorem modTray_pool (g : Tray → Tray) (s : State) : (modTray g s).pool = s.pool := by rfl
@[simp] theorem modTray_anneal (g : Tray → Tray) (s : State) : (modTray g s).anneal = s.anneal := by rfl
@[simp] theorem modTray_power (g : Tray → Tray) (s : State) : (modTray g s).power = s.power := by rfl
@[simp] theorem modTray_crier (g : Tray → Tray) (s : State) : (modTray g s).crier = s.crier := by rfl
@[simp] theorem modTray_ledger (g : Tray → Tray) (s : State) : (modTray g s).ledger = s.ledger := by rfl
@[simp] theorem modTray_panel (g : Tray → Tray) (s : State) : (modTray g s).panel = s.panel := by rfl
@[simp] theorem modTray_fw (g : Tray → Tray) (s : State) : (modTray g s).fw = s.fw := by rfl
@[simp] theorem modTray_mail (g : Tray → Tray) (s : State) : (modTray g s).mail = s.mail := by rfl
@[simp] theorem modTray_ev (g : Tray → Tray) (s : State) : (modTray g s).ev = s.ev := by rfl
@[simp] theorem modTray_ctr (g : Tray → Tray) (s : State) : (modTray g s).ctr = s.ctr := by rfl
@[simp] theorem modTray_once (g : Tray → Tray) (s : State) : (modTray g s).once = s.once := by rfl
@[simp] theorem modTray_free (g : Tray → Tray) (s : State) : (modTray g s).free = s.free := by rfl
@[simp] theorem modTray_out (g : Tray → Tray) (s : State) : (modTray g s).out = s.out := by rfl
@[simp] theorem modFwd_pending (g : Fwd → Fwd) (s : State) : (modFwd g s).pending = s.pending := by rfl
@[simp] theorem modFwd_reel (g : Fwd → Fwd) (s : State) : (modFwd g s).reel = s.reel := by rfl
@[simp] theorem modFwd_sched (g : Fwd → Fwd) (s : State) : (modFwd g s).sched = s.sched := by rfl
@[simp] theorem modFwd_tray (g : Fwd → Fwd) (s : State) : (modFwd g s).tray = s.tray := by rfl
@[simp] theorem modFwd_ports (g : Fwd → Fwd) (s : State) : (modFwd g s).ports = s.ports := by rfl
@[simp] theorem modFwd_links (g : Fwd → Fwd) (s : State) : (modFwd g s).links = s.links := by rfl
@[simp] theorem modFwd_punits (g : Fwd → Fwd) (s : State) : (modFwd g s).punits = s.punits := by rfl
@[simp] theorem modFwd_units (g : Fwd → Fwd) (s : State) : (modFwd g s).units = s.units := by rfl
@[simp] theorem modFwd_asics (g : Fwd → Fwd) (s : State) : (modFwd g s).asics = s.asics := by rfl
@[simp] theorem modFwd_eq (g : Fwd → Fwd) (s : State) : (modFwd g s).eq = s.eq := by rfl
@[simp] theorem modFwd_fwd (g : Fwd → Fwd) (s : State) : (modFwd g s).fwd = g s.fwd := by rfl
@[simp] theorem modFwd_plan (g : Fwd → Fwd) (s : State) : (modFwd g s).plan = s.plan := by rfl
@[simp] theorem modFwd_twine (g : Fwd → Fwd) (s : State) : (modFwd g s).twine = s.twine := by rfl
@[simp] theorem modFwd_pool (g : Fwd → Fwd) (s : State) : (modFwd g s).pool = s.pool := by rfl
@[simp] theorem modFwd_anneal (g : Fwd → Fwd) (s : State) : (modFwd g s).anneal = s.anneal := by rfl
@[simp] theorem modFwd_power (g : Fwd → Fwd) (s : State) : (modFwd g s).power = s.power := by rfl
@[simp] theorem modFwd_crier (g : Fwd → Fwd) (s : State) : (modFwd g s).crier = s.crier := by rfl
@[simp] theorem modFwd_ledger (g : Fwd → Fwd) (s : State) : (modFwd g s).ledger = s.ledger := by rfl
@[simp] theorem modFwd_panel (g : Fwd → Fwd) (s : State) : (modFwd g s).panel = s.panel := by rfl
@[simp] theorem modFwd_fw (g : Fwd → Fwd) (s : State) : (modFwd g s).fw = s.fw := by rfl
@[simp] theorem modFwd_mail (g : Fwd → Fwd) (s : State) : (modFwd g s).mail = s.mail := by rfl
@[simp] theorem modFwd_ev (g : Fwd → Fwd) (s : State) : (modFwd g s).ev = s.ev := by rfl
@[simp] theorem modFwd_ctr (g : Fwd → Fwd) (s : State) : (modFwd g s).ctr = s.ctr := by rfl
@[simp] theorem modFwd_once (g : Fwd → Fwd) (s : State) : (modFwd g s).once = s.once := by rfl
@[simp] theorem modFwd_free (g : Fwd → Fwd) (s : State) : (modFwd g s).free = s.free := by rfl
@[simp] theorem modFwd_out (g : Fwd → Fwd) (s : State) : (modFwd g s).out = s.out := by rfl
@[simp] theorem modPlan_pending (g : Plan → Plan) (s : State) : (modPlan g s).pending = s.pending := by rfl
@[simp] theorem modPlan_reel (g : Plan → Plan) (s : State) : (modPlan g s).reel = s.reel := by rfl
@[simp] theorem modPlan_sched (g : Plan → Plan) (s : State) : (modPlan g s).sched = s.sched := by rfl
@[simp] theorem modPlan_tray (g : Plan → Plan) (s : State) : (modPlan g s).tray = s.tray := by rfl
@[simp] theorem modPlan_ports (g : Plan → Plan) (s : State) : (modPlan g s).ports = s.ports := by rfl
@[simp] theorem modPlan_links (g : Plan → Plan) (s : State) : (modPlan g s).links = s.links := by rfl
@[simp] theorem modPlan_punits (g : Plan → Plan) (s : State) : (modPlan g s).punits = s.punits := by rfl
@[simp] theorem modPlan_units (g : Plan → Plan) (s : State) : (modPlan g s).units = s.units := by rfl
@[simp] theorem modPlan_asics (g : Plan → Plan) (s : State) : (modPlan g s).asics = s.asics := by rfl
@[simp] theorem modPlan_eq (g : Plan → Plan) (s : State) : (modPlan g s).eq = s.eq := by rfl
@[simp] theorem modPlan_fwd (g : Plan → Plan) (s : State) : (modPlan g s).fwd = s.fwd := by rfl
@[simp] theorem modPlan_plan (g : Plan → Plan) (s : State) : (modPlan g s).plan = g s.plan := by rfl
@[simp] theorem modPlan_twine (g : Plan → Plan) (s : State) : (modPlan g s).twine = s.twine := by rfl
@[simp] theorem modPlan_pool (g : Plan → Plan) (s : State) : (modPlan g s).pool = s.pool := by rfl
@[simp] theorem modPlan_anneal (g : Plan → Plan) (s : State) : (modPlan g s).anneal = s.anneal := by rfl
@[simp] theorem modPlan_power (g : Plan → Plan) (s : State) : (modPlan g s).power = s.power := by rfl
@[simp] theorem modPlan_crier (g : Plan → Plan) (s : State) : (modPlan g s).crier = s.crier := by rfl
@[simp] theorem modPlan_ledger (g : Plan → Plan) (s : State) : (modPlan g s).ledger = s.ledger := by rfl
@[simp] theorem modPlan_panel (g : Plan → Plan) (s : State) : (modPlan g s).panel = s.panel := by rfl
@[simp] theorem modPlan_fw (g : Plan → Plan) (s : State) : (modPlan g s).fw = s.fw := by rfl
@[simp] theorem modPlan_mail (g : Plan → Plan) (s : State) : (modPlan g s).mail = s.mail := by rfl
@[simp] theorem modPlan_ev (g : Plan → Plan) (s : State) : (modPlan g s).ev = s.ev := by rfl
@[simp] theorem modPlan_ctr (g : Plan → Plan) (s : State) : (modPlan g s).ctr = s.ctr := by rfl
@[simp] theorem modPlan_once (g : Plan → Plan) (s : State) : (modPlan g s).once = s.once := by rfl
@[simp] theorem modPlan_free (g : Plan → Plan) (s : State) : (modPlan g s).free = s.free := by rfl
@[simp] theorem modPlan_out (g : Plan → Plan) (s : State) : (modPlan g s).out = s.out := by rfl
@[simp] theorem modTwine_pending (g : Twine → Twine) (s : State) : (modTwine g s).pending = s.pending := by rfl
@[simp] theorem modTwine_reel (g : Twine → Twine) (s : State) : (modTwine g s).reel = s.reel := by rfl
@[simp] theorem modTwine_sched (g : Twine → Twine) (s : State) : (modTwine g s).sched = s.sched := by rfl
@[simp] theorem modTwine_tray (g : Twine → Twine) (s : State) : (modTwine g s).tray = s.tray := by rfl
@[simp] theorem modTwine_ports (g : Twine → Twine) (s : State) : (modTwine g s).ports = s.ports := by rfl
@[simp] theorem modTwine_links (g : Twine → Twine) (s : State) : (modTwine g s).links = s.links := by rfl
@[simp] theorem modTwine_punits (g : Twine → Twine) (s : State) : (modTwine g s).punits = s.punits := by rfl
@[simp] theorem modTwine_units (g : Twine → Twine) (s : State) : (modTwine g s).units = s.units := by rfl
@[simp] theorem modTwine_asics (g : Twine → Twine) (s : State) : (modTwine g s).asics = s.asics := by rfl
@[simp] theorem modTwine_eq (g : Twine → Twine) (s : State) : (modTwine g s).eq = s.eq := by rfl
@[simp] theorem modTwine_fwd (g : Twine → Twine) (s : State) : (modTwine g s).fwd = s.fwd := by rfl
@[simp] theorem modTwine_plan (g : Twine → Twine) (s : State) : (modTwine g s).plan = s.plan := by rfl
@[simp] theorem modTwine_twine (g : Twine → Twine) (s : State) : (modTwine g s).twine = g s.twine := by rfl
@[simp] theorem modTwine_pool (g : Twine → Twine) (s : State) : (modTwine g s).pool = s.pool := by rfl
@[simp] theorem modTwine_anneal (g : Twine → Twine) (s : State) : (modTwine g s).anneal = s.anneal := by rfl
@[simp] theorem modTwine_power (g : Twine → Twine) (s : State) : (modTwine g s).power = s.power := by rfl
@[simp] theorem modTwine_crier (g : Twine → Twine) (s : State) : (modTwine g s).crier = s.crier := by rfl
@[simp] theorem modTwine_ledger (g : Twine → Twine) (s : State) : (modTwine g s).ledger = s.ledger := by rfl
@[simp] theorem modTwine_panel (g : Twine → Twine) (s : State) : (modTwine g s).panel = s.panel := by rfl
@[simp] theorem modTwine_fw (g : Twine → Twine) (s : State) : (modTwine g s).fw = s.fw := by rfl
@[simp] theorem modTwine_mail (g : Twine → Twine) (s : State) : (modTwine g s).mail = s.mail := by rfl
@[simp] theorem modTwine_ev (g : Twine → Twine) (s : State) : (modTwine g s).ev = s.ev := by rfl
@[simp] theorem modTwine_ctr (g : Twine → Twine) (s : State) : (modTwine g s).ctr = s.ctr := by rfl
@[simp] theorem modTwine_once (g : Twine → Twine) (s : State) : (modTwine g s).once = s.once := by rfl
@[simp] theorem modTwine_free (g : Twine → Twine) (s : State) : (modTwine g s).free = s.free := by rfl
@[simp] theorem modTwine_out (g : Twine → Twine) (s : State) : (modTwine g s).out = s.out := by rfl
@[simp] theorem modPool_pending (g : Pool → Pool) (s : State) : (modPool g s).pending = s.pending := by rfl
@[simp] theorem modPool_reel (g : Pool → Pool) (s : State) : (modPool g s).reel = s.reel := by rfl
@[simp] theorem modPool_sched (g : Pool → Pool) (s : State) : (modPool g s).sched = s.sched := by rfl
@[simp] theorem modPool_tray (g : Pool → Pool) (s : State) : (modPool g s).tray = s.tray := by rfl
@[simp] theorem modPool_ports (g : Pool → Pool) (s : State) : (modPool g s).ports = s.ports := by rfl
@[simp] theorem modPool_links (g : Pool → Pool) (s : State) : (modPool g s).links = s.links := by rfl
@[simp] theorem modPool_punits (g : Pool → Pool) (s : State) : (modPool g s).punits = s.punits := by rfl
@[simp] theorem modPool_units (g : Pool → Pool) (s : State) : (modPool g s).units = s.units := by rfl
@[simp] theorem modPool_asics (g : Pool → Pool) (s : State) : (modPool g s).asics = s.asics := by rfl
@[simp] theorem modPool_eq (g : Pool → Pool) (s : State) : (modPool g s).eq = s.eq := by rfl
@[simp] theorem modPool_fwd (g : Pool → Pool) (s : State) : (modPool g s).fwd = s.fwd := by rfl
@[simp] theorem modPool_plan (g : Pool → Pool) (s : State) : (modPool g s).plan = s.plan := by rfl
@[simp] theorem modPool_twine (g : Pool → Pool) (s : State) : (modPool g s).twine = s.twine := by rfl
@[simp] theorem modPool_pool (g : Pool → Pool) (s : State) : (modPool g s).pool = g s.pool := by rfl
@[simp] theorem modPool_anneal (g : Pool → Pool) (s : State) : (modPool g s).anneal = s.anneal := by rfl
@[simp] theorem modPool_power (g : Pool → Pool) (s : State) : (modPool g s).power = s.power := by rfl
@[simp] theorem modPool_crier (g : Pool → Pool) (s : State) : (modPool g s).crier = s.crier := by rfl
@[simp] theorem modPool_ledger (g : Pool → Pool) (s : State) : (modPool g s).ledger = s.ledger := by rfl
@[simp] theorem modPool_panel (g : Pool → Pool) (s : State) : (modPool g s).panel = s.panel := by rfl
@[simp] theorem modPool_fw (g : Pool → Pool) (s : State) : (modPool g s).fw = s.fw := by rfl
@[simp] theorem modPool_mail (g : Pool → Pool) (s : State) : (modPool g s).mail = s.mail := by rfl
@[simp] theorem modPool_ev (g : Pool → Pool) (s : State) : (modPool g s).ev = s.ev := by rfl
@[simp] theorem modPool_ctr (g : Pool → Pool) (s : State) : (modPool g s).ctr = s.ctr := by rfl
@[simp] theorem modPool_once (g : Pool → Pool) (s : State) : (modPool g s).once = s.once := by rfl
@[simp] theorem modPool_free (g : Pool → Pool) (s : State) : (modPool g s).free = s.free := by rfl
@[simp] theorem modPool_out (g : Pool → Pool) (s : State) : (modPool g s).out = s.out := by rfl
@[simp] theorem modAnneal_pending (g : Anneal → Anneal) (s : State) : (modAnneal g s).pending = s.pending := by rfl
@[simp] theorem modAnneal_reel (g : Anneal → Anneal) (s : State) : (modAnneal g s).reel = s.reel := by rfl
@[simp] theorem modAnneal_sched (g : Anneal → Anneal) (s : State) : (modAnneal g s).sched = s.sched := by rfl
@[simp] theorem modAnneal_tray (g : Anneal → Anneal) (s : State) : (modAnneal g s).tray = s.tray := by rfl
@[simp] theorem modAnneal_ports (g : Anneal → Anneal) (s : State) : (modAnneal g s).ports = s.ports := by rfl
@[simp] theorem modAnneal_links (g : Anneal → Anneal) (s : State) : (modAnneal g s).links = s.links := by rfl
@[simp] theorem modAnneal_punits (g : Anneal → Anneal) (s : State) : (modAnneal g s).punits = s.punits := by rfl
@[simp] theorem modAnneal_units (g : Anneal → Anneal) (s : State) : (modAnneal g s).units = s.units := by rfl
@[simp] theorem modAnneal_asics (g : Anneal → Anneal) (s : State) : (modAnneal g s).asics = s.asics := by rfl
@[simp] theorem modAnneal_eq (g : Anneal → Anneal) (s : State) : (modAnneal g s).eq = s.eq := by rfl
@[simp] theorem modAnneal_fwd (g : Anneal → Anneal) (s : State) : (modAnneal g s).fwd = s.fwd := by rfl
@[simp] theorem modAnneal_plan (g : Anneal → Anneal) (s : State) : (modAnneal g s).plan = s.plan := by rfl
@[simp] theorem modAnneal_twine (g : Anneal → Anneal) (s : State) : (modAnneal g s).twine = s.twine := by rfl
@[simp] theorem modAnneal_pool (g : Anneal → Anneal) (s : State) : (modAnneal g s).pool = s.pool := by rfl
@[simp] theorem modAnneal_anneal (g : Anneal → Anneal) (s : State) : (modAnneal g s).anneal = g s.anneal := by rfl
@[simp] theorem modAnneal_power (g : Anneal → Anneal) (s : State) : (modAnneal g s).power = s.power := by rfl
@[simp] theorem modAnneal_crier (g : Anneal → Anneal) (s : State) : (modAnneal g s).crier = s.crier := by rfl
@[simp] theorem modAnneal_ledger (g : Anneal → Anneal) (s : State) : (modAnneal g s).ledger = s.ledger := by rfl
@[simp] theorem modAnneal_panel (g : Anneal → Anneal) (s : State) : (modAnneal g s).panel = s.panel := by rfl
@[simp] theorem modAnneal_fw (g : Anneal → Anneal) (s : State) : (modAnneal g s).fw = s.fw := by rfl
@[simp] theorem modAnneal_mail (g : Anneal → Anneal) (s : State) : (modAnneal g s).mail = s.mail := by rfl
@[simp] theorem modAnneal_ev (g : Anneal → Anneal) (s : State) : (modAnneal g s).ev = s.ev := by rfl
@[simp] theorem modAnneal_ctr (g : Anneal → Anneal) (s : State) : (modAnneal g s).ctr = s.ctr := by rfl
@[simp] theorem modAnneal_once (g : Anneal → Anneal) (s : State) : (modAnneal g s).once = s.once := by rfl
@[simp] theorem modAnneal_free (g : Anneal → Anneal) (s : State) : (modAnneal g s).free = s.free := by rfl
@[simp] theorem modAnneal_out (g : Anneal → Anneal) (s : State) : (modAnneal g s).out = s.out := by rfl
@[simp] theorem modPower_pending (g : Power → Power) (s : State) : (modPower g s).pending = s.pending := by rfl
@[simp] theorem modPower_reel (g : Power → Power) (s : State) : (modPower g s).reel = s.reel := by rfl
@[simp] theorem modPower_sched (g : Power → Power) (s : State) : (modPower g s).sched = s.sched := by rfl
@[simp] theorem modPower_tray (g : Power → Power) (s : State) : (modPower g s).tray = s.tray := by rfl
@[simp] theorem modPower_ports (g : Power → Power) (s : State) : (modPower g s).ports = s.ports := by rfl
@[simp] theorem modPower_links (g : Power → Power) (s : State) : (modPower g s).links = s.links := by rfl
@[simp] theorem modPower_punits (g : Power → Power) (s : State) : (modPower g s).punits = s.punits := by rfl
@[simp] theorem modPower_units (g : Power → Power) (s : State) : (modPower g s).units = s.units := by rfl
@[simp] theorem modPower_asics (g : Power → Power) (s : State) : (modPower g s).asics = s.asics := by rfl
@[simp] theorem modPower_eq (g : Power → Power) (s : State) : (modPower g s).eq = s.eq := by rfl
@[simp] theorem modPower_fwd (g : Power → Power) (s : State) : (modPower g s).fwd = s.fwd := by rfl
@[simp] theorem modPower_plan (g : Power → Power) (s : State) : (modPower g s).plan = s.plan := by rfl
@[simp] theorem modPower_twine (g : Power → Power) (s : State) : (modPower g s).twine = s.twine := by rfl
@[simp] theorem modPower_pool (g : Power → Power) (s : State) : (modPower g s).pool = s.pool := by rfl
@[simp] theorem modPower_anneal (g : Power → Power) (s : State) : (modPower g s).anneal = s.anneal := by rfl
@[simp] theorem modPower_power (g : Power → Power) (s : State) : (modPower g s).power = g s.power := by rfl
@[simp] theorem modPower_crier (g : Power → Power) (s : State) : (modPower g s).crier = s.crier := by rfl
@[simp] theorem modPower_ledger (g : Power → Power) (s : State) : (modPower g s).ledger = s.ledger := by rfl
@[simp] theorem modPower_panel (g : Power → Power) (s : State) : (modPower g s).panel = s.panel := by rfl
@[simp] theorem modPower_fw (g : Power → Power) (s : State) : (modPower g s).fw = s.fw := by rfl
@[simp] theorem modPower_mail (g : Power → Power) (s : State) : (modPower g s).mail = s.mail := by rfl
@[simp] theorem modPower_ev (g : Power → Power) (s : State) : (modPower g s).ev = s.ev := by rfl
@[simp] theorem modPower_ctr (g : Power → Power) (s : State) : (modPower g s).ctr = s.ctr := by rfl
@[simp] theorem modPower_once (g : Power → Power) (s : State) : (modPower g s).once = s.once := by rfl
@[simp] theorem modPower_free (g : Power → Power) (s : State) : (modPower g s).free = s.free := by rfl
@[simp] theorem modPower_out (g : Power → Power) (s : State) : (modPower g s).out = s.out := by rfl
@[simp] theorem modCrier_pending (g : Crier → Crier) (s : State) : (modCrier g s).pending = s.pending := by rfl
@[simp] theorem modCrier_reel (g : Crier → Crier) (s : State) : (modCrier g s).reel = s.reel := by rfl
@[simp] theorem modCrier_sched (g : Crier → Crier) (s : State) : (modCrier g s).sched = s.sched := by rfl
@[simp] theorem modCrier_tray (g : Crier → Crier) (s : State) : (modCrier g s).tray = s.tray := by rfl
@[simp] theorem modCrier_ports (g : Crier → Crier) (s : State) : (modCrier g s).ports = s.ports := by rfl
@[simp] theorem modCrier_links (g : Crier → Crier) (s : State) : (modCrier g s).links = s.links := by rfl
@[simp] theorem modCrier_punits (g : Crier → Crier) (s : State) : (modCrier g s).punits = s.punits := by rfl
@[simp] theorem modCrier_units (g : Crier → Crier) (s : State) : (modCrier g s).units = s.units := by rfl
@[simp] theorem modCrier_asics (g : Crier → Crier) (s : State) : (modCrier g s).asics = s.asics := by rfl
@[simp] theorem modCrier_eq (g : Crier → Crier) (s : State) : (modCrier g s).eq = s.eq := by rfl
@[simp] theorem modCrier_fwd (g : Crier → Crier) (s : State) : (modCrier g s).fwd = s.fwd := by rfl
@[simp] theorem modCrier_plan (g : Crier → Crier) (s : State) : (modCrier g s).plan = s.plan := by rfl
@[simp] theorem modCrier_twine (g : Crier → Crier) (s : State) : (modCrier g s).twine = s.twine := by rfl
@[simp] theorem modCrier_pool (g : Crier → Crier) (s : State) : (modCrier g s).pool = s.pool := by rfl
@[simp] theorem modCrier_anneal (g : Crier → Crier) (s : State) : (modCrier g s).anneal = s.anneal := by rfl
@[simp] theorem modCrier_power (g : Crier → Crier) (s : State) : (modCrier g s).power = s.power := by rfl
@[simp] theorem modCrier_crier (g : Crier → Crier) (s : State) : (modCrier g s).crier = g s.crier := by rfl
@[simp] theorem modCrier_ledger (g : Crier → Crier) (s : State) : (modCrier g s).ledger = s.ledger := by rfl
@[simp] theorem modCrier_panel (g : Crier → Crier) (s : State) : (modCrier g s).panel = s.panel := by rfl
@[simp] theorem modCrier_fw (g : Crier → Crier) (s : State) : (modCrier g s).fw = s.fw := by rfl
@[simp] theorem modCrier_mail (g : Crier → Crier) (s : State) : (modCrier g s).mail = s.mail := by rfl
@[simp] theorem modCrier_ev (g : Crier → Crier) (s : State) : (modCrier g s).ev = s.ev := by rfl
@[simp] theorem modCrier_ctr (g : Crier → Crier) (s : State) : (modCrier g s).ctr = s.ctr := by rfl
@[simp] theorem modCrier_once (g : Crier → Crier) (s : State) : (modCrier g s).once = s.once := by rfl
@[simp] theorem modCrier_free (g : Crier → Crier) (s : State) : (modCrier g s).free = s.free := by rfl
@[simp] theorem modCrier_out (g : Crier → Crier) (s : State) : (modCrier g s).out = s.out := by rfl
@[simp] theorem modLedger_pending (g : Ledger → Ledger) (s : State) : (modLedger g s).pending = s.pending := by rfl
@[simp] theorem modLedger_reel (g : Ledger → Ledger) (s : State) : (modLedger g s).reel = s.reel := by rfl
@[simp] theorem modLedger_sched (g : Ledger → Ledger) (s : State) : (modLedger g s).sched = s.sched := by rfl
@[simp] theorem modLedger_tray (g : Ledger → Ledger) (s : State) : (modLedger g s).tray = s.tray := by rfl
@[simp] theorem modLedger_ports (g : Ledger → Ledger) (s : State) : (modLedger g s).ports = s.ports := by rfl
@[simp] theorem modLedger_links (g : Ledger → Ledger) (s : State) : (modLedger g s).links = s.links := by rfl
@[simp] theorem modLedger_punits (g : Ledger → Ledger) (s : State) : (modLedger g s).punits = s.punits := by rfl
@[simp] theorem modLedger_units (g : Ledger → Ledger) (s : State) : (modLedger g s).units = s.units := by rfl
@[simp] theorem modLedger_asics (g : Ledger → Ledger) (s : State) : (modLedger g s).asics = s.asics := by rfl
@[simp] theorem modLedger_eq (g : Ledger → Ledger) (s : State) : (modLedger g s).eq = s.eq := by rfl
@[simp] theorem modLedger_fwd (g : Ledger → Ledger) (s : State) : (modLedger g s).fwd = s.fwd := by rfl
@[simp] theorem modLedger_plan (g : Ledger → Ledger) (s : State) : (modLedger g s).plan = s.plan := by rfl
@[simp] theorem modLedger_twine (g : Ledger → Ledger) (s : State) : (modLedger g s).twine = s.twine := by rfl
@[simp] theorem modLedger_pool (g : Ledger → Ledger) (s : State) : (modLedger g s).pool = s.pool := by rfl
@[simp] theorem modLedger_anneal (g : Ledger → Ledger) (s : State) : (modLedger g s).anneal = s.anneal := by rfl
@[simp] theorem modLedger_power (g : Ledger → Ledger) (s : State) : (modLedger g s).power = s.power := by rfl
@[simp] theorem modLedger_crier (g : Ledger → Ledger) (s : State) : (modLedger g s).crier = s.crier := by rfl
@[simp] theorem modLedger_ledger (g : Ledger → Ledger) (s : State) : (modLedger g s).ledger = g s.ledger := by rfl
@[simp] theorem modLedger_panel (g : Ledger → Ledger) (s : State) : (modLedger g s).panel = s.panel := by rfl
@[simp] theorem modLedger_fw (g : Ledger → Ledger) (s : State) : (modLedger g s).fw = s.fw := by rfl
@[simp] theorem modLedger_mail (g : Ledger → Ledger) (s : State) : (modLedger g s).mail = s.mail := by rfl
@[simp] theorem modLedger_ev (g : Ledger → Ledger) (s : State) : (modLedger g s).ev = s.ev := by rfl
@[simp] theorem modLedger_ctr (g : Ledger → Ledger) (s : State) : (modLedger g s).ctr = s.ctr := by rfl
@[simp] theorem modLedger_once (g : Ledger → Ledger) (s : State) : (modLedger g s).once = s.once := by rfl
@[simp] theorem modLedger_free (g : Ledger → Ledger) (s : State) : (modLedger g s).free = s.free := by rfl
@[simp] theorem modLedger_out (g : Ledger → Ledger) (s : State) : (modLedger g s).out = s.out := by rfl
@[simp] theorem modPanel_pending (g : Panel → Panel) (s : State) : (modPanel g s).pending = s.pending := by rfl
@[simp] theorem modPanel_reel (g : Panel → Panel) (s : State) : (modPanel g s).reel = s.reel := by rfl
@[simp] theorem modPanel_sched (g : Panel → Panel) (s : State) : (modPanel g s).sched = s.sched := by rfl
@[simp] theorem modPanel_tray (g : Panel → Panel) (s : State) : (modPanel g s).tray = s.tray := by rfl
@[simp] theorem modPanel_ports (g : Panel → Panel) (s : State) : (modPanel g s).ports = s.ports := by rfl
@[simp] theorem modPanel_links (g : Panel → Panel) (s : State) : (modPanel g s).links = s.links := by rfl
@[simp] theorem modPanel_punits (g : Panel → Panel) (s : State) : (modPanel g s).punits = s.punits := by rfl
@[simp] theorem modPanel_units (g : Panel → Panel) (s : State) : (modPanel g s).units = s.units := by rfl
@[simp] theorem modPanel_asics (g : Panel → Panel) (s : State) : (modPanel g s).asics = s.asics := by rfl
@[simp] theorem modPanel_eq (g : Panel → Panel) (s : State) : (modPanel g s).eq = s.eq := by rfl
@[simp] theorem modPanel_fwd (g : Panel → Panel) (s : State) : (modPanel g s).fwd = s.fwd := by rfl
@[simp] theorem modPanel_plan (g : Panel → Panel) (s : State) : (modPanel g s).plan = s.plan := by rfl
@[simp] theorem modPanel_twine (g : Panel → Panel) (s : State) : (modPanel g s).twine = s.twine := by rfl
@[simp] theorem modPanel_pool (g : Panel → Panel) (s : State) : (modPanel g s).pool = s.pool := by rfl
@[simp] theorem modPanel_anneal (g : Panel → Panel) (s : State) : (modPanel g s).anneal = s.anneal := by rfl
@[simp] theorem modPanel_power (g : Panel → Panel) (s : State) : (modPanel g s).power = s.power := by rfl
@[simp] theorem modPanel_crier (g : Panel → Panel) (s : State) : (modPanel g s).crier = s.crier := by rfl
@[simp] theorem modPanel_ledger (g : Panel → Panel) (s : State) : (modPanel g s).ledger = s.ledger := by rfl
@[simp] theorem modPanel_panel (g : Panel → Panel) (s : State) : (modPanel g s).panel = g s.panel := by rfl
@[simp] theorem modPanel_fw (g : Panel → Panel) (s : State) : (modPanel g s).fw = s.fw := by rfl
@[simp] theorem modPanel_mail (g : Panel → Panel) (s : State) : (modPanel g s).mail = s.mail := by rfl
@[simp] theorem modPanel_ev (g : Panel → Panel) (s : State) : (modPanel g s).ev = s.ev := by rfl
@[simp] theorem modPanel_ctr (g : Panel → Panel) (s : State) : (modPanel g s).ctr = s.ctr := by rfl
@[simp] theorem modPanel_once (g : Panel → Panel) (s : State) : (modPanel g s).once = s.once := by rfl
@[simp] theorem modPanel_free (g : Panel → Panel) (s : State) : (modPanel g s).free = s.free := by rfl
@[simp] theorem modPanel_out (g : Panel → Panel) (s : State) : (modPanel g s).out = s.out := by rfl
@[simp] theorem modFw_pending (g : Fw → Fw) (s : State) : (modFw g s).pending = s.pending := by rfl
@[simp] theorem modFw_reel (g : Fw → Fw) (s : State) : (modFw g s).reel = s.reel := by rfl
@[simp] theorem modFw_sched (g : Fw → Fw) (s : State) : (modFw g s).sched = s.sched := by rfl
@[simp] theorem modFw_tray (g : Fw → Fw) (s : State) : (modFw g s).tray = s.tray := by rfl
@[simp] theorem modFw_ports (g : Fw → Fw) (s : State) : (modFw g s).ports = s.ports := by rfl
@[simp] theorem modFw_links (g : Fw → Fw) (s : State) : (modFw g s).links = s.links := by rfl
@[simp] theorem modFw_punits (g : Fw → Fw) (s : State) : (modFw g s).punits = s.punits := by rfl
@[simp] theorem modFw_units (g : Fw → Fw) (s : State) : (modFw g s).units = s.units := by rfl
@[simp] theorem modFw_asics (g : Fw → Fw) (s : State) : (modFw g s).asics = s.asics := by rfl
@[simp] theorem modFw_eq (g : Fw → Fw) (s : State) : (modFw g s).eq = s.eq := by rfl
@[simp] theorem modFw_fwd (g : Fw → Fw) (s : State) : (modFw g s).fwd = s.fwd := by rfl
@[simp] theorem modFw_plan (g : Fw → Fw) (s : State) : (modFw g s).plan = s.plan := by rfl
@[simp] theorem modFw_twine (g : Fw → Fw) (s : State) : (modFw g s).twine = s.twine := by rfl
@[simp] theorem modFw_pool (g : Fw → Fw) (s : State) : (modFw g s).pool = s.pool := by rfl
@[simp] theorem modFw_anneal (g : Fw → Fw) (s : State) : (modFw g s).anneal = s.anneal := by rfl
@[simp] theorem modFw_power (g : Fw → Fw) (s : State) : (modFw g s).power = s.power := by rfl
@[simp] theorem modFw_crier (g : Fw → Fw) (s : State) : (modFw g s).crier = s.crier := by rfl
@[simp] theorem modFw_ledger (g : Fw → Fw) (s : State) : (modFw g s).ledger = s.ledger := by rfl
@[simp] theorem modFw_panel (g : Fw → Fw) (s : State) : (modFw g s).panel = s.panel := by rfl
@[simp] theorem modFw_fw (g : Fw → Fw) (s : State) : (modFw g s).fw = g s.fw := by rfl
@[simp] theorem modFw_mail (g : Fw → Fw) (s : State) : (modFw g s).mail = s.mail := by rfl
@[simp] theorem modFw_ev (g : Fw → Fw) (s : State) : (modFw g s).ev = s.ev := by rfl
@[simp] theorem modFw_ctr (g : Fw → Fw) (s : State) : (modFw g s).ctr = s.ctr := by rfl
@[simp] theorem modFw_once (g : Fw → Fw) (s : State) : (modFw g s).once = s.once := by rfl
@[simp] theorem modFw_free (g : Fw → Fw) (s : State) : (modFw g s).free = s.free := by rfl
@[simp] theorem modFw_out (g : Fw → Fw) (s : State) : (modFw g s).out = s.out := by rfl
@[simp] theorem modMail_pending (g : Mail → Mail) (s : State) : (modMail g s).pending = s.pending := by rfl
@[simp] theorem modMail_reel (g : Mail → Mail) (s : State) : (modMail g s).reel = s.reel := by rfl
@[simp] theorem modMail_sched (g : Mail → Mail) (s : State) : (modMail g s).sched = s.sched := by rfl
@[simp] theorem modMail_tray (g : Mail → Mail) (s : State) : (modMail g s).tray = s.tray := by rfl
@[simp] theorem modMail_ports (g : Mail → Mail) (s : State) : (modMail g s).ports = s.ports := by rfl
@[simp] theorem modMail_links (g : Mail → Mail) (s : State) : (modMail g s).links = s.links := by rfl
@[simp] theorem modMail_punits (g : Mail → Mail) (s : State) : (modMail g s).punits = s.punits := by rfl
@[simp] theorem modMail_units (g : Mail → Mail) (s : State) : (modMail g s).units = s.units := by rfl
@[simp] theorem modMail_asics (g : Mail → Mail) (s : State) : (modMail g s).asics = s.asics := by rfl
@[simp] theorem modMail_eq (g : Mail → Mail) (s : State) : (modMail g s).eq = s.eq := by rfl
@[simp] theorem modMail_fwd (g : Mail → Mail) (s : State) : (modMail g s).fwd = s.fwd := by rfl
@[simp] theorem modMail_plan (g : Mail → Mail) (s : State) : (modMail g s).plan = s.plan := by rfl
@[simp] theorem modMail_twine (g : Mail → Mail) (s : State) : (modMail g s).twine = s.twine := by rfl
@[simp] theorem modMail_pool (g : Mail → Mail) (s : State) : (modMail g s).pool = s.pool := by rfl
@[simp] theorem modMail_anneal (g : Mail → Mail) (s : State) : (modMail g s).anneal = s.anneal := by rfl
@[simp] theorem modMail_power (g : Mail → Mail) (s : State) : (modMail g s).power = s.power := by rfl
@[simp] theorem modMail_crier (g : Mail → Mail) (s : State) : (modMail g s).crier = s.crier := by rfl
@[simp] theorem modMail_ledger (g : Mail → Mail) (s : State) : (modMail g s).ledger = s.ledger := by rfl
@[simp] theorem modMail_panel (g : Mail → Mail) (s : State) : (modMail g s).panel = s.panel := by rfl
@[simp] theorem modMail_fw (g : Mail → Mail) (s : State) : (modMail g s).fw = s.fw := by rfl
@[simp] theorem modMail_mail (g : Mail → Mail) (s : State) : (modMail g s).mail = g s.mail := by rfl
@[simp] theorem modMail_ev (g : Mail → Mail) (s : State) : (modMail g s).ev = s.ev := by rfl
@[simp] theorem modMail_ctr (g : Mail → Mail) (s : State) : (modMail g s).ctr = s.ctr := by rfl
@[simp] theorem modMail_once (g : Mail → Mail) (s : State) : (modMail g s).once = s.once := by rfl
@[simp] theorem modMail_free (g : Mail → Mail) (s : State) : (modMail g s).free = s.free := by rfl
@[simp] theorem modMail_out (g : Mail → Mail) (s : State) : (modMail g s).out = s.out := by rfl
@[simp] theorem modEv_pending (g : Events → Events) (s : State) : (modEv g s).pending = s.pending := by rfl
@[simp] theorem modEv_reel (g : Events → Events) (s : State) : (modEv g s).reel = s.reel := by rfl
@[simp] theorem modEv_sched (g : Events → Events) (s : State) : (modEv g s).sched = s.sched := by rfl
@[simp] theorem modEv_tray (g : Events → Events) (s : State) : (modEv g s).tray = s.tray := by rfl
@[simp] theorem modEv_ports (g : Events → Events) (s : State) : (modEv g s).ports = s.ports := by rfl
@[simp] theorem modEv_links (g : Events → Events) (s : State) : (modEv g s).links = s.links := by rfl
@[simp] theorem modEv_punits (g : Events → Events) (s : State) : (modEv g s).punits = s.punits := by rfl
@[simp] theorem modEv_units (g : Events → Events) (s : State) : (modEv g s).units = s.units := by rfl
@[simp] theorem modEv_asics (g : Events → Events) (s : State) : (modEv g s).asics = s.asics := by rfl
@[simp] theorem modEv_eq (g : Events → Events) (s : State) : (modEv g s).eq = s.eq := by rfl
@[simp] theorem modEv_fwd (g : Events → Events) (s : State) : (modEv g s).fwd = s.fwd := by rfl
@[simp] theorem modEv_plan (g : Events → Events) (s : State) : (modEv g s).plan = s.plan := by rfl
@[simp] theorem modEv_twine (g : Events → Events) (s : State) : (modEv g s).twine = s.twine := by rfl
@[simp] theorem modEv_pool (g : Events → Events) (s : State) : (modEv g s).pool = s.pool := by rfl
@[simp] theorem modEv_anneal (g : Events → Events) (s : State) : (modEv g s).anneal = s.anneal := by rfl
@[simp] theorem modEv_power (g : Events → Events) (s : State) : (modEv g s).power = s.power := by rfl
@[simp] theorem modEv_crier (g : Events → Events) (s : State) : (modEv g s).crier = s.crier := by rfl
@[simp] theorem modEv_ledger (g : Events → Events) (s : State) : (modEv g s).ledger = s.ledger := by rfl
@[simp] theorem modEv_panel (g : Events → Events) (s : State) : (modEv g s).panel = s.panel := by rfl
@[simp] theorem modEv_fw (g : Events → Events) (s : State) : (modEv g s).fw = s.fw := by rfl
@[simp] theorem modEv_mail (g : Events → Events) (s : State) : (modEv g s).mail = s.mail := by rfl
@[simp] theorem modEv_ev (g : Events → Events) (s : State) : (modEv g s).ev = g s.ev := by rfl
@[simp] theorem modEv_ctr (g : Events → Events) (s : State) : (modEv g s).ctr = s.ctr := by rfl
@[simp] theorem modEv_once (g : Events → Events) (s : State) : (modEv g s).once = s.once := by rfl
@[simp] theorem modEv_free (g : Events → Events) (s : State) : (modEv g s).free = s.free := by rfl
@[simp] theorem modEv_out (g : Events → Events) (s : State) : (modEv g s).out = s.out := by rfl
@[simp] theorem modCtr_pending (g : Counters → Counters) (s : State) : (modCtr g s).pending = s.pending := by rfl
@[simp] theorem modCtr_reel (g : Counters → Counters) (s : State) : (modCtr g s).reel = s.reel := by rfl
@[simp] theorem modCtr_sched (g : Counters → Counters) (s : State) : (modCtr g s).sched = s.sched := by rfl
@[simp] theorem modCtr_tray (g : Counters → Counters) (s : State) : (modCtr g s).tray = s.tray := by rfl
@[simp] theorem modCtr_ports (g : Counters → Counters) (s : State) : (modCtr g s).ports = s.ports := by rfl
@[simp] theorem modCtr_links (g : Counters → Counters) (s : State) : (modCtr g s).links = s.links := by rfl
@[simp] theorem modCtr_punits (g : Counters → Counters) (s : State) : (modCtr g s).punits = s.punits := by rfl
@[simp] theorem modCtr_units (g : Counters → Counters) (s : State) : (modCtr g s).units = s.units := by rfl
@[simp] theorem modCtr_asics (g : Counters → Counters) (s : State) : (modCtr g s).asics = s.asics := by rfl
@[simp] theorem modCtr_eq (g : Counters → Counters) (s : State) : (modCtr g s).eq = s.eq := by rfl
@[simp] theorem modCtr_fwd (g : Counters → Counters) (s : State) : (modCtr g s).fwd = s.fwd := by rfl
@[simp] theorem modCtr_plan (g : Counters → Counters) (s : State) : (modCtr g s).plan = s.plan := by rfl
@[simp] theorem modCtr_twine (g : Counters → Counters) (s : State) : (modCtr g s).twine = s.twine := by rfl
@[simp] theorem modCtr_pool (g : Counters → Counters) (s : State) : (modCtr g s).pool = s.pool := by rfl
@[simp] theorem modCtr_anneal (g : Counters → Counters) (s : State) : (modCtr g s).anneal = s.anneal := by rfl
@[simp] theorem modCtr_power (g : Counters → Counters) (s : State) : (modCtr g s).power = s.power := by rfl
@[simp] theorem modCtr_crier (g : Counters → Counters) (s : State) : (modCtr g s).crier = s.crier := by rfl
@[simp] theorem modCtr_ledger (g : Counters → Counters) (s : State) : (modCtr g s).ledger = s.ledger := by rfl
@[simp] theorem modCtr_panel (g : Counters → Counters) (s : State) : (modCtr g s).panel = s.panel := by rfl
@[simp] theorem modCtr_fw (g : Counters → Counters) (s : State) : (modCtr g s).fw = s.fw := by rfl
@[simp] theorem modCtr_mail (g : Counters → Counters) (s : State) : (modCtr g s).mail = s.mail := by rfl
@[simp] theorem modCtr_ev (g : Counters → Counters) (s : State) : (modCtr g s).ev = s.ev := by rfl
@[simp] theorem modCtr_ctr (g : Counters → Counters) (s : State) : (modCtr g s).ctr = g s.ctr := by rfl
@[simp] theorem modCtr_once (g : Counters → Counters) (s : State) : (modCtr g s).once = s.once := by rfl
@[simp] theorem modCtr_free (g : Counters → Counters) (s : State) : (modCtr g s).free = s.free := by rfl
@[simp] theorem modCtr_out (g : Counters → Counters) (s : State) : (modCtr g s).out = s.out := by rfl
@[simp] theorem modPort_pending (u : Nat) (g : Port → Port) (s : State) : (modPort u g s).pending = s.pending := by rfl
@[simp] theorem modPort_reel (u : Nat) (g : Port → Port) (s : State) : (modPort u g s).reel = s.reel := by rfl
@[simp] theorem modPort_sched (u : Nat) (g : Port → Port) (s : State) : (modPort u g s).sched = s.sched := by rfl
@[simp] theorem modPort_tray (u : Nat) (g : Port → Port) (s : State) : (modPort u g s).tray = s.tray := by rfl
@[simp] theorem modPort_ports (u : Nat) (g : Port → Port) (s : State) : (modPort u g s).ports = tabMod {} s.ports u g := by rfl
@[simp] theorem modPort_links (u : Nat) (g : Port → Port) (s : State) : (modPort u g s).links = s.links := by rfl
@[simp] theorem modPort_punits (u : Nat) (g : Port → Port) (s : State) : (modPort u g s).punits = s.punits := by rfl
@[simp] theorem modPort_units (u : Nat) (g : Port → Port) (s : State) : (modPort u g s).units = s.units := by rfl
@[simp] theorem modPort_asics (u : Nat) (g : Port → Port) (s : State) : (modPort u g s).asics = s.asics := by rfl
@[simp] theorem modPort_eq (u : Nat) (g : Port → Port) (s : State) : (modPort u g s).eq = s.eq := by rfl
@[simp] theorem modPort_fwd (u : Nat) (g : Port → Port) (s : State) : (modPort u g s).fwd = s.fwd := by rfl
@[simp] theorem modPort_plan (u : Nat) (g : Port → Port) (s : State) : (modPort u g s).plan = s.plan := by rfl
@[simp] theorem modPort_twine (u : Nat) (g : Port → Port) (s : State) : (modPort u g s).twine = s.twine := by rfl
@[simp] theorem modPort_pool (u : Nat) (g : Port → Port) (s : State) : (modPort u g s).pool = s.pool := by rfl
@[simp] theorem modPort_anneal (u : Nat) (g : Port → Port) (s : State) : (modPort u g s).anneal = s.anneal := by rfl
@[simp] theorem modPort_power (u : Nat) (g : Port → Port) (s : State) : (modPort u g s).power = s.power := by rfl
@[simp] theorem modPort_crier (u : Nat) (g : Port → Port) (s : State) : (modPort u g s).crier = s.crier := by rfl
@[simp] theorem modPort_ledger (u : Nat) (g : Port → Port) (s : State) : (modPort u g s).ledger = s.ledger := by rfl
@[simp] theorem modPort_panel (u : Nat) (g : Port → Port) (s : State) : (modPort u g s).panel = s.panel := by rfl
@[simp] theorem modPort_fw (u : Nat) (g : Port → Port) (s : State) : (modPort u g s).fw = s.fw := by rfl
@[simp] theorem modPort_mail (u : Nat) (g : Port → Port) (s : State) : (modPort u g s).mail = s.mail := by rfl
@[simp] theorem modPort_ev (u : Nat) (g : Port → Port) (s : State) : (modPort u g s).ev = s.ev := by rfl
@[simp] theorem modPort_ctr (u : Nat) (g : Port → Port) (s : State) : (modPort u g s).ctr = s.ctr := by rfl
@[simp] theorem modPort_once (u : Nat) (g : Port → Port) (s : State) : (modPort u g s).once = s.once := by rfl
@[simp] theorem modPort_free (u : Nat) (g : Port → Port) (s : State) : (modPort u g s).free = s.free := by rfl
@[simp] theorem modPort_out (u : Nat) (g : Port → Port) (s : State) : (modPort u g s).out = s.out := by rfl
@[simp] theorem modLink_pending (u : Nat) (g : Link → Link) (s : State) : (modLink u g s).pending = s.pending := by rfl
@[simp] theorem modLink_reel (u : Nat) (g : Link → Link) (s : State) : (modLink u g s).reel = s.reel := by rfl
@[simp] theorem modLink_sched (u : Nat) (g : Link → Link) (s : State) : (modLink u g s).sched = s.sched := by rfl
@[simp] theorem modLink_tray (u : Nat) (g : Link → Link) (s : State) : (modLink u g s).tray = s.tray := by rfl
@[simp] theorem modLink_ports (u : Nat) (g : Link → Link) (s : State) : (modLink u g s).ports = s.ports := by rfl
@[simp] theorem modLink_links (u : Nat) (g : Link → Link) (s : State) : (modLink u g s).links = tabMod {} s.links u g := by rfl
@[simp] theorem modLink_punits (u : Nat) (g : Link → Link) (s : State) : (modLink u g s).punits = s.punits := by rfl
@[simp] theorem modLink_units (u : Nat) (g : Link → Link) (s : State) : (modLink u g s).units = s.units := by rfl
@[simp] theorem modLink_asics (u : Nat) (g : Link → Link) (s : State) : (modLink u g s).asics = s.asics := by rfl
@[simp] theorem modLink_eq (u : Nat) (g : Link → Link) (s : State) : (modLink u g s).eq = s.eq := by rfl
@[simp] theorem modLink_fwd (u : Nat) (g : Link → Link) (s : State) : (modLink u g s).fwd = s.fwd := by rfl
@[simp] theorem modLink_plan (u : Nat) (g : Link → Link) (s : State) : (modLink u g s).plan = s.plan := by rfl
@[simp] theorem modLink_twine (u : Nat) (g : Link → Link) (s : State) : (modLink u g s).twine = s.twine := by rfl
@[simp] theorem modLink_pool (u : Nat) (g : Link → Link) (s : State) : (modLink u g s).pool = s.pool := by rfl
@[simp] theorem modLink_anneal (u : Nat) (g : Link → Link) (s : State) : (modLink u g s).anneal = s.anneal := by rfl
@[simp] theorem modLink_power (u : Nat) (g : Link → Link) (s : State) : (modLink u g s).power = s.power := by rfl
@[simp] theorem modLink_crier (u : Nat) (g : Link → Link) (s : State) : (modLink u g s).crier = s.crier := by rfl
@[simp] theorem modLink_ledger (u : Nat) (g : Link → Link) (s : State) : (modLink u g s).ledger = s.ledger := by rfl
@[simp] theorem modLink_panel (u : Nat) (g : Link → Link) (s : State) : (modLink u g s).panel = s.panel := by rfl
@[simp] theorem modLink_fw (u : Nat) (g : Link → Link) (s : State) : (modLink u g s).fw = s.fw := by rfl
@[simp] theorem modLink_mail (u : Nat) (g : Link → Link) (s : State) : (modLink u g s).mail = s.mail := by rfl
@[simp] theorem modLink_ev (u : Nat) (g : Link → Link) (s : State) : (modLink u g s).ev = s.ev := by rfl
@[simp] theorem modLink_ctr (u : Nat) (g : Link → Link) (s : State) : (modLink u g s).ctr = s.ctr := by rfl
@[simp] theorem modLink_once (u : Nat) (g : Link → Link) (s : State) : (modLink u g s).once = s.once := by rfl
@[simp] theorem modLink_free (u : Nat) (g : Link → Link) (s : State) : (modLink u g s).free = s.free := by rfl
@[simp] theorem modLink_out (u : Nat) (g : Link → Link) (s : State) : (modLink u g s).out = s.out := by rfl
@[simp] theorem modPunit_pending (u : Nat) (g : PortUnit → PortUnit) (s : State) : (modPunit u g s).pending = s.pending := by rfl
@[simp] theorem modPunit_reel (u : Nat) (g : PortUnit → PortUnit) (s : State) : (modPunit u g s).reel = s.reel := by rfl
@[simp] theorem modPunit_sched (u : Nat) (g : PortUnit → PortUnit) (s : State) : (modPunit u g s).sched = s.sched := by rfl
@[simp] theorem modPunit_tray (u : Nat) (g : PortUnit → PortUnit) (s : State) : (modPunit u g s).tray = s.tray := by rfl
@[simp] theorem modPunit_ports (u : Nat) (g : PortUnit → PortUnit) (s : State) : (modPunit u g s).ports = s.ports := by rfl
@[simp] theorem modPunit_links (u : Nat) (g : PortUnit → PortUnit) (s : State) : (modPunit u g s).links = s.links := by rfl
@[simp] theorem modPunit_punits (u : Nat) (g : PortUnit → PortUnit) (s : State) : (modPunit u g s).punits = tabMod {} s.punits u g := by rfl
@[simp] theorem modPunit_units (u : Nat) (g : PortUnit → PortUnit) (s : State) : (modPunit u g s).units = s.units := by rfl
@[simp] theorem modPunit_asics (u : Nat) (g : PortUnit → PortUnit) (s : State) : (modPunit u g s).asics = s.asics := by rfl
@[simp] theorem modPunit_eq (u : Nat) (g : PortUnit → PortUnit) (s : State) : (modPunit u g s).eq = s.eq := by rfl
@[simp] theorem modPunit_fwd (u : Nat) (g : PortUnit → PortUnit) (s : State) : (modPunit u g s).fwd = s.fwd := by rfl
@[simp] theorem modPunit_plan (u : Nat) (g : PortUnit → PortUnit) (s : State) : (modPunit u g s).plan = s.plan := by rfl
@[simp] theorem modPunit_twine (u : Nat) (g : PortUnit → PortUnit) (s : State) : (modPunit u g s).twine = s.twine := by rfl
@[simp] theorem modPunit_pool (u : Nat) (g : PortUnit → PortUnit) (s : State) : (modPunit u g s).pool = s.pool := by rfl
@[simp] theorem modPunit_anneal (u : Nat) (g : PortUnit → PortUnit) (s : State) : (modPunit u g s).anneal = s.anneal := by rfl
@[simp] theorem modPunit_power (u : Nat) (g : PortUnit → PortUnit) (s : State) : (modPunit u g s).power = s.power := by rfl
@[simp] theorem modPunit_crier (u : Nat) (g : PortUnit → PortUnit) (s : State) : (modPunit u g s).crier = s.crier := by rfl
@[simp] theorem modPunit_ledger (u : Nat) (g : PortUnit → PortUnit) (s : State) : (modPunit u g s).ledger = s.ledger := by rfl
@[simp] theorem modPunit_panel (u : Nat) (g : PortUnit → PortUnit) (s : State) : (modPunit u g s).panel = s.panel := by rfl
@[simp] theorem modPunit_fw (u : Nat) (g : PortUnit → PortUnit) (s : State) : (modPunit u g s).fw = s.fw := by rfl
@[simp] theorem modPunit_mail (u : Nat) (g : PortUnit → PortUnit) (s : State) : (modPunit u g s).mail = s.mail := by rfl
@[simp] theorem modPunit_ev (u : Nat) (g : PortUnit → PortUnit) (s : State) : (modPunit u g s).ev = s.ev := by rfl
@[simp] theorem modPunit_ctr (u : Nat) (g : PortUnit → PortUnit) (s : State) : (modPunit u g s).ctr = s.ctr := by rfl
@[simp] theorem modPunit_once (u : Nat) (g : PortUnit → PortUnit) (s : State) : (modPunit u g s).once = s.once := by rfl
@[simp] theorem modPunit_free (u : Nat) (g : PortUnit → PortUnit) (s : State) : (modPunit u g s).free = s.free := by rfl
@[simp] theorem modPunit_out (u : Nat) (g : PortUnit → PortUnit) (s : State) : (modPunit u g s).out = s.out := by rfl
@[simp] theorem modAux_pending (u : Nat) (g : UnitAux → UnitAux) (s : State) : (modAux u g s).pending = s.pending := by rfl
@[simp] theorem modAux_reel (u : Nat) (g : UnitAux → UnitAux) (s : State) : (modAux u g s).reel = s.reel := by rfl
@[simp] theorem modAux_sched (u : Nat) (g : UnitAux → UnitAux) (s : State) : (modAux u g s).sched = s.sched := by rfl
@[simp] theorem modAux_tray (u : Nat) (g : UnitAux → UnitAux) (s : State) : (modAux u g s).tray = s.tray := by rfl
@[simp] theorem modAux_ports (u : Nat) (g : UnitAux → UnitAux) (s : State) : (modAux u g s).ports = s.ports := by rfl
@[simp] theorem modAux_links (u : Nat) (g : UnitAux → UnitAux) (s : State) : (modAux u g s).links = s.links := by rfl
@[simp] theorem modAux_punits (u : Nat) (g : UnitAux → UnitAux) (s : State) : (modAux u g s).punits = s.punits := by rfl
@[simp] theorem modAux_units (u : Nat) (g : UnitAux → UnitAux) (s : State) : (modAux u g s).units = tabMod {} s.units u g := by rfl
@[simp] theorem modAux_asics (u : Nat) (g : UnitAux → UnitAux) (s : State) : (modAux u g s).asics = s.asics := by rfl
@[simp] theorem modAux_eq (u : Nat) (g : UnitAux → UnitAux) (s : State) : (modAux u g s).eq = s.eq := by rfl
@[simp] theorem modAux_fwd (u : Nat) (g : UnitAux → UnitAux) (s : State) : (modAux u g s).fwd = s.fwd := by rfl
@[simp] theorem modAux_plan (u : Nat) (g : UnitAux → UnitAux) (s : State) : (modAux u g s).plan = s.plan := by rfl
@[simp] theorem modAux_twine (u : Nat) (g : UnitAux → UnitAux) (s : State) : (modAux u g s).twine = s.twine := by rfl
@[simp] theorem modAux_pool (u : Nat) (g : UnitAux → UnitAux) (s : State) : (modAux u g s).pool = s.pool := by rfl
@[simp] theorem modAux_anneal (u : Nat) (g : UnitAux → UnitAux) (s : State) : (modAux u g s).anneal = s.anneal := by rfl
@[simp] theorem modAux_power (u : Nat) (g : UnitAux → UnitAux) (s : State) : (modAux u g s).power = s.power := by rfl
@[simp] theorem modAux_crier (u : Nat) (g : UnitAux → UnitAux) (s : State) : (modAux u g s).crier = s.crier := by rfl
@[simp] theorem modAux_ledger (u : Nat) (g : UnitAux → UnitAux) (s : State) : (modAux u g s).ledger = s.ledger := by rfl
@[simp] theorem modAux_panel (u : Nat) (g : UnitAux → UnitAux) (s : State) : (modAux u g s).panel = s.panel := by rfl
@[simp] theorem modAux_fw (u : Nat) (g : UnitAux → UnitAux) (s : State) : (modAux u g s).fw = s.fw := by rfl
@[simp] theorem modAux_mail (u : Nat) (g : UnitAux → UnitAux) (s : State) : (modAux u g s).mail = s.mail := by rfl
@[simp] theorem modAux_ev (u : Nat) (g : UnitAux → UnitAux) (s : State) : (modAux u g s).ev = s.ev := by rfl
@[simp] theorem modAux_ctr (u : Nat) (g : UnitAux → UnitAux) (s : State) : (modAux u g s).ctr = s.ctr := by rfl
@[simp] theorem modAux_once (u : Nat) (g : UnitAux → UnitAux) (s : State) : (modAux u g s).once = s.once := by rfl
@[simp] theorem modAux_free (u : Nat) (g : UnitAux → UnitAux) (s : State) : (modAux u g s).free = s.free := by rfl
@[simp] theorem modAux_out (u : Nat) (g : UnitAux → UnitAux) (s : State) : (modAux u g s).out = s.out := by rfl
@[simp] theorem modAsic_pending (u : Nat) (g : Asic → Asic) (s : State) : (modAsic u g s).pending = s.pending := by rfl
@[simp] theorem modAsic_reel (u : Nat) (g : Asic → Asic) (s : State) : (modAsic u g s).reel = s.reel := by rfl
@[simp] theorem modAsic_sched (u : Nat) (g : Asic → Asic) (s : State) : (modAsic u g s).sched = s.sched := by rfl
@[simp] theorem modAsic_tray (u : Nat) (g : Asic → Asic) (s : State) : (modAsic u g s).tray = s.tray := by rfl
@[simp] theorem modAsic_ports (u : Nat) (g : Asic → Asic) (s : State) : (modAsic u g s).ports = s.ports := by rfl
@[simp] theorem modAsic_links (u : Nat) (g : Asic → Asic) (s : State) : (modAsic u g s).links = s.links := by rfl
@[simp] theorem modAsic_punits (u : Nat) (g : Asic → Asic) (s : State) : (modAsic u g s).punits = s.punits := by rfl
@[simp] theorem modAsic_units (u : Nat) (g : Asic → Asic) (s : State) : (modAsic u g s).units = s.units := by rfl
@[simp] theorem modAsic_asics (u : Nat) (g : Asic → Asic) (s : State) : (modAsic u g s).asics = tabMod {} s.asics u g := by rfl
@[simp] theorem modAsic_eq (u : Nat) (g : Asic → Asic) (s : State) : (modAsic u g s).eq = s.eq := by rfl
@[simp] theorem modAsic_fwd (u : Nat) (g : Asic → Asic) (s : State) : (modAsic u g s).fwd = s.fwd := by rfl
@[simp] theorem modAsic_plan (u : Nat) (g : Asic → Asic) (s : State) : (modAsic u g s).plan = s.plan := by rfl
@[simp] theorem modAsic_twine (u : Nat) (g : Asic → Asic) (s : State) : (modAsic u g s).twine = s.twine := by rfl
@[simp] theorem modAsic_pool (u : Nat) (g : Asic → Asic) (s : State) : (modAsic u g s).pool = s.pool := by rfl
@[simp] theorem modAsic_anneal (u : Nat) (g : Asic → Asic) (s : State) : (modAsic u g s).anneal = s.anneal := by rfl
@[simp] theorem modAsic_power (u : Nat) (g : Asic → Asic) (s : State) : (modAsic u g s).power = s.power := by rfl
@[simp] theorem modAsic_crier (u : Nat) (g : Asic → Asic) (s : State) : (modAsic u g s).crier = s.crier := by rfl
@[simp] theorem modAsic_ledger (u : Nat) (g : Asic → Asic) (s : State) : (modAsic u g s).ledger = s.ledger := by rfl
@[simp] theorem modAsic_panel (u : Nat) (g : Asic → Asic) (s : State) : (modAsic u g s).panel = s.panel := by rfl
@[simp] theorem modAsic_fw (u : Nat) (g : Asic → Asic) (s : State) : (modAsic u g s).fw = s.fw := by rfl
@[simp] theorem modAsic_mail (u : Nat) (g : Asic → Asic) (s : State) : (modAsic u g s).mail = s.mail := by rfl
@[simp] theorem modAsic_ev (u : Nat) (g : Asic → Asic) (s : State) : (modAsic u g s).ev = s.ev := by rfl
@[simp] theorem modAsic_ctr (u : Nat) (g : Asic → Asic) (s : State) : (modAsic u g s).ctr = s.ctr := by rfl
@[simp] theorem modAsic_once (u : Nat) (g : Asic → Asic) (s : State) : (modAsic u g s).once = s.once := by rfl
@[simp] theorem modAsic_free (u : Nat) (g : Asic → Asic) (s : State) : (modAsic u g s).free = s.free := by rfl
@[simp] theorem modAsic_out (u : Nat) (g : Asic → Asic) (s : State) : (modAsic u g s).out = s.out := by rfl
@[simp] theorem modBay_pending (b : Nat) (g : Bay → Bay) (s : State) : (modBay b g s).pending = s.pending := by rfl
@[simp] theorem modBay_reel (b : Nat) (g : Bay → Bay) (s : State) : (modBay b g s).reel = s.reel := by rfl
@[simp] theorem modBay_sched (b : Nat) (g : Bay → Bay) (s : State) : (modBay b g s).sched = s.sched := by rfl
@[simp] theorem modBay_tray (b : Nat) (g : Bay → Bay) (s : State) : (modBay b g s).tray = s.tray := by rfl
@[simp] theorem modBay_ports (b : Nat) (g : Bay → Bay) (s : State) : (modBay b g s).ports = s.ports := by rfl
@[simp] theorem modBay_links (b : Nat) (g : Bay → Bay) (s : State) : (modBay b g s).links = s.links := by rfl
@[simp] theorem modBay_punits (b : Nat) (g : Bay → Bay) (s : State) : (modBay b g s).punits = s.punits := by rfl
@[simp] theorem modBay_units (b : Nat) (g : Bay → Bay) (s : State) : (modBay b g s).units = s.units := by rfl
@[simp] theorem modBay_asics (b : Nat) (g : Bay → Bay) (s : State) : (modBay b g s).asics = s.asics := by rfl
@[simp] theorem modBay_eq (b : Nat) (g : Bay → Bay) (s : State) : (modBay b g s).eq = s.eq := by rfl
@[simp] theorem modBay_fwd (b : Nat) (g : Bay → Bay) (s : State) : (modBay b g s).fwd = s.fwd := by rfl
@[simp] theorem modBay_plan (b : Nat) (g : Bay → Bay) (s : State) : (modBay b g s).plan = s.plan := by rfl
@[simp] theorem modBay_twine (b : Nat) (g : Bay → Bay) (s : State) : (modBay b g s).twine = s.twine := by rfl
@[simp] theorem modBay_pool (b : Nat) (g : Bay → Bay) (s : State) : (modBay b g s).pool = s.pool := by rfl
@[simp] theorem modBay_anneal (b : Nat) (g : Bay → Bay) (s : State) : (modBay b g s).anneal = s.anneal := by rfl
@[simp] theorem modBay_power (b : Nat) (g : Bay → Bay) (s : State) : (modBay b g s).power = s.power := by rfl
@[simp] theorem modBay_crier (b : Nat) (g : Bay → Bay) (s : State) : (modBay b g s).crier = s.crier := by rfl
@[simp] theorem modBay_ledger (b : Nat) (g : Bay → Bay) (s : State) : (modBay b g s).ledger = s.ledger := by rfl
@[simp] theorem modBay_fw (b : Nat) (g : Bay → Bay) (s : State) : (modBay b g s).fw = s.fw := by rfl
@[simp] theorem modBay_mail (b : Nat) (g : Bay → Bay) (s : State) : (modBay b g s).mail = s.mail := by rfl
@[simp] theorem modBay_ev (b : Nat) (g : Bay → Bay) (s : State) : (modBay b g s).ev = s.ev := by rfl
@[simp] theorem modBay_ctr (b : Nat) (g : Bay → Bay) (s : State) : (modBay b g s).ctr = s.ctr := by rfl
@[simp] theorem modBay_once (b : Nat) (g : Bay → Bay) (s : State) : (modBay b g s).once = s.once := by rfl
@[simp] theorem modBay_free (b : Nat) (g : Bay → Bay) (s : State) : (modBay b g s).free = s.free := by rfl
@[simp] theorem modBay_out (b : Nat) (g : Bay → Bay) (s : State) : (modBay b g s).out = s.out := by rfl
@[simp] theorem setPort_pending (u : Nat) (p : Port) (s : State) : (setPort u p s).pending = s.pending := by rfl
@[simp] theorem setPort_reel (u : Nat) (p : Port) (s : State) : (setPort u p s).reel = s.reel := by rfl
@[simp] theorem setPort_sched (u : Nat) (p : Port) (s : State) : (setPort u p s).sched = s.sched := by rfl
@[simp] theorem setPort_tray (u : Nat) (p : Port) (s : State) : (setPort u p s).tray = s.tray := by rfl
@[simp] theorem setPort_links (u : Nat) (p : Port) (s : State) : (setPort u p s).links = s.links := by rfl
@[simp] theorem setPort_punits (u : Nat) (p : Port) (s : State) : (setPort u p s).punits = s.punits := by rfl
@[simp] theorem setPort_units (u : Nat) (p : Port) (s : State) : (setPort u p s).units = s.units := by rfl
@[simp] theorem setPort_asics (u : Nat) (p : Port) (s : State) : (setPort u p s).asics = s.asics := by rfl
@[simp] theorem setPort_eq (u : Nat) (p : Port) (s : State) : (setPort u p s).eq = s.eq := by rfl
@[simp] theorem setPort_fwd (u : Nat) (p : Port) (s : State) : (setPort u p s).fwd = s.fwd := by rfl
@[simp] theorem setPort_plan (u : Nat) (p : Port) (s : State) : (setPort u p s).plan = s.plan := by rfl
@[simp] theorem setPort_twine (u : Nat) (p : Port) (s : State) : (setPort u p s).twine = s.twine := by rfl
@[simp] theorem setPort_pool (u : Nat) (p : Port) (s : State) : (setPort u p s).pool = s.pool := by rfl
@[simp] theorem setPort_anneal (u : Nat) (p : Port) (s : State) : (setPort u p s).anneal = s.anneal := by rfl
@[simp] theorem setPort_power (u : Nat) (p : Port) (s : State) : (setPort u p s).power = s.power := by rfl
@[simp] theorem setPort_crier (u : Nat) (p : Port) (s : State) : (setPort u p s).crier = s.crier := by rfl
@[simp] theorem setPort_ledger (u : Nat) (p : Port) (s : State) : (setPort u p s).ledger = s.ledger := by rfl
@[simp] theorem setPort_panel (u : Nat) (p : Port) (s : State) : (setPort u p s).panel = s.panel := by rfl
@[simp] theorem setPort_fw (u : Nat) (p : Port) (s : State) : (setPort u p s).fw = s.fw := by rfl
@[simp] theorem setPort_mail (u : Nat) (p : Port) (s : State) : (setPort u p s).mail = s.mail := by rfl
@[simp] theorem setPort_ev (u : Nat) (p : Port) (s : State) : (setPort u p s).ev = s.ev := by rfl
@[simp] theorem setPort_ctr (u : Nat) (p : Port) (s : State) : (setPort u p s).ctr = s.ctr := by rfl
@[simp] theorem setPort_once (u : Nat) (p : Port) (s : State) : (setPort u p s).once = s.once := by rfl
@[simp] theorem setPort_free (u : Nat) (p : Port) (s : State) : (setPort u p s).free = s.free := by rfl
@[simp] theorem setPort_out (u : Nat) (p : Port) (s : State) : (setPort u p s).out = s.out := by rfl
@[simp] theorem emit_pending (o : Out) (s : State) : (emit o s).pending = s.pending := by rfl
@[simp] theorem emit_reel (o : Out) (s : State) : (emit o s).reel = s.reel := by rfl
@[simp] theorem emit_sched (o : Out) (s : State) : (emit o s).sched = s.sched := by rfl
@[simp] theorem emit_tray (o : Out) (s : State) : (emit o s).tray = s.tray := by rfl
@[simp] theorem emit_ports (o : Out) (s : State) : (emit o s).ports = s.ports := by rfl
@[simp] theorem emit_links (o : Out) (s : State) : (emit o s).links = s.links := by rfl
@[simp] theorem emit_punits (o : Out) (s : State) : (emit o s).punits = s.punits := by rfl
@[simp] theorem emit_units (o : Out) (s : State) : (emit o s).units = s.units := by rfl
@[simp] theorem emit_asics (o : Out) (s : State) : (emit o s).asics = s.asics := by rfl
@[simp] theorem emit_eq (o : Out) (s : State) : (emit o s).eq = s.eq := by rfl
@[simp] theorem emit_fwd (o : Out) (s : State) : (emit o s).fwd = s.fwd := by rfl
@[simp] theorem emit_plan (o : Out) (s : State) : (emit o s).plan = s.plan := by rfl
@[simp] theorem emit_twine (o : Out) (s : State) : (emit o s).twine = s.twine := by rfl
@[simp] theorem emit_pool (o : Out) (s : State) : (emit o s).pool = s.pool := by rfl
@[simp] theorem emit_anneal (o : Out) (s : State) : (emit o s).anneal = s.anneal := by rfl
@[simp] theorem emit_power (o : Out) (s : State) : (emit o s).power = s.power := by rfl
@[simp] theorem emit_crier (o : Out) (s : State) : (emit o s).crier = s.crier := by rfl
@[simp] theorem emit_ledger (o : Out) (s : State) : (emit o s).ledger = s.ledger := by rfl
@[simp] theorem emit_panel (o : Out) (s : State) : (emit o s).panel = s.panel := by rfl
@[simp] theorem emit_fw (o : Out) (s : State) : (emit o s).fw = s.fw := by rfl
@[simp] theorem emit_mail (o : Out) (s : State) : (emit o s).mail = s.mail := by rfl
@[simp] theorem emit_ev (o : Out) (s : State) : (emit o s).ev = s.ev := by rfl
@[simp] theorem emit_ctr (o : Out) (s : State) : (emit o s).ctr = s.ctr := by rfl
@[simp] theorem emit_once (o : Out) (s : State) : (emit o s).once = s.once := by rfl
@[simp] theorem emit_free (o : Out) (s : State) : (emit o s).free = s.free := by rfl
@[simp] theorem raise_pending (c : Nat) (d : List (Nat × Nat)) (s : State) : (raise c d s).pending = s.pending := by rfl
@[simp] theorem raise_reel (c : Nat) (d : List (Nat × Nat)) (s : State) : (raise c d s).reel = s.reel := by rfl
@[simp] theorem raise_sched (c : Nat) (d : List (Nat × Nat)) (s : State) : (raise c d s).sched = s.sched := by rfl
@[simp] theorem raise_tray (c : Nat) (d : List (Nat × Nat)) (s : State) : (raise c d s).tray = s.tray := by rfl
@[simp] theorem raise_ports (c : Nat) (d : List (Nat × Nat)) (s : State) : (raise c d s).ports = s.ports := by rfl
@[simp] theorem raise_links (c : Nat) (d : List (Nat × Nat)) (s : State) : (raise c d s).links = s.links := by rfl
@[simp] theorem raise_punits (c : Nat) (d : List (Nat × Nat)) (s : State) : (raise c d s).punits = s.punits := by rfl
@[simp] theorem raise_units (c : Nat) (d : List (Nat × Nat)) (s : State) : (raise c d s).units = s.units := by rfl
@[simp] theorem raise_asics (c : Nat) (d : List (Nat × Nat)) (s : State) : (raise c d s).asics = s.asics := by rfl
@[simp] theorem raise_eq (c : Nat) (d : List (Nat × Nat)) (s : State) : (raise c d s).eq = s.eq := by rfl
@[simp] theorem raise_fwd (c : Nat) (d : List (Nat × Nat)) (s : State) : (raise c d s).fwd = s.fwd := by rfl
@[simp] theorem raise_plan (c : Nat) (d : List (Nat × Nat)) (s : State) : (raise c d s).plan = s.plan := by rfl
@[simp] theorem raise_twine (c : Nat) (d : List (Nat × Nat)) (s : State) : (raise c d s).twine = s.twine := by rfl
@[simp] theorem raise_pool (c : Nat) (d : List (Nat × Nat)) (s : State) : (raise c d s).pool = s.pool := by rfl
@[simp] theorem raise_anneal (c : Nat) (d : List (Nat × Nat)) (s : State) : (raise c d s).anneal = s.anneal := by rfl
@[simp] theorem raise_power (c : Nat) (d : List (Nat × Nat)) (s : State) : (raise c d s).power = s.power := by rfl
@[simp] theorem raise_crier (c : Nat) (d : List (Nat × Nat)) (s : State) : (raise c d s).crier = s.crier := by rfl
@[simp] theorem raise_ledger (c : Nat) (d : List (Nat × Nat)) (s : State) : (raise c d s).ledger = s.ledger := by rfl
@[simp] theorem raise_panel (c : Nat) (d : List (Nat × Nat)) (s : State) : (raise c d s).panel = s.panel := by rfl
@[simp] theorem raise_fw (c : Nat) (d : List (Nat × Nat)) (s : State) : (raise c d s).fw = s.fw := by rfl
@[simp] theorem raise_mail (c : Nat) (d : List (Nat × Nat)) (s : State) : (raise c d s).mail = s.mail := by rfl
@[simp] theorem raise_ctr (c : Nat) (d : List (Nat × Nat)) (s : State) : (raise c d s).ctr = s.ctr := by rfl
@[simp] theorem raise_once (c : Nat) (d : List (Nat × Nat)) (s : State) : (raise c d s).once = s.once := by rfl
@[simp] theorem raise_free (c : Nat) (d : List (Nat × Nat)) (s : State) : (raise c d s).free = s.free := by rfl
@[simp] theorem raise_out (c : Nat) (d : List (Nat × Nat)) (s : State) : (raise c d s).out = s.out := by rfl
@[simp] theorem count_pending (k n : Nat) (s : State) : (count k n s).pending = s.pending := by rfl
@[simp] theorem count_reel (k n : Nat) (s : State) : (count k n s).reel = s.reel := by rfl
@[simp] theorem count_sched (k n : Nat) (s : State) : (count k n s).sched = s.sched := by rfl
@[simp] theorem count_tray (k n : Nat) (s : State) : (count k n s).tray = s.tray := by rfl
@[simp] theorem count_ports (k n : Nat) (s : State) : (count k n s).ports = s.ports := by rfl
@[simp] theorem count_links (k n : Nat) (s : State) : (count k n s).links = s.links := by rfl
@[simp] theorem count_punits (k n : Nat) (s : State) : (count k n s).punits = s.punits := by rfl
@[simp] theorem count_units (k n : Nat) (s : State) : (count k n s).units = s.units := by rfl
@[simp] theorem count_asics (k n : Nat) (s : State) : (count k n s).asics = s.asics := by rfl
@[simp] theorem count_eq (k n : Nat) (s : State) : (count k n s).eq = s.eq := by rfl
@[simp] theorem count_fwd (k n : Nat) (s : State) : (count k n s).fwd = s.fwd := by rfl
@[simp] theorem count_plan (k n : Nat) (s : State) : (count k n s).plan = s.plan := by rfl
@[simp] theorem count_twine (k n : Nat) (s : State) : (count k n s).twine = s.twine := by rfl
@[simp] theorem count_pool (k n : Nat) (s : State) : (count k n s).pool = s.pool := by rfl
@[simp] theorem count_anneal (k n : Nat) (s : State) : (count k n s).anneal = s.anneal := by rfl
@[simp] theorem count_power (k n : Nat) (s : State) : (count k n s).power = s.power := by rfl
@[simp] theorem count_crier (k n : Nat) (s : State) : (count k n s).crier = s.crier := by rfl
@[simp] theorem count_ledger (k n : Nat) (s : State) : (count k n s).ledger = s.ledger := by rfl
@[simp] theorem count_panel (k n : Nat) (s : State) : (count k n s).panel = s.panel := by rfl
@[simp] theorem count_fw (k n : Nat) (s : State) : (count k n s).fw = s.fw := by rfl
@[simp] theorem count_mail (k n : Nat) (s : State) : (count k n s).mail = s.mail := by rfl
@[simp] theorem count_ev (k n : Nat) (s : State) : (count k n s).ev = s.ev := by rfl
@[simp] theorem count_once (k n : Nat) (s : State) : (count k n s).once = s.once := by rfl
@[simp] theorem count_free (k n : Nat) (s : State) : (count k n s).free = s.free := by rfl
@[simp] theorem count_out (k n : Nat) (s : State) : (count k n s).out = s.out := by rfl
@[simp] theorem countWin_pending (k n : Nat) (s : State) : (countWin k n s).pending = s.pending := by rfl
@[simp] theorem countWin_reel (k n : Nat) (s : State) : (countWin k n s).reel = s.reel := by rfl
@[simp] theorem countWin_sched (k n : Nat) (s : State) : (countWin k n s).sched = s.sched := by rfl
@[simp] theorem countWin_tray (k n : Nat) (s : State) : (countWin k n s).tray = s.tray := by rfl
@[simp] theorem countWin_ports (k n : Nat) (s : State) : (countWin k n s).ports = s.ports := by rfl
@[simp] theorem countWin_links (k n : Nat) (s : State) : (countWin k n s).links = s.links := by rfl
@[simp] theorem countWin_punits (k n : Nat) (s : State) : (countWin k n s).punits = s.punits := by rfl
@[simp] theorem countWin_units (k n : Nat) (s : State) : (countWin k n s).units = s.units := by rfl
@[simp] theorem countWin_asics (k n : Nat) (s : State) : (countWin k n s).asics = s.asics := by rfl
@[simp] theorem countWin_eq (k n : Nat) (s : State) : (countWin k n s).eq = s.eq := by rfl
@[simp] theorem countWin_fwd (k n : Nat) (s : State) : (countWin k n s).fwd = s.fwd := by rfl
@[simp] theorem countWin_plan (k n : Nat) (s : State) : (countWin k n s).plan = s.plan := by rfl
@[simp] theorem countWin_twine (k n : Nat) (s : State) : (countWin k n s).twine = s.twine := by rfl
@[simp] theorem countWin_pool (k n : Nat) (s : State) : (countWin k n s).pool = s.pool := by rfl
@[simp] theorem countWin_anneal (k n : Nat) (s : State) : (countWin k n s).anneal = s.anneal := by rfl
@[simp] theorem countWin_power (k n : Nat) (s : State) : (countWin k n s).power = s.power := by rfl
@[simp] theorem countWin_crier (k n : Nat) (s : State) : (countWin k n s).crier = s.crier := by rfl
@[simp] theorem countWin_ledger (k n : Nat) (s : State) : (countWin k n s).ledger = s.ledger := by rfl
@[simp] theorem countWin_panel (k n : Nat) (s : State) : (countWin k n s).panel = s.panel := by rfl
@[simp] theorem countWin_fw (k n : Nat) (s : State) : (countWin k n s).fw = s.fw := by rfl
@[simp] theorem countWin_mail (k n : Nat) (s : State) : (countWin k n s).mail = s.mail := by rfl
@[simp] theorem countWin_ev (k n : Nat) (s : State) : (countWin k n s).ev = s.ev := by rfl
@[simp] theorem countWin_once (k n : Nat) (s : State) : (countWin k n s).once = s.once := by rfl
@[simp] theorem countWin_free (k n : Nat) (s : State) : (countWin k n s).free = s.free := by rfl
@[simp] theorem countWin_out (k n : Nat) (s : State) : (countWin k n s).out = s.out := by rfl
@[simp] theorem useTurn_pending (k : Nat) (s : State) : (useTurn k s).pending = s.pending := by rfl
@[simp] theorem useTurn_reel (k : Nat) (s : State) : (useTurn k s).reel = s.reel := by rfl
@[simp] theorem useTurn_sched (k : Nat) (s : State) : (useTurn k s).sched = s.sched := by rfl
@[simp] theorem useTurn_tray (k : Nat) (s : State) : (useTurn k s).tray = s.tray := by rfl
@[simp] theorem useTurn_ports (k : Nat) (s : State) : (useTurn k s).ports = s.ports := by rfl
@[simp] theorem useTurn_links (k : Nat) (s : State) : (useTurn k s).links = s.links := by rfl
@[simp] theorem useTurn_punits (k : Nat) (s : State) : (useTurn k s).punits = s.punits := by rfl
@[simp] theorem useTurn_units (k : Nat) (s : State) : (useTurn k s).units = s.units := by rfl
@[simp] theorem useTurn_asics (k : Nat) (s : State) : (useTurn k s).asics = s.asics := by rfl
@[simp] theorem useTurn_eq (k : Nat) (s : State) : (useTurn k s).eq = s.eq := by rfl
@[simp] theorem useTurn_fwd (k : Nat) (s : State) : (useTurn k s).fwd = s.fwd := by rfl
@[simp] theorem useTurn_plan (k : Nat) (s : State) : (useTurn k s).plan = s.plan := by rfl
@[simp] theorem useTurn_twine (k : Nat) (s : State) : (useTurn k s).twine = s.twine := by rfl
@[simp] theorem useTurn_pool (k : Nat) (s : State) : (useTurn k s).pool = s.pool := by rfl
@[simp] theorem useTurn_anneal (k : Nat) (s : State) : (useTurn k s).anneal = s.anneal := by rfl
@[simp] theorem useTurn_power (k : Nat) (s : State) : (useTurn k s).power = s.power := by rfl
@[simp] theorem useTurn_crier (k : Nat) (s : State) : (useTurn k s).crier = s.crier := by rfl
@[simp] theorem useTurn_ledger (k : Nat) (s : State) : (useTurn k s).ledger = s.ledger := by rfl
@[simp] theorem useTurn_panel (k : Nat) (s : State) : (useTurn k s).panel = s.panel := by rfl
@[simp] theorem useTurn_fw (k : Nat) (s : State) : (useTurn k s).fw = s.fw := by rfl
@[simp] theorem useTurn_mail (k : Nat) (s : State) : (useTurn k s).mail = s.mail := by rfl
@[simp] theorem useTurn_ev (k : Nat) (s : State) : (useTurn k s).ev = s.ev := by rfl
@[simp] theorem useTurn_ctr (k : Nat) (s : State) : (useTurn k s).ctr = s.ctr := by rfl
@[simp] theorem useTurn_free (k : Nat) (s : State) : (useTurn k s).free = s.free := by rfl
@[simp] theorem useTurn_out (k : Nat) (s : State) : (useTurn k s).out = s.out := by rfl
@[simp] theorem schedAdd_pending (a : Sched) (s : State) : (schedAdd a s).pending = s.pending := by rfl
@[simp] theorem schedAdd_reel (a : Sched) (s : State) : (schedAdd a s).reel = s.reel := by rfl
@[simp] theorem schedAdd_tray (a : Sched) (s : State) : (schedAdd a s).tray = s.tray := by rfl
@[simp] theorem schedAdd_ports (a : Sched) (s : State) : (schedAdd a s).ports = s.ports := by rfl
@[simp] theorem schedAdd_links (a : Sched) (s : State) : (schedAdd a s).links = s.links := by rfl
@[simp] theorem schedAdd_punits (a : Sched) (s : State) : (schedAdd a s).punits = s.punits := by rfl
@[simp] theorem schedAdd_units (a : Sched) (s : State) : (schedAdd a s).units = s.units := by rfl
@[simp] theorem schedAdd_asics (a : Sched) (s : State) : (schedAdd a s).asics = s.asics := by rfl
@[simp] theorem schedAdd_eq (a : Sched) (s : State) : (schedAdd a s).eq = s.eq := by rfl
@[simp] theorem schedAdd_fwd (a : Sched) (s : State) : (schedAdd a s).fwd = s.fwd := by rfl
@[simp] theorem schedAdd_plan (a : Sched) (s : State) : (schedAdd a s).plan = s.plan := by rfl
@[simp] theorem schedAdd_twine (a : Sched) (s : State) : (schedAdd a s).twine = s.twine := by rfl
@[simp] theorem schedAdd_pool (a : Sched) (s : State) : (schedAdd a s).pool = s.pool := by rfl
@[simp] theorem schedAdd_anneal (a : Sched) (s : State) : (schedAdd a s).anneal = s.anneal := by rfl
@[simp] theorem schedAdd_power (a : Sched) (s : State) : (schedAdd a s).power = s.power := by rfl
@[simp] theorem schedAdd_crier (a : Sched) (s : State) : (schedAdd a s).crier = s.crier := by rfl
@[simp] theorem schedAdd_ledger (a : Sched) (s : State) : (schedAdd a s).ledger = s.ledger := by rfl
@[simp] theorem schedAdd_panel (a : Sched) (s : State) : (schedAdd a s).panel = s.panel := by rfl
@[simp] theorem schedAdd_fw (a : Sched) (s : State) : (schedAdd a s).fw = s.fw := by rfl
@[simp] theorem schedAdd_mail (a : Sched) (s : State) : (schedAdd a s).mail = s.mail := by rfl
@[simp] theorem schedAdd_ev (a : Sched) (s : State) : (schedAdd a s).ev = s.ev := by rfl
@[simp] theorem schedAdd_ctr (a : Sched) (s : State) : (schedAdd a s).ctr = s.ctr := by rfl
@[simp] theorem schedAdd_once (a : Sched) (s : State) : (schedAdd a s).once = s.once := by rfl
@[simp] theorem schedAdd_free (a : Sched) (s : State) : (schedAdd a s).free = s.free := by rfl
@[simp] theorem schedAdd_out (a : Sched) (s : State) : (schedAdd a s).out = s.out := by rfl
@[simp] theorem schedRemove_pending (a : Sched) (s : State) : (schedRemove a s).pending = s.pending := by rfl
@[simp] theorem schedRemove_reel (a : Sched) (s : State) : (schedRemove a s).reel = s.reel := by rfl
@[simp] theorem schedRemove_tray (a : Sched) (s : State) : (schedRemove a s).tray = s.tray := by rfl
@[simp] theorem schedRemove_ports (a : Sched) (s : State) : (schedRemove a s).ports = s.ports := by rfl
@[simp] theorem schedRemove_links (a : Sched) (s : State) : (schedRemove a s).links = s.links := by rfl
@[simp] theorem schedRemove_punits (a : Sched) (s : State) : (schedRemove a s).punits = s.punits := by rfl
@[simp] theorem schedRemove_units (a : Sched) (s : State) : (schedRemove a s).units = s.units := by rfl
@[simp] theorem schedRemove_asics (a : Sched) (s : State) : (schedRemove a s).asics = s.asics := by rfl
@[simp] theorem schedRemove_eq (a : Sched) (s : State) : (schedRemove a s).eq = s.eq := by rfl
@[simp] theorem schedRemove_fwd (a : Sched) (s : State) : (schedRemove a s).fwd = s.fwd := by rfl
@[simp] theorem schedRemove_plan (a : Sched) (s : State) : (schedRemove a s).plan = s.plan := by rfl
@[simp] theorem schedRemove_twine (a : Sched) (s : State) : (schedRemove a s).twine = s.twine := by rfl
@[simp] theorem schedRemove_pool (a : Sched) (s : State) : (schedRemove a s).pool = s.pool := by rfl
@[simp] theorem schedRemove_anneal (a : Sched) (s : State) : (schedRemove a s).anneal = s.anneal := by rfl
@[simp] theorem schedRemove_power (a : Sched) (s : State) : (schedRemove a s).power = s.power := by rfl
@[simp] theorem schedRemove_crier (a : Sched) (s : State) : (schedRemove a s).crier = s.crier := by rfl
@[simp] theorem schedRemove_ledger (a : Sched) (s : State) : (schedRemove a s).ledger = s.ledger := by rfl
@[simp] theorem schedRemove_panel (a : Sched) (s : State) : (schedRemove a s).panel = s.panel := by rfl
@[simp] theorem schedRemove_fw (a : Sched) (s : State) : (schedRemove a s).fw = s.fw := by rfl
@[simp] theorem schedRemove_mail (a : Sched) (s : State) : (schedRemove a s).mail = s.mail := by rfl
@[simp] theorem schedRemove_ev (a : Sched) (s : State) : (schedRemove a s).ev = s.ev := by rfl
@[simp] theorem schedRemove_ctr (a : Sched) (s : State) : (schedRemove a s).ctr = s.ctr := by rfl
@[simp] theorem schedRemove_once (a : Sched) (s : State) : (schedRemove a s).once = s.once := by rfl
@[simp] theorem schedRemove_free (a : Sched) (s : State) : (schedRemove a s).free = s.free := by rfl
@[simp] theorem schedRemove_out (a : Sched) (s : State) : (schedRemove a s).out = s.out := by rfl
@[simp] theorem bufWrite_pending (a : Nat) (bs : List Byte) (s : State) : (bufWrite a bs s).pending = s.pending := by rfl
@[simp] theorem bufWrite_reel (a : Nat) (bs : List Byte) (s : State) : (bufWrite a bs s).reel = s.reel := by rfl
@[simp] theorem bufWrite_sched (a : Nat) (bs : List Byte) (s : State) : (bufWrite a bs s).sched = s.sched := by rfl
@[simp] theorem bufWrite_tray (a : Nat) (bs : List Byte) (s : State) : (bufWrite a bs s).tray = s.tray := by rfl
@[simp] theorem bufWrite_ports (a : Nat) (bs : List Byte) (s : State) : (bufWrite a bs s).ports = s.ports := by rfl
@[simp] theorem bufWrite_links (a : Nat) (bs : List Byte) (s : State) : (bufWrite a bs s).links = s.links := by rfl
@[simp] theorem bufWrite_punits (a : Nat) (bs : List Byte) (s : State) : (bufWrite a bs s).punits = s.punits := by rfl
@[simp] theorem bufWrite_units (a : Nat) (bs : List Byte) (s : State) : (bufWrite a bs s).units = s.units := by rfl
@[simp] theorem bufWrite_asics (a : Nat) (bs : List Byte) (s : State) : (bufWrite a bs s).asics = s.asics := by rfl
@[simp] theorem bufWrite_eq (a : Nat) (bs : List Byte) (s : State) : (bufWrite a bs s).eq = s.eq := by rfl
@[simp] theorem bufWrite_fwd (a : Nat) (bs : List Byte) (s : State) : (bufWrite a bs s).fwd = s.fwd := by rfl
@[simp] theorem bufWrite_plan (a : Nat) (bs : List Byte) (s : State) : (bufWrite a bs s).plan = s.plan := by rfl
@[simp] theorem bufWrite_twine (a : Nat) (bs : List Byte) (s : State) : (bufWrite a bs s).twine = s.twine := by rfl
@[simp] theorem bufWrite_pool (a : Nat) (bs : List Byte) (s : State) : (bufWrite a bs s).pool = s.pool := by rfl
@[simp] theorem bufWrite_anneal (a : Nat) (bs : List Byte) (s : State) : (bufWrite a bs s).anneal = s.anneal := by rfl
@[simp] theorem bufWrite_power (a : Nat) (bs : List Byte) (s : State) : (bufWrite a bs s).power = s.power := by rfl
@[simp] theorem bufWrite_crier (a : Nat) (bs : List Byte) (s : State) : (bufWrite a bs s).crier = s.crier := by rfl
@[simp] theorem bufWrite_ledger (a : Nat) (bs : List Byte) (s : State) : (bufWrite a bs s).ledger = s.ledger := by rfl
@[simp] theorem bufWrite_panel (a : Nat) (bs : List Byte) (s : State) : (bufWrite a bs s).panel = s.panel := by rfl
@[simp] theorem bufWrite_fw (a : Nat) (bs : List Byte) (s : State) : (bufWrite a bs s).fw = s.fw := by rfl
@[simp] theorem bufWrite_ev (a : Nat) (bs : List Byte) (s : State) : (bufWrite a bs s).ev = s.ev := by rfl
@[simp] theorem bufWrite_ctr (a : Nat) (bs : List Byte) (s : State) : (bufWrite a bs s).ctr = s.ctr := by rfl
@[simp] theorem bufWrite_once (a : Nat) (bs : List Byte) (s : State) : (bufWrite a bs s).once = s.once := by rfl
@[simp] theorem bufWrite_free (a : Nat) (bs : List Byte) (s : State) : (bufWrite a bs s).free = s.free := by rfl
@[simp] theorem bufWrite_out (a : Nat) (bs : List Byte) (s : State) : (bufWrite a bs s).out = s.out := by rfl

@[simp] theorem stick_tray (n : Nat) (s : State) :
    (stick n s).tray = { s.tray with sticky := s.tray.sticky ||| (1#32 <<< n) } := by rfl
@[simp] theorem stick_pending (n : Nat) (s : State) : (stick n s).pending = s.pending := by rfl
@[simp] theorem stick_reel (n : Nat) (s : State) : (stick n s).reel = s.reel := by rfl
@[simp] theorem stick_sched (n : Nat) (s : State) : (stick n s).sched = s.sched := by rfl
@[simp] theorem stick_ports (n : Nat) (s : State) : (stick n s).ports = s.ports := by rfl
@[simp] theorem stick_links (n : Nat) (s : State) : (stick n s).links = s.links := by rfl
@[simp] theorem stick_punits (n : Nat) (s : State) : (stick n s).punits = s.punits := by rfl
@[simp] theorem stick_units (n : Nat) (s : State) : (stick n s).units = s.units := by rfl
@[simp] theorem stick_asics (n : Nat) (s : State) : (stick n s).asics = s.asics := by rfl
@[simp] theorem stick_eq (n : Nat) (s : State) : (stick n s).eq = s.eq := by rfl
@[simp] theorem stick_fwd (n : Nat) (s : State) : (stick n s).fwd = s.fwd := by rfl
@[simp] theorem stick_plan (n : Nat) (s : State) : (stick n s).plan = s.plan := by rfl
@[simp] theorem stick_twine (n : Nat) (s : State) : (stick n s).twine = s.twine := by rfl
@[simp] theorem stick_pool (n : Nat) (s : State) : (stick n s).pool = s.pool := by rfl
@[simp] theorem stick_anneal (n : Nat) (s : State) : (stick n s).anneal = s.anneal := by rfl
@[simp] theorem stick_power (n : Nat) (s : State) : (stick n s).power = s.power := by rfl
@[simp] theorem stick_crier (n : Nat) (s : State) : (stick n s).crier = s.crier := by rfl
@[simp] theorem stick_ledger (n : Nat) (s : State) : (stick n s).ledger = s.ledger := by rfl
@[simp] theorem stick_panel (n : Nat) (s : State) : (stick n s).panel = s.panel := by rfl
@[simp] theorem stick_fw (n : Nat) (s : State) : (stick n s).fw = s.fw := by rfl
@[simp] theorem stick_mail (n : Nat) (s : State) : (stick n s).mail = s.mail := by rfl
@[simp] theorem stick_ev (n : Nat) (s : State) : (stick n s).ev = s.ev := by rfl
@[simp] theorem stick_ctr (n : Nat) (s : State) : (stick n s).ctr = s.ctr := by rfl
@[simp] theorem stick_once (n : Nat) (s : State) : (stick n s).once = s.once := by rfl
@[simp] theorem stick_free (n : Nat) (s : State) : (stick n s).free = s.free := by rfl
@[simp] theorem stick_out (n : Nat) (s : State) : (stick n s).out = s.out := by rfl

end Sys2Proof.Machine
end

