-- ==== Sys2Proof/Laws/Frames.lean ====
section
/-! SUPPORT. The shared operations leave the mailboxes alone: one lemma for each, so that a command's completion is read
off its own rules. -/

namespace Sys2Proof.Machine
open Sys2Proof

/-- An operation repeated over a list leaves alone what each turn of it does. -/
theorem forAll_mail {α : Type} (l : List α) (f : α → State → State) (s : State) (h : ∀ a t, (f a t).mail = t.mail) :
    (forAll l f s).mail = s.mail := by
  unfold forAll
  induction l generalizing s with
  | nil => rfl
  | cons a l ih => rw [List.foldl_cons, ih, h]

/-- A guarded operation leaves alone what the operation does. -/
theorem onlyIf_mail (c : Bool) (f : State → State) (s : State) (h : ∀ t, (f t).mail = t.mail) :
    (onlyIf c f s).mail = s.mail := by
  unfold onlyIf; split
  · exact h s
  · rfl

@[simp] theorem msix_mail (vector : Nat) (s : State) : (msix vector s).mail = s.mail := by
  unfold msix
  try dsimp only
  (repeat' split) <;> rfl

@[simp] theorem drawFree_mail (s : State) : (drawFree s).2.mail = s.mail := by
  unfold drawFree
  rfl

@[simp] theorem raiseOnce_mail (key code : Nat) (items : List (Nat × Nat)) (s : State) : (raiseOnce key code items s).mail = s.mail := by
  unfold raiseOnce
  try dsimp only
  (repeat' split) <;> rfl

@[simp] theorem ringWrite_mail (r : EvRec) (s : State) : (ringWrite r s).mail = s.mail := by
  unfold ringWrite
  try dsimp only
  (repeat' split) <;> first | rfl | (simp; done)

@[simp] theorem loseEvent_mail (s : State) : (loseEvent s).mail = s.mail := by
  unfold loseEvent
  rfl

@[simp] theorem placeEvent_mail (r : Raised) (s : State) : (placeEvent r s).mail = s.mail := by
  unfold placeEvent
  try dsimp only
  (repeat' split) <;> first | rfl | (simp; done)

@[simp] theorem raiseCancelled_mail (a : Sched) (s : State) : (raiseCancelled a s).mail = s.mail := by
  unfold raiseCancelled
  rfl

@[simp] theorem raiseLate_mail (a : Sched) (turn : Nat) (s : State) : (raiseLate a turn s).mail = s.mail := by
  unfold raiseLate
  rfl

@[simp] theorem schedCancel_mail (a : Sched) (s : State) : (schedCancel a s).mail = s.mail := by
  unfold schedCancel
  rfl

@[simp] theorem modStall_mail (n : Nat) (f : Stall → Stall) (s : State) : (modStall n f s).mail = s.mail := by
  unfold modStall
  rfl

@[simp] theorem poolLowCheck_mail (s : State) : (poolLowCheck s).mail = s.mail := by
  unfold poolLowCheck
  try dsimp only
  (repeat' split) <;> rfl

@[simp] theorem poolTransient_mail (s : State) : (poolTransient s).mail = s.mail := by
  unfold poolTransient
  rfl

@[simp] theorem poolLasting_mail (s : State) : (poolLasting s).mail = s.mail := by
  unfold poolLasting
  rfl

@[simp] theorem replacePage_mail (page : Nat) (s : State) : (replacePage page s).mail = s.mail := by
  unfold replacePage
  try dsimp only
  (repeat' split) <;> rfl

@[simp] theorem retirePage_mail (page : Nat) (moved : Bool) (s : State) : (retirePage page moved s).mail = s.mail := by
  unfold retirePage
  try dsimp only
  (repeat' split) <;> first | rfl | (simp [forAll_mail, onlyIf_mail]; done)

@[simp] theorem startCopy_mail (n page : Nat) (retire : Bool) (s : State) : (startCopy n page retire s).mail = s.mail := by
  unfold startCopy
  try dsimp only
  (repeat' split) <;> first | rfl | (simp [forAll_mail, onlyIf_mail]; done)

@[simp] theorem chargePj_mail (cls pj : Nat) (s : State) : (chargePj cls pj s).mail = s.mail := by
  unfold chargePj
  rfl

@[simp] theorem chargeAsic_mail (cls pj : Nat) (s : State) : (chargeAsic cls pj s).mail = s.mail := by
  unfold chargeAsic
  rfl

@[simp] theorem poolIo_mail (isWrite : Bool) (page bytes cls : Nat) (s : State) : (poolIo isWrite page bytes cls s).mail = s.mail := by
  unfold poolIo
  try dsimp only
  (repeat' split) <;> rfl

@[simp] theorem renamePage_mail (old new : Nat) (s : State) : (renamePage old new s).mail = s.mail := by
  unfold renamePage
  rfl

@[simp] theorem evacuate_mail (page : Nat) (s : State) : (evacuate page s).mail = s.mail := by
  unfold evacuate
  try dsimp only
  (repeat' split) <;> first | rfl | (simp [forAll_mail, onlyIf_mail]; done)

@[simp] theorem noteCorrection_mail (page : Nat) (s : State) : (noteCorrection page s).mail = s.mail := by
  unfold noteCorrection
  try dsimp only
  (repeat' split) <;> first | rfl | (simp; done)

@[simp] theorem poolRead_mail (page bytes cls : Nat) (s : State) : (poolRead page bytes cls s).2.mail = s.mail := by
  have h : (poolIo false page bytes cls (modPool (fun p => { p with reads := p.reads.drop 1 }) s)).mail = s.mail := by
    rw [poolIo_mail, modPool_mail]
  unfold poolRead
  dsimp only
  split
  · exact h
  · split
    · exact (noteCorrection_mail _ _).trans h
    · split
      · exact (poolTransient_mail _).trans h
      · exact (poolLasting_mail _).trans h

@[simp] theorem setQueue_mail (u cls : Nat) (q : List QFrame) (s : State) : (setQueue u cls q s).mail = s.mail := by
  unfold setQueue
  rfl

@[simp] theorem enqueue_mail (u : Nat) (q : QFrame) (s : State) : (enqueue u q s).mail = s.mail := by
  unfold enqueue
  simp [onlyIf_mail]

@[simp] theorem forgetHeads_mail (s : State) : (forgetHeads s).mail = s.mail := by
  unfold forgetHeads
  rfl

@[simp] theorem noticeLost_mail (src : Nat) (s : State) : (noticeLost src s).mail = s.mail := by
  unfold noticeLost
  simp

@[simp] theorem dropFrame_mail (reason u : Nat) (f : Frame) (s : State) : (dropFrame reason u f s).mail = s.mail := by
  unfold dropFrame
  try dsimp only
  (repeat' split) <;> first | rfl | (simp [onlyIf_mail]; done)

@[simp] theorem modReseq_mail (asic : Nat) (f : Reseq → Reseq) (s : State) : (modReseq asic f s).mail = s.mail := by
  unfold modReseq
  rfl

@[simp] theorem modQueued_mail (asic : Nat) (p : QFrame → Bool) (f : QFrame → QFrame) (s : State) : (modQueued asic p f s).mail = s.mail := by
  unfold modQueued
  rfl

@[simp] theorem loosen_mail (asic : Nat) (c : Context) (s : State) : (loosen asic c s).mail = s.mail := by
  unfold loosen
  rfl

@[simp] theorem closeContext_mail (asic : Nat) (c : Context) (s : State) : (closeContext asic c s).mail = s.mail := by
  unfold closeContext
  rfl

@[simp] theorem noteNewest_mail (asic : Nat) (c : Context) (q : QFrame) (s : State) : (noteNewest asic c q s).mail = s.mail := by
  unfold noteNewest
  rfl

@[simp] theorem spanCheck_mail (asic : Nat) (q : QFrame) (s : State) : (spanCheck asic q s).mail = s.mail := by
  unfold spanCheck
  try dsimp only
  (repeat' split) <;> first | rfl | (simp; done)

@[simp] theorem divert_mail (asic : Nat) (q : QFrame) (s : State) : (divert asic q s).mail = s.mail := by
  unfold divert
  try dsimp only
  (repeat' split) <;> first | rfl | (simp; done)

@[simp] theorem retire_mail (asic : Nat) (q : QFrame) (s : State) : (retire asic q s).mail = s.mail := by
  unfold retire
  try dsimp only
  (repeat' split) <;> rfl

@[simp] theorem modSpill_mail (asic : Nat) (f : Spill → Spill) (s : State) : (modSpill asic f s).mail = s.mail := by
  unfold modSpill
  rfl

@[simp] theorem spillWrite_mail (asic key : Nat) (q : QFrame) (s : State) : (spillWrite asic key q s).mail = s.mail := by
  unfold spillWrite
  try dsimp only
  (repeat' split) <;> first | rfl | (simp [onlyIf_mail]; done)

@[simp] theorem spillFrame_mail (u : Nat) (q : QFrame) (s : State) : (spillFrame u q s).mail = s.mail := by
  unfold spillFrame
  try dsimp only
  (repeat' split) <;> first | rfl | (simp; done)

@[simp] theorem noteQuotaFull_mail (u : Nat) (q : QFrame) (s : State) : (noteQuotaFull u q s).mail = s.mail := by
  unfold noteQuotaFull
  simp [onlyIf_mail]

@[simp] theorem sprayAdvance_mail (key u : Nat) (s : State) : (sprayAdvance key u s).mail = s.mail := by
  unfold sprayAdvance
  rfl

@[simp] theorem deflect_mail (u : Nat) (q : QFrame) (s : State) : (deflect u q s).mail = s.mail := by
  unfold deflect
  rfl

@[simp] theorem cross_mail (asic : Nat) (e : EptEntry) (q : QFrame) (s : State) : (cross asic e q s).mail = s.mail := by
  unfold cross
  dsimp only
  split
  · split <;> simp
  · split
    · simp
    · split
      · simp
      · split <;> simp

@[simp] theorem place_mail (asic : Nat) (e : EptEntry) (q : QFrame) (s : State) : (place asic e q s).mail = s.mail := by
  unfold place
  dsimp only
  split
  · exact dropFrame_mail _ _ _ _
  · split
    · exact cross_mail _ _ _ _
    · split
      · rw [enqueue_mail, sprayAdvance_mail]
      · split
        · rw [deflect_mail, sprayAdvance_mail]
        · split
          · rw [spillFrame_mail, sprayAdvance_mail]
          · rw [dropFrame_mail, noteQuotaFull_mail, sprayAdvance_mail]

@[simp] theorem countEpoch_mail (how u : Nat) (s : State) : (countEpoch how u s).mail = s.mail := by
  unfold countEpoch
  try dsimp only
  (repeat' split) <;> first | rfl | (simp; done)

@[simp] theorem cacheTouch_mail (bank : Bool) (asic eid : Nat) (s : State) : (cacheTouch bank asic eid s).mail = s.mail := by
  unfold cacheTouch
  simp [onlyIf_mail]

@[simp] theorem nextPathSeq_mail (asic : Nat) (f : Frame) (s : State) : (nextPathSeq asic f s).2.mail = s.mail := by
  unfold nextPathSeq
  rfl

@[simp] theorem hc8Queue_mail (asics : List Nat) (f : Frame) (s : State) : (hc8Queue asics f s).2.mail = s.mail := by
  unfold hc8Queue
  try dsimp only
  (repeat' split) <;> rfl

@[simp] theorem modSet_mail (asic n : Nat) (f : ReplSet → ReplSet) (s : State) : (modSet asic n f s).mail = s.mail := by
  unfold modSet
  rfl

@[simp] theorem flowSet_mail (dst chan n : Nat) (s : State) : (flowSet dst chan n s).mail = s.mail := by
  unfold flowSet
  try dsimp only
  (repeat' split) <;> rfl

@[simp] theorem pathStep_mail (f : Frame) (s : State) : (pathStep f s).mail = s.mail := by
  unfold pathStep
  rfl

@[simp] theorem hc8Send_mail (f : Frame) (s : State) : (hc8Send f s).2.mail = s.mail := by
  unfold hc8Send
  try dsimp only
  (repeat' split) <;> first | rfl | (simp; done)

@[simp] theorem hc8Resend_mail (f : Frame) (s : State) : (hc8Resend f s).mail = s.mail := by
  unfold hc8Resend
  try dsimp only
  (repeat' split) <;> first | rfl | (simp; done)

@[simp] theorem loadSet_mail (n chan : Nat) (eids : List Nat) (s : State) : (loadSet n chan eids s).mail = s.mail := by
  unfold loadSet
  simp [forAll_mail, onlyIf_mail]

@[simp] theorem releaseSet_mail (n : Nat) (s : State) : (releaseSet n s).mail = s.mail := by
  unfold releaseSet
  simp [forAll_mail]

@[simp] theorem sendReplicated_mail (asics : List Nat) (n : Nat) (f : Frame) (s : State) : (sendReplicated asics n f s).2.mail = s.mail := by
  unfold sendReplicated
  try dsimp only
  (repeat' split) <;> first | rfl | (simp [forAll_mail, onlyIf_mail]; done)

@[simp] theorem hc8Post_mail (f : Frame) (s : State) : (hc8Post f s).mail = s.mail := by
  unfold hc8Post
  simp

@[simp] theorem modBank_mail (b : Bool) (f : Bank → Bank) (s : State) : (modBank b f s).mail = s.mail := by
  unfold modBank
  rfl

@[simp] theorem raiseUnitState_mail (u old new : Nat) (s : State) : (raiseUnitState u old new s).mail = s.mail := by
  unfold raiseUnitState
  simp [onlyIf_mail]

@[simp] theorem trayTo_mail (st : TState) (s : State) : (trayTo st s).mail = s.mail := by
  unfold trayTo
  try dsimp only
  (repeat' split) <;> first | rfl | (simp [forAll_mail, onlyIf_mail]; done)

@[simp] theorem withCart_mail (u : Nat) (f : State → State) (s : State) (hf : ∀ t, (f t).mail = t.mail) : (withCart u f s).mail = s.mail := by
  unfold withCart
  try dsimp only
  (repeat' split) <;> first | rfl | (simp [hf]; done)

@[simp] theorem withCarts_mail (f : State → State) (s : State) (hf : ∀ t, (f t).mail = t.mail) : (withCarts f s).mail = s.mail := by
  unfold withCarts
  simp [forAll_mail, hf]

@[simp] theorem divertQueued_mail (u : Nat) (s : State) : (divertQueued u s).mail = s.mail := by
  unfold divertQueued
  simp [forAll_mail]

@[simp] theorem putBack_mail (u : Nat) (s : State) : (putBack u s).mail = s.mail := by
  unfold putBack
  simp [forAll_mail, onlyIf_mail]

@[simp] theorem holdBegin_mail (u : Nat) (left : PState) (s : State) : (holdBegin u left s).mail = s.mail := by
  unfold holdBegin
  simp [forAll_mail, onlyIf_mail]

@[simp] theorem holdResume_mail (u : Nat) (s : State) : (holdResume u s).mail = s.mail := by
  unfold holdResume
  try dsimp only
  (repeat' split) <;> rfl

@[simp] theorem unspill_mail (asic : Nat) (p : Nat × QFrame → Bool) (s : State) : (unspill asic p s).mail = s.mail := by
  unfold unspill
  rfl

@[simp] theorem dequeue_mail (u : Nat) (q : QFrame) (s : State) : (dequeue u q s).mail = s.mail := by
  unfold dequeue
  rfl

@[simp] theorem spillPageLost_mail (asic : Nat) (g : SpillPage) (s : State) : (spillPageLost asic g s).mail = s.mail := by
  unfold spillPageLost
  simp [forAll_mail]

@[simp] theorem readBack_mail (asic key : Nat) (q : QFrame) (s : State) : (readBack asic key q s).2.mail = s.mail := by
  unfold readBack
  split
  · rfl
  · dsimp only
    split
    · exact (unspill_mail _ _ _).trans (poolRead_mail _ _ _ _)
    · exact (spillPageLost_mail _ _ _).trans (poolRead_mail _ _ _ _)

@[simp] theorem moveHeld_mail (u v : Nat) (mark spilled : Bool) (q : QFrame) (s : State) : (moveHeld u v mark spilled q s).mail = s.mail := by
  unfold moveHeld
  dsimp only
  split
  · split
    · split
      · exact (enqueue_mail _ _ _).trans (readBack_mail _ _ _ _)
      · exact readBack_mail _ _ _ _
    · rw [enqueue_mail, dequeue_mail]
  · split
    · exact modSpill_mail _ _ _
    · split
      · rw [spillFrame_mail, dequeue_mail]
      · rw [retire_mail, dropFrame_mail, noteQuotaFull_mail, dequeue_mail]

@[simp] theorem dropHeld_mail (u : Nat) (spilled : Bool) (q : QFrame) (s : State) : (dropHeld u spilled q s).mail = s.mail := by
  unfold dropHeld
  try dsimp only
  (repeat' split) <;> first | rfl | (simp; done)

@[simp] theorem placeHeld_mail (u : Nat) (s : State) : (placeHeld u s).mail = s.mail := by
  unfold placeHeld
  try dsimp only
  apply forAll_mail
  intro k t
  try dsimp only
  split
  · rfl
  · split
    · rw [forAll_mail _ _ _ fun x t => moveHeld_mail _ _ _ _ _ t, sprayAdvance_mail]
    · split
      · exact forAll_mail _ _ _ fun x t => moveHeld_mail _ _ _ _ _ t
      · exact forAll_mail _ _ _ fun x t => dropHeld_mail _ _ _ t

@[simp] theorem holdExpire_mail (u : Nat) (s : State) : (holdExpire u s).mail = s.mail := by
  unfold holdExpire
  simp

@[simp] theorem hc8Reroute_mail (u : Nat) (s : State) : (hc8Reroute u s).mail = s.mail := by
  unfold hc8Reroute
  apply forAll_mail
  intro c t
  split
  · rfl
  · rw [setQueue_mail, setQueue_mail]

@[simp] theorem linkReset_mail (u : Nat) (s : State) : (linkReset u s).mail = s.mail := by
  unfold linkReset
  rfl

@[simp] theorem notePeak_mail (u cls : Nat) (s : State) : (notePeak u cls s).mail = s.mail := by
  unfold notePeak
  rfl

@[simp] theorem probeFirst_mail (u : Nat) (s : State) : (probeFirst u s).mail = s.mail := by
  unfold probeFirst
  try dsimp only
  (repeat' split) <;> rfl

@[simp] theorem portEnter_mail (u : Nat) (st : PState) (s : State) : (portEnter u st s).mail = s.mail := by
  unfold portEnter
  try dsimp only
  (repeat' split) <;> first | rfl | (simp [forAll_mail, onlyIf_mail]; done)

@[simp] theorem portTo_mail (u : Nat) (st : PState) (s : State) : (portTo u st s).mail = s.mail := by
  unfold portTo
  try dsimp only
  (repeat' split) <;> first | rfl | (simp; done)

@[simp] theorem portDark_mail (u : Nat) (s : State) : (portDark u s).mail = s.mail := by
  unfold portDark
  simp

@[simp] theorem probationExit_mail (u : Nat) (s : State) : (probationExit u s).mail = s.mail := by
  unfold probationExit
  try dsimp only
  (repeat' split) <;> first | rfl | (simp; done)

@[simp] theorem judgeWiring_mail (u : Nat) (s : State) : (judgeWiring u s).mail = s.mail := by
  unfold judgeWiring
  try dsimp only
  (repeat' split) <;> first | rfl | (simp; done)

@[simp] theorem rejudgeWiring_mail (asic : Nat) (s : State) : (rejudgeWiring asic s).mail = s.mail := by
  unfold rejudgeWiring
  simp [forAll_mail]

@[simp] theorem asicTo_mail (a : Nat) (st : PState) (s : State) : (asicTo a st s).mail = s.mail := by
  unfold asicTo
  simp

@[simp] theorem trainAuto_mail (u : Nat) (s : State) : (trainAuto u s).mail = s.mail := by
  unfold trainAuto
  try dsimp only
  (repeat' split) <;> first | rfl | (simp; done)

@[simp] theorem asicCheck_mail (a : Nat) (s : State) : (asicCheck a s).mail = s.mail := by
  unfold asicCheck
  try dsimp only
  (repeat' split) <;> first | rfl | (simp; done)

@[simp] theorem asicDown_mail (a : Nat) (s : State) : (asicDown a s).mail = s.mail := by
  unfold asicDown
  simp [forAll_mail]

@[simp] theorem admitPort_mail (u : Nat) (s : State) : (admitPort u s).mail = s.mail := by
  unfold admitPort
  try dsimp only
  (repeat' split) <;> first | rfl | (simp [forAll_mail]; done)

@[simp] theorem admitAsic_mail (a : Nat) (s : State) : (admitAsic a s).mail = s.mail := by
  have h : (if (asicSt s a).st == .standby then asicTo a .admitted s else s).mail = s.mail := by
    split
    · exact asicTo_mail _ _ _
    · rfl
  unfold admitAsic
  generalize (if (asicSt s a).st == .standby then asicTo a .admitted s else s) = t at h ⊢
  dsimp only
  split
  · exact (forAll_mail _ _ _ fun x t => admitPort_mail _ t).trans h
  · exact h

@[simp] theorem admitUnit_mail (u turn : Nat) (s : State) : (admitUnit u turn s).mail = s.mail := by
  unfold admitUnit
  split
  · split
    · rw [forAll_mail _ _ _ fun x t => admitAsic_mail _ t, trayTo_mail]
    · split
      · exact admitAsic_mail _ _
      · exact forAll_mail _ _ _ fun x t => admitPort_mail _ t
  · rfl

@[simp] theorem withdrawUnit_mail (u turn : Nat) (s : State) : (withdrawUnit u turn s).mail = s.mail := by
  unfold withdrawUnit
  try dsimp only
  (repeat' split) <;> first | rfl | (simp [forAll_mail]; done)

@[simp] theorem withdrawDone_mail (u : Nat) (s : State) : (withdrawDone u s).mail = s.mail := by
  unfold withdrawDone
  try dsimp only
  have h : ∀ t : State, (forAll (servingPorts s u) (fun v => portTo v .standby) t).mail = t.mail :=
    fun t => forAll_mail _ _ _ fun v t => portTo_mail v _ t
  split
  · rw [onlyIf_mail _ _ _ fun t => asicTo_mail _ _ t, h]; rfl
  · rw [onlyIf_mail _ _ _ fun t => trayTo_mail _ t, forAll_mail, h]
    · rfl
    · intro a t; exact onlyIf_mail _ _ _ fun t => asicTo_mail _ _ t
  · rw [h]; rfl

@[simp] theorem cancelAll_mail (s : State) : (cancelAll s).mail = s.mail := by
  unfold cancelAll
  simp [forAll_mail, onlyIf_mail]

@[simp] theorem unschedule_mail (s : State) : (unschedule s).mail = s.mail := by
  unfold unschedule
  try dsimp only
  (repeat' split) <;> first | rfl | (simp; done)

@[simp] theorem duplicateTray_mail (viaCrier : Bool) (s : State) : (duplicateTray viaCrier s).mail = s.mail := by
  unfold duplicateTray
  try dsimp only
  (repeat' split) <;> first | rfl | (simp; done)

@[simp] theorem modImage_mail (slot : Bool) (f : Image → Image) (s : State) : (modImage slot f s).mail = s.mail := by
  unfold modImage
  rfl

@[simp] theorem readapt_mail (u k : Nat) (s : State) : (readapt u k s).mail = s.mail := by
  unfold readapt
  rfl

@[simp] theorem adaptLane_mail (u k : Nat) (s : State) : (adaptLane u k s).mail = s.mail := by
  unfold adaptLane
  try dsimp only
  (repeat' split) <;> rfl

@[simp] theorem restartAttempt_mail (u step : Nat) (s : State) : (restartAttempt u step s).mail = s.mail := by
  unfold restartAttempt
  try dsimp only
  (repeat' split) <;> first | rfl | (simp [onlyIf_mail]; done)

@[simp] theorem checkStep_mail (u : Nat) (ms : List Nat) (s : State) : (checkStep u ms s).mail = s.mail := by
  unfold checkStep
  try dsimp only
  (repeat' split) <;> first | rfl | (simp; done)

@[simp] theorem adaptStep_mail (u : Nat) (s : State) : (adaptStep u s).mail = s.mail := by
  unfold adaptStep
  try dsimp only
  (repeat' split) <;> first | rfl | (simp [forAll_mail]; done)

@[simp] theorem trainStep_mail (u : Nat) (o : TrainObs) (s : State) : (trainStep u o s).mail = s.mail := by
  unfold trainStep
  try dsimp only
  (repeat' split) <;> first | rfl | (simp; done)

@[simp] theorem bitslipStep_mail (u k : Nat) (seen : Option Marker) (aligned : Bool) (s : State) : (bitslipStep u k seen aligned s).mail = s.mail := by
  unfold bitslipStep
  try dsimp only
  (repeat' split) <;> first | rfl | (simp; done)

@[simp] theorem newStampLag_mail (u : Nat) (s : State) : (newStampLag u s).mail = s.mail := by
  unfold newStampLag
  rfl

@[simp] theorem applyLaneChange_mail (u : Nat) (ls : LaneSet) (s : State) : (applyLaneChange u ls s).mail = s.mail := by
  unfold applyLaneChange
  try dsimp only
  (repeat' split) <;> first | rfl | (simp; done)

@[simp] theorem portRetrain_mail (u cause : Nat) (s : State) : (portRetrain u cause s).mail = s.mail := by
  unfold portRetrain
  simp

@[simp] theorem sendLanes_mail (u : Nat) (lanes : List Nat) (f : Nat → Lane → List Int × Lane) (s : State) : (sendLanes u lanes f s).mail = s.mail := by
  unfold sendLanes
  simp [forAll_mail, onlyIf_mail]

@[simp] theorem sendBlock_mail (u phase : Nat) (s : State) : (sendBlock u phase s).mail = s.mail := by
  unfold sendBlock
  simp [forAll_mail, onlyIf_mail]

@[simp] theorem sendPatterns_mail (u : Nat) (s : State) : (sendPatterns u s).mail = s.mail := by
  unfold sendPatterns
  simp [forAll_mail, onlyIf_mail]

@[simp] theorem sendPair_mail (u : Nat) (idleNext : Bool) (s : State) : (sendPair u idleNext s).mail = s.mail := by
  unfold sendPair
  simp [forAll_mail, onlyIf_mail]

@[simp] theorem sendNext_mail (u : Nat) (s : State) : (sendNext u s).mail = s.mail := by
  unfold sendNext
  try dsimp only
  (repeat' split) <;> first | rfl | (simp [forAll_mail, onlyIf_mail]; done)

@[simp] theorem idleExit_mail (u : Nat) (s : State) : (idleExit u s).mail = s.mail := by
  unfold idleExit
  simp [forAll_mail]

@[simp] theorem wakePort_mail (u : Nat) (s : State) : (wakePort u s).mail = s.mail := by
  unfold wakePort
  try dsimp only
  (repeat' split) <;> first | rfl | (simp [forAll_mail, onlyIf_mail]; done)

@[simp] theorem sendTick_mail (u : Nat) (s : State) : (sendTick u s).mail = s.mail := by
  unfold sendTick
  try dsimp only
  (repeat' split) <;> first | rfl | (simp [forAll_mail, onlyIf_mail]; done)

@[simp] theorem exitLane_mail (u k verdict : Nat) (move : Int) (s : State) : (exitLane u k verdict move s).mail = s.mail := by
  unfold exitLane
  try dsimp only
  (repeat' split) <;> first | rfl | (simp [onlyIf_mail]; done)

@[simp] theorem backgroundLane_mail (u k : Nat) (s : State) : (backgroundLane u k s).mail = s.mail := by
  unfold backgroundLane
  try dsimp only
  (repeat' split) <;> first | rfl | (simp [forAll_mail, onlyIf_mail]; done)

@[simp] theorem adaptTurn_mail (u : Nat) (s : State) : (adaptTurn u s).mail = s.mail := by
  unfold adaptTurn
  try dsimp only
  (repeat' split) <;> first | rfl | (simp [forAll_mail, onlyIf_mail]; done)

@[simp] theorem adaptTurns_mail (s : State) : (adaptTurns s).mail = s.mail := by
  unfold adaptTurns
  simp [forAll_mail, onlyIf_mail]

@[simp] theorem probationSpoilt_mail (u : Nat) (s : State) : (probationSpoilt u s).mail = s.mail := by
  unfold probationSpoilt
  simp [onlyIf_mail]

@[simp] theorem probationClean_mail (u : Nat) (s : State) : (probationClean u s).mail = s.mail := by
  unfold probationClean
  try dsimp only
  (repeat' split) <;> first | rfl | (simp; done)

@[simp] theorem probationTurn_mail (u : Nat) (bitErrors foms : List Nat) (s : State) : (probationTurn u bitErrors foms s).mail = s.mail := by
  unfold probationTurn
  try dsimp only
  (repeat' split) <;> first | rfl | (simp [forAll_mail, onlyIf_mail]; done)

@[simp] theorem pushStream_mail (u : Nat) (bs : List Byte) (s : State) : (pushStream u bs s).mail = s.mail := by
  unfold pushStream
  rfl

@[simp] theorem noteOverrun_mail (u old stop : Nat) (s : State) : (noteOverrun u old stop s).mail = s.mail := by
  unfold noteOverrun
  try dsimp only
  (repeat' split) <;> first | rfl | (simp [forAll_mail, onlyIf_mail]; done)

@[simp] theorem linkSend_mail (u : Nat) (q : QFrame) (stomped : Bool) (s : State) : (linkSend u q stomped s).mail = s.mail := by
  unfold linkSend
  rfl

@[simp] theorem replay_mail (u : Nat) (s : State) : (replay u s).mail = s.mail := by
  unfold replay
  try dsimp only
  (repeat' split) <;> first | rfl | (simp [forAll_mail, onlyIf_mail]; done)

@[simp] theorem sendWaiting_mail (u : Nat) (s : State) : (sendWaiting u s).mail = s.mail := by
  unfold sendWaiting
  try dsimp only
  (repeat' split) <;> first | rfl | (simp [forAll_mail, onlyIf_mail]; done)

@[simp] theorem ackReceive_mail (u ackSeq : Nat) (valid nak : Bool) (s : State) : (ackReceive u ackSeq valid nak s).mail = s.mail := by
  unfold ackReceive
  try dsimp only
  (repeat' split) <;> first | rfl | (simp; done)

@[simp] theorem replaceIn_mail (u : Nat) (q q' : QFrame) (s : State) : (replaceIn u q q' s).mail = s.mail := by
  unfold replaceIn
  rfl

@[simp] theorem park_mail (u : Nat) (q : QFrame) (s : State) : (park u q s).mail = s.mail := by
  unfold park
  rfl

@[simp] theorem conform_mail (u : Nat) (q : QFrame) (s : State) : (conform u q s).mail = s.mail := by
  unfold conform
  try dsimp only
  (repeat' split) <;> first | rfl | (simp; done)

@[simp] theorem sendFrom_mail (u : Nat) (q : QFrame) (runEnd : Nat) (s : State) : (sendFrom u q runEnd s).mail = s.mail := by
  unfold sendFrom
  try dsimp only
  (repeat' split) <;> first | rfl | (simp [onlyIf_mail]; done)

@[simp] theorem egressEnd_mail (u : Nat) (q : QFrame) (s : State) : (egressEnd u q s).mail = s.mail := by
  unfold egressEnd
  simp [forAll_mail, onlyIf_mail]

/-- What completing an egress can change: the forwarding core alone. -/
theorem egressEnd_eq (u : Nat) (q : QFrame) (s : State) : ∃ w, egressEnd u q s = { s with fwd := w } := by
  unfold egressEnd onlyIf retire closeContext modQueued modReseq modFwd
  try dsimp only
  (repeat' split) <;> exact ⟨_, rfl⟩

theorem egressEnds_eq (s : State) : ∃ w, egressEnds s = { s with fwd := w } := by
  have h : ∀ (l : List (Nat × QFrame)) (t : State), ∃ w, forAll l (fun e => egressEnd e.1 e.2) t = { t with fwd := w } := by
    intro l
    induction l with
    | nil => intro t; exact ⟨t.fwd, rfl⟩
    | cons e l ih =>
      intro t
      obtain ⟨w, hw⟩ := egressEnd_eq e.1 e.2 t
      obtain ⟨v, hv⟩ := ih { t with fwd := w }
      exact ⟨v, by rw [show forAll (e :: l) _ t = forAll l (fun e => egressEnd e.1 e.2) (egressEnd e.1 e.2 t) from rfl, hw, hv]⟩
  exact h _ s

@[simp] theorem egressEnds_mail (s : State) : (egressEnds s).mail = s.mail := by
  obtain ⟨w, hw⟩ := egressEnds_eq s
  rw [hw]

@[simp] theorem noteWaited_mail (u : Nat) (s : State) : (noteWaited u s).mail = s.mail := by
  unfold noteWaited
  simp [forAll_mail, onlyIf_mail]

@[simp] theorem noteFirst_mail (u : Nat) (f : Frame) (s : State) : (noteFirst u f s).mail = s.mail := by
  unfold noteFirst
  try dsimp only
  (repeat' split) <;> first | rfl | (simp; done)

@[simp] theorem enterTray_mail (u : Nat) (x : Arrival) (s : State) : (enterTray u x s).2.mail = s.mail := by
  unfold enterTray
  try dsimp only
  (repeat' split) <;> rfl

@[simp] theorem routeFrame_mail (u : Nat) (f : Frame) (m : Moment) (shared : Option Nat) (s : State) : (routeFrame u f m shared s).mail = s.mail := by
  unfold routeFrame
  simp [forAll_mail, onlyIf_mail]

@[simp] theorem keepCopy_mail (f : Frame) (s : State) : (keepCopy f s).mail = s.mail := by
  unfold keepCopy
  try dsimp only
  (repeat' split) <;> rfl

@[simp] theorem replCopy_mail (u : Nat) (f : Frame) (m : Moment) (set ref k : Nat) (s : State) : (replCopy u f m set ref k s).mail = s.mail := by
  unfold replCopy
  simp [forAll_mail, onlyIf_mail]

@[simp] theorem replicate_mail (u : Nat) (f : Frame) (m : Moment) (s : State) : (replicate u f m s).mail = s.mail := by
  unfold replicate
  try dsimp only
  (repeat' split) <;> first | rfl | (simp [forAll_mail]; done)

@[simp] theorem lastingFault_mail (u : Nat) (s : State) : (lastingFault u s).mail = s.mail := by
  unfold lastingFault
  rfl

@[simp] theorem stompCopy_mail (u : Nat) (bytes : List Byte) (m : Moment) (s : State) : (stompCopy u bytes m s).mail = s.mail := by
  unfold stompCopy
  try dsimp only
  (repeat' split) <;> first | rfl | (simp [forAll_mail, onlyIf_mail]; done)

@[simp] theorem answer_mail (u : Nat) (nak : Bool) (s : State) : (answer u nak s).mail = s.mail := by
  unfold answer
  simp [forAll_mail, onlyIf_mail]

@[simp] theorem linkError_mail (u : Nat) (bytes : List Byte) (m : Moment) (expected : Bool) (s : State) : (linkError u bytes m expected s).mail = s.mail := by
  unfold linkError
  dsimp only
  split
  · rw [onlyIf_mail _ _ _ fun t => portRetrain_mail _ _ t, onlyIf_mail _ _ _ fun t => lastingFault_mail _ t, onlyIf_mail,
      modLink_mail, modLink_mail, onlyIf_mail _ _ _ fun t => stompCopy_mail _ _ _ t]
    intro t
    rw [answer_mail, emit_mail, countWin_mail]
  · rw [modLink_mail, onlyIf_mail _ _ _ fun t => stompCopy_mail _ _ _ t]

@[simp] theorem deliverFrame_mail (u : Nat) (f : Frame) (m : Moment) (s : State) : (deliverFrame u f m s).mail = s.mail := by
  unfold deliverFrame
  try dsimp only
  (repeat' split) <;> first | rfl | (simp [forAll_mail, onlyIf_mail]; done)

@[simp] theorem acceptFrame_mail (u status : Nat) (f : Frame) (m : Moment) (s : State) : (acceptFrame u status f m s).mail = s.mail := by
  unfold acceptFrame
  dsimp only
  split
  · rw [countWin_mail, answer_mail, modLink_mail, onlyIf_mail _ _ _ fun t => countWin_mail _ _ t]
  · rw [deliverFrame_mail, count_mail, count_mail, answer_mail, modLink_mail, onlyIf_mail _ _ _ fun t => countWin_mail _ _ t]

@[simp] theorem frameDone_mail (u : Nat) (bytes : List Byte) (m : Moment) (restart : Bool) (s : State) : (frameDone u bytes m restart s).mail = s.mail := by
  unfold frameDone
  try dsimp only
  (repeat' split) <;> first | rfl | (simp [forAll_mail, onlyIf_mail]; done)

@[simp] theorem pairLanes_mail (u : Nat) (corrected : List Nat) (s : State) : (pairLanes u corrected s).mail = s.mail := by
  unfold pairLanes
  simp [forAll_mail, onlyIf_mail]

@[simp] theorem badPair_mail (u : Nat) (holds : Bool) (s : State) : (badPair u holds s).mail = s.mail := by
  unfold badPair
  try dsimp only
  (repeat' split) <;> first | rfl | (simp [forAll_mail, onlyIf_mail]; done)

@[simp] theorem retryLoad_mail (mb : Nat) (s : State) : (retryLoad mb s).mail = s.mail := by
  unfold retryLoad
  try dsimp only
  (repeat' split) <;> rfl

@[simp] theorem modInst_mail (key : Nat) (f : Coll → Coll) (s : State) : (modInst key f s).mail = s.mail := by
  unfold modInst
  rfl

@[simp] theorem collDiscard_mail (reason : Nat) (s : State) : (collDiscard reason s).mail = s.mail := by
  unfold collDiscard
  simp

@[simp] theorem sendKept_mail (key : Nat) (f : Frame) (s : State) : (sendKept key f s).mail = s.mail := by
  unfold sendKept
  simp

@[simp] theorem noteContrib_mail (key : Nat) (parts : List (List Byte × Nat)) (s : State) : (noteContrib key parts s).mail = s.mail := by
  unfold noteContrib
  rfl

@[simp] theorem modChunk_mail (key idx : Nat) (f : Chunk → Chunk) (s : State) : (modChunk key idx f s).mail = s.mail := by
  unfold modChunk
  rfl

@[simp] theorem abandon_mail (key cause : Nat) (but : Option Nat) (s : State) : (abandon key cause but s).mail = s.mail := by
  unfold abandon
  try dsimp only
  (repeat' split) <;> first | rfl | (simp [forAll_mail]; done)

@[simp] theorem closeCheck_mail (key : Nat) (s : State) : (closeCheck key s).mail = s.mail := by
  unfold closeCheck
  try dsimp only
  (repeat' split) <;> rfl

@[simp] theorem engineInput_mail (bytes : Nat) (s : State) : (engineInput bytes s).mail = s.mail := by
  unfold engineInput
  rfl

@[simp] theorem openInst_mail (key : Nat) (f : Frame) (s : State) : (openInst key f s).mail = s.mail := by
  unfold openInst
  try dsimp only
  (repeat' split) <;> rfl

@[simp] theorem noteFrame_mail (key : Nat) (f : Frame) (s : State) : (noteFrame key f s).mail = s.mail := by
  unfold noteFrame
  rfl

@[simp] theorem noteArrival_mail (f : Frame) (s : State) : (noteArrival f s).mail = s.mail := by
  unfold noteArrival
  try dsimp only
  (repeat' split) <;> rfl

@[simp] theorem markerArrive_mail (f : Frame) (s : State) : (markerArrive f s).mail = s.mail := by
  unfold markerArrive
  try dsimp only
  (repeat' split) <;> first | rfl | (simp; done)

@[simp] theorem ensureChunk_mail (key idx : Nat) (s : State) : (ensureChunk key idx s).mail = s.mail := by
  unfold ensureChunk
  rfl

@[simp] theorem collHalfLost_mail (half : Nat) (s : State) : (collHalfLost half s).mail = s.mail := by
  unfold collHalfLost
  simp [forAll_mail]

@[simp] theorem abandonGroup_mail (n cause : Nat) (s : State) : (abandonGroup n cause s).mail = s.mail := by
  unfold abandonGroup
  simp [forAll_mail]

@[simp] theorem groupApply_mail (n : Nat) (g : Group) (sets : List Nat) (s : State) : (groupApply n g sets s).mail = s.mail := by
  unfold groupApply
  simp [forAll_mail, onlyIf_mail]

@[simp] theorem parkCheck_mail (n : Nat) (s : State) : (parkCheck n s).mail = s.mail := by
  unfold parkCheck
  try dsimp only
  (repeat' split) <;> rfl

@[simp] theorem packHalt_mail (n cause : Nat) (s : State) : (packHalt n cause s).mail = s.mail := by
  unfold packHalt
  try dsimp only
  (repeat' split) <;> rfl

@[simp] theorem packInto_mail (n : Nat) (blocks : List CBlock) (page : StallPage) (fresh : Bool) (s : State) : (packInto n blocks page fresh s).mail = s.mail := by
  unfold packInto
  rfl

@[simp] theorem pushDiscard_mail (n reason : Nat) (s : State) : (pushDiscard n reason s).mail = s.mail := by
  unfold pushDiscard
  simp [onlyIf_mail]

@[simp] theorem stageGroup_mail (n g : Nat) (s : State) : (stageGroup n g s).mail = s.mail := by
  unfold stageGroup
  try dsimp only
  (repeat' split) <;> rfl

@[simp] theorem pushAccept_mail (f : Frame) (s : State) : (pushAccept f s).mail = s.mail := by
  unfold pushAccept
  simp [forAll_mail]

@[simp] theorem stallPushArrive_mail (f : Frame) (s : State) : (stallPushArrive f s).mail = s.mail := by
  unfold stallPushArrive
  try dsimp only
  (repeat' split) <;> first | rfl | (simp; done)

@[simp] theorem pushEnds_mail (n : Nat) (s : State) : (pushEnds n s).mail = s.mail := by
  unfold pushEnds
  try dsimp only
  (repeat' split) <;> rfl

@[simp] theorem pageLost_mail (n page : Nat) (s : State) : (pageLost n page s).mail = s.mail := by
  unfold pageLost
  try dsimp only
  (repeat' split) <;> rfl

@[simp] theorem stallPageFault_mail (n page : Nat) (s : State) : (stallPageFault n page s).mail = s.mail := by
  unfold stallPageFault
  simp

@[simp] theorem stallHalfLost_mail (half : Nat) (s : State) : (stallHalfLost half s).mail = s.mail := by
  unfold stallHalfLost
  simp [forAll_mail]

@[simp] theorem modRecall_mail (n : Nat) (f : Recall → Recall) (s : State) : (modRecall n f s).mail = s.mail := by
  unfold modRecall
  rfl

@[simp] theorem pageFault_mail (page : Nat) (s : State) : (pageFault page s).mail = s.mail := by
  unfold pageFault
  try dsimp only
  (repeat' split) <;> first | rfl | (simp; done)

@[simp] theorem modSlot_mail (n : Nat) (f : Slot → Slot) (s : State) : (modSlot n f s).mail = s.mail := by
  unfold modSlot
  rfl

@[simp] theorem slotDone_mail (n : Nat) (r : AResult) (fault : Option Nat) (s : State) : (slotDone n r fault s).mail = s.mail := by
  unfold slotDone
  try dsimp only
  (repeat' split) <;> rfl

@[simp] theorem finishRun_mail (n outcome : Nat) (r : Run) (fault : Option Nat) (s : State) : (finishRun n outcome r fault s).mail = s.mail := by
  unfold finishRun
  try dsimp only
  (repeat' split) <;> first | rfl | (simp; done)

@[simp] theorem annealOff_mail (s : State) : (annealOff s).mail = s.mail := by
  unfold annealOff
  simp [forAll_mail]

@[simp] theorem annealPause_mail (on : Bool) (s : State) : (annealPause on s).mail = s.mail := by
  unfold annealPause
  try dsimp only
  (repeat' split) <;> rfl

@[simp] theorem calStore_mail (i : Nat) (v : Int) (s : State) : (calStore i v s).mail = s.mail := by
  unfold calStore
  rfl

@[simp] theorem sensorSet_mail (n : Nat) (raw : Int) (s : State) : (sensorSet n raw s).mail = s.mail := by
  unfold sensorSet
  try dsimp only
  (repeat' split) <;> rfl

@[simp] theorem raiseDomain_mail (d cause : Nat) (s : State) : (raiseDomain d cause s).mail = s.mail := by
  unfold raiseDomain
  rfl

@[simp] theorem domainStart_mail (d cause : Nat) (s : State) : (domainStart d cause s).mail = s.mail := by
  unfold domainStart
  rfl

@[simp] theorem placeStep_mail (reason : Nat) (s : State) : (placeStep reason s).mail = s.mail := by
  unfold placeStep
  rfl

@[simp] theorem withLevels_mail (reason : Nat) (f : Power → Power) (s : State) : (withLevels reason f s).mail = s.mail := by
  unfold withLevels
  try dsimp only
  (repeat' split) <;> rfl

@[simp] theorem thermalDown_mail (reason : Nat) (s : State) : (thermalDown reason s).mail = s.mail := by
  unfold thermalDown
  try dsimp only
  (repeat' split) <;> first | rfl | (simp; done)

@[simp] theorem setVdd_mail (a mv : Nat) (s : State) : (setVdd a mv s).mail = s.mail := by
  unfold setVdd
  rfl

@[simp] theorem vddTarget_mail (level : Nat) (s : State) : (vddTarget level s).mail = s.mail := by
  unfold vddTarget
  simp [forAll_mail, onlyIf_mail]

@[simp] theorem applyFreqStep_mail (a : Sched) (s : State) : (applyFreqStep a s).mail = s.mail := by
  have h : ∀ (c : Prop) [Decidable c] (t u : State), t.mail = s.mail → u.mail = s.mail →
      (if c then t else u).mail = s.mail := by
    intro c _ t u ht hu
    split
    · exact ht
    · exact hu
  have h2 : ∀ p : Bool, (match a.arg, p with
      | .freq l _, false => modPower (fun p => { p with setLevel := l }) s
      | _, _ => s).mail = s.mail := by
    intro p
    split <;> rfl
  unfold applyFreqStep
  refine h _ _ _ (h2 _) ?_
  rw [count_mail, raise_mail, vddTarget_mail, modPower_mail, modReel_mail]
  exact h2 _

@[simp] theorem applyGrants_mail (deferred : List (Nat × Nat)) (s : State) : (applyGrants deferred s).mail = s.mail := by
  unfold applyGrants
  simp

@[simp] theorem ledgerLevelTurn_mail (s : State) : (ledgerLevelTurn s).mail = s.mail := by
  unfold ledgerLevelTurn
  try dsimp only
  (repeat' split) <;> first | rfl | (simp; done)

@[simp] theorem overTurn_mail (wasLow : Bool) (s : State) : (overTurn wasLow s).mail = s.mail := by
  unfold overTurn
  try dsimp only
  (repeat' split) <;> rfl

@[simp] theorem avsMove_mail (a : Nat) (s : State) : (avsMove a s).mail = s.mail := by
  unfold avsMove
  try dsimp only
  (repeat' split) <;> rfl

@[simp] theorem avsRead_mail (a needed : Nat) (s : State) : (avsRead a needed s).mail = s.mail := by
  unfold avsRead
  try dsimp only
  (repeat' split) <;> first | rfl | (simp; done)

@[simp] theorem powerBoundary_mail (s : State) : (powerBoundary s).mail = s.mail := by
  unfold powerBoundary
  try dsimp only
  (repeat' split) <;> rfl

@[simp] theorem raiseCalDone_mail (l : Long) (status : Nat) (s : State) : (raiseCalDone l status s).mail = s.mail := by
  unfold raiseCalDone
  rfl

@[simp] theorem raiseSeldom_mail (key code : Nat) (items : List (Nat × Nat)) (s : State) : (raiseSeldom key code items s).mail = s.mail := by
  unfold raiseSeldom
  try dsimp only
  (repeat' split) <;> rfl

@[simp] theorem timeRule_mail (o : Int) (s : State) : (timeRule o s).mail = s.mail := by
  unfold timeRule
  try dsimp only
  (repeat' split) <;> first | rfl | (simp; done)

@[simp] theorem noteTies_mail (ties : List (Nat × Option Nat)) (s : State) : (noteTies ties s).mail = s.mail := by
  unfold noteTies
  simp [forAll_mail]

@[simp] theorem adoptPeers_mail (s : State) : (adoptPeers s).mail = s.mail := by
  unfold adoptPeers
  rfl

@[simp] theorem ledgerCompare_mail (why : Why) (s : State) : (ledgerCompare why s).mail = s.mail := by
  unfold ledgerCompare
  simp [onlyIf_mail]

@[simp] theorem ledgerSend_mail (r : Record) (n : Nat) (s : State) : (ledgerSend r n s).mail = s.mail := by
  unfold ledgerSend
  simp

@[simp] theorem ledgerDiscard_mail (s : State) : (ledgerDiscard s).mail = s.mail := by
  unfold ledgerDiscard
  rfl

@[simp] theorem ledgerKeep_mail (tray : Nat) (r : Record) (s : State) : (ledgerKeep tray r s).mail = s.mail := by
  unfold ledgerKeep
  try dsimp only
  (repeat' split) <;> rfl

@[simp] theorem ledgerReceive_mail (viaCrier : Bool) (sender : Nat) (slot : Option Nat) (payload : List Byte) (s : State) : (ledgerReceive viaCrier sender slot payload s).mail = s.mail := by
  unfold ledgerReceive
  try dsimp only
  (repeat' split) <;> first | rfl | (simp; done)

@[simp] theorem applyTableSwitch_mail (a : Sched) (s : State) : (applyTableSwitch a s).mail = s.mail := by
  unfold applyTableSwitch
  try dsimp only
  (repeat' split) <;> first | rfl | (simp; done)

@[simp] theorem applyPlanSwap_mail (a : Sched) (s : State) : (applyPlanSwap a s).mail = s.mail := by
  unfold applyPlanSwap
  try dsimp only
  (repeat' split) <;> first | rfl | (simp; done)

@[simp] theorem applyResume_mail (a : Sched) (s : State) : (applyResume a s).mail = s.mail := by
  unfold applyResume
  try dsimp only
  (repeat' split) <;> first | rfl | (simp; done)

@[simp] theorem crierMode_mail (s : State) : (crierMode s).mail = s.mail := by
  unfold crierMode
  try dsimp only
  (repeat' split) <;> rfl

@[simp] theorem crierStart_mail (f : CFrame) (s : State) : (crierStart f s).mail = s.mail := by
  unfold crierStart
  rfl

@[simp] theorem crierLedger_mail (turn : Nat) (s : State) : (crierLedger turn s).mail = s.mail := by
  unfold crierLedger
  rfl

@[simp] theorem heard_mail (carrier : Bool) (s : State) : (heard carrier s).mail = s.mail := by
  unfold heard
  try dsimp only
  (repeat' split) <;> rfl

@[simp] theorem backoffDraw_mail (s : State) : (backoffDraw s).mail = s.mail := by
  unfold backoffDraw
  simp [forAll_mail, onlyIf_mail]

@[simp] theorem slotClash_mail (slotTurn : Nat) (atStart : Bool) (s : State) : (slotClash slotTurn atStart s).mail = s.mail := by
  unfold slotClash
  try dsimp only
  (repeat' split) <;> first | rfl | (simp; done)

@[simp] theorem raiseTrimDone_mail (status : Nat) (s : State) : (raiseTrimDone status s).mail = s.mail := by
  unfold raiseTrimDone
  rfl

@[simp] theorem trimCrier_mail (gain : Int) (noise : Nat) (s : State) : (trimCrier gain noise s).mail = s.mail := by
  unfold trimCrier
  rfl

@[simp] theorem withBay_mail (b : Nat) (f : State → State) (s : State) (hf : ∀ t, (f t).mail = t.mail) : (withBay b f s).mail = s.mail := by
  unfold withBay
  simp [hf]

@[simp] theorem notActedOn_mail (s : State) : (notActedOn s).mail = s.mail := by
  unfold notActedOn
  rfl

@[simp] theorem disablePort_mail (u : Nat) (s : State) : (disablePort u s).mail = s.mail := by
  unfold disablePort
  simp

@[simp] theorem releaseCart_mail (b : Nat) (self : Bool) (s : State) : (releaseCart b self s).mail = s.mail := by
  unfold releaseCart
  simp [forAll_mail]

@[simp] theorem seatCart_mail (b : Nat) (s : State) : (seatCart b s).mail = s.mail := by
  unfold seatCart
  try dsimp only
  (repeat' split) <;> first | rfl | (simp [forAll_mail]; done)

@[simp] theorem askAct_mail (b : Nat) (s : State) : (askAct b s).mail = s.mail := by
  unfold askAct
  try dsimp only
  (repeat' split) <;> first | rfl | (simp; done)

@[simp] theorem beginSeat_mail (b : Nat) (s : State) : (beginSeat b s).mail = s.mail := by
  unfold beginSeat
  rfl

@[simp] theorem identityBad_mail (b : Nat) (s : State) : (identityBad b s).mail = s.mail := by
  unfold identityBad
  simp [forAll_mail, onlyIf_mail]

@[simp] theorem idRead_mail (b : Nat) (record : Option (List Byte)) (s : State) : (idRead b record s).mail = s.mail := by
  unfold idRead
  try dsimp only
  (repeat' split) <;> first | rfl | (simp; done)

@[simp] theorem surprise_mail (b : Nat) (s : State) : (surprise b s).mail = s.mail := by
  unfold surprise
  simp [forAll_mail]

@[simp] theorem bayOpened_mail (b : Nat) (s : State) : (bayOpened b s).mail = s.mail := by
  unfold bayOpened
  try dsimp only
  (repeat' split) <;> first | rfl | (simp; done)

@[simp] theorem readBays_mail (s : State) : (readBays s).mail = s.mail := by
  unfold readBays
  simp [forAll_mail]

@[simp] theorem safeCheck_mail (s : State) : (safeCheck s).mail = s.mail := by
  unfold safeCheck
  simp [onlyIf_mail]


end Sys2Proof.Machine
end

