-- ==== Sys2Proof/Laws/Memory.lean ====
section
/-! SUPPORT. Sparse tables and the mailbox buffers: every operation keeps the canonical form, a read after a write gives
what was written, and a write leaves every other place alone. -/

namespace Sys2Proof.Machine

open Sys2Proof

/-- The canonical form, one pair at a time: the value is listed for a reason, and every later key is greater. -/
theorem tabWf_cons {α : Type} [DecidableEq α] (d : α) (k : Nat) (v : α) (t : Tab α) :
    tabWf d ((k, v) :: t) = true ↔ v ≠ d ∧ (∀ e ∈ t, k < e.1) ∧ tabWf d t = true := by
  induction t generalizing k v with
  | nil => simp [tabWf]
  | cons e t ih =>
    obtain ⟨k', v'⟩ := e
    simp only [tabWf, Bool.and_eq_true, decide_eq_true_eq, ih k' v', List.mem_cons, forall_eq_or_imp]
    constructor
    · rintro ⟨⟨h1, h2⟩, h3, h4, h5⟩
      exact ⟨h1, ⟨h2, fun e he => lt_trans h2 (h4 e he)⟩, h3, h4, h5⟩
    · rintro ⟨h1, ⟨h2, -⟩, h3, h4, h5⟩
      exact ⟨⟨h1, h2⟩, h3, h4, h5⟩

/-- The keys of a table with one key set are its own and that key. -/
theorem tabSet_keys {α : Type} [DecidableEq α] (d : α) (t : Tab α) (k : Nat) (v : α) (e : Nat × α)
    (h : e ∈ tabSet d t k v) : e.1 = k ∨ e ∈ t := by
  induction t with
  | nil =>
    simp only [tabSet] at h
    split at h <;> simp_all
  | cons x t ih =>
    obtain ⟨k', v'⟩ := x
    simp only [tabSet] at h
    split at h
    · split at h <;> simp_all
      rcases h with h | h | h <;> simp_all
    · split at h
      · split at h <;> simp_all
        rcases h with h | h <;> simp_all
      · rcases List.mem_cons.1 h with h | h
        · simp_all
        · rcases ih h with h | h <;> simp_all

/-- Setting a key keeps the canonical form. -/
theorem tabSet_wf {α : Type} [DecidableEq α] (d : α) (t : Tab α) (k : Nat) (v : α) (h : tabWf d t = true) :
    tabWf d (tabSet d t k v) = true := by
  induction t with
  | nil =>
    simp only [tabSet]
    split <;> simp_all [tabWf]
  | cons x t ih =>
    obtain ⟨k', v'⟩ := x
    rw [tabWf_cons] at h
    obtain ⟨h1, h2, h3⟩ := h
    simp only [tabSet]
    split
    · split
      · rw [tabWf_cons]; exact ⟨h1, h2, h3⟩
      · next hlt hv =>
        rw [tabWf_cons, tabWf_cons]
        refine ⟨hv, ?_, h1, h2, h3⟩
        intro e he
        rcases List.mem_cons.1 he with rfl | he
        · exact hlt
        · exact lt_trans hlt (h2 e he)
    · split
      · next heq =>
        subst heq
        split
        · exact h3
        · next hv => rw [tabWf_cons]; exact ⟨hv, h2, h3⟩
      · rw [tabWf_cons]
        refine ⟨h1, ?_, ih h3⟩
        intro e he
        rcases tabSet_keys d t k v e he with he | he
        · omega
        · exact h2 e he

/-- A key below every listed one reads as unlisted. -/
theorem tabGet_below {α : Type} (d : α) (t : Tab α) (k : Nat) (h : ∀ e ∈ t, k < e.1) : tabGet d t k = d := by
  induction t with
  | nil => rfl
  | cons x t ih =>
    obtain ⟨k', v'⟩ := x
    have hk : k < k' := h (k', v') (by simp)
    simp only [tabGet]
    rw [if_neg (by omega)]
    exact ih fun e he => h e (by simp [he])

/-- Read after write: the key written gives the value, every other key what it gave. -/
theorem tabGet_tabSet {α : Type} [DecidableEq α] (d : α) (t : Tab α) (k : Nat) (v : α) (a : Nat)
    (h : tabWf d t = true) : tabGet d (tabSet d t k v) a = if a = k then v else tabGet d t a := by
  induction t with
  | nil =>
    simp only [tabSet]
    split
    · next hv => subst hv; simp [tabGet]
    · simp only [tabGet, eq_comm]
  | cons x t ih =>
    obtain ⟨k', v'⟩ := x
    rw [tabWf_cons] at h
    obtain ⟨h1, h2, h3⟩ := h
    simp only [tabSet]
    split
    · next hlt =>
      split
      · next hv =>
        split
        · next ha =>
          subst ha hv
          exact tabGet_below _ _ _ fun e he => by
            rcases List.mem_cons.1 he with rfl | he
            · exact hlt
            · exact lt_trans hlt (h2 e he)
        · rfl
      · simp only [tabGet, eq_comm]
    · split
      · next hge heq =>
        subst heq
        split
        · next hv =>
          subst hv
          split
          · next ha => subst ha; exact tabGet_below _ _ _ h2
          · next ha => simp only [tabGet]; rw [if_neg (fun h => ha h.symm)]
        · simp only [tabGet, eq_comm]
          split <;> rfl
      · next hge hne =>
        simp only [tabGet, ih h3]
        split
        · next ha => subst ha; rw [if_neg (fun h => hne h.symm)]
        · rfl

/-- A key written with a value that is listed reads as that value. -/
theorem tabGet_tabSet_self {α : Type} [DecidableEq α] (d : α) (t : Tab α) (k : Nat) (v : α) (h : v ≠ d) :
    tabGet d (tabSet d t k v) k = v := by
  induction t with
  | nil => simp [tabSet, h, tabGet]
  | cons x t ih =>
    obtain ⟨k', v'⟩ := x
    simp only [tabSet, if_neg h]
    split
    · simp [tabGet]
    · split
      · simp [tabGet]
      · next hne => simp only [tabGet, ih]; rw [if_neg (fun e => hne e.symm)]

/-- Every other key reads as before. -/
theorem tabGet_tabSet_ne {α : Type} [DecidableEq α] (d : α) (t : Tab α) (k : Nat) (v : α) (a : Nat) (h : a ≠ k) :
    tabGet d (tabSet d t k v) a = tabGet d t a := by
  induction t with
  | nil =>
    simp only [tabSet]
    split
    · rfl
    · simp only [tabGet]; rw [if_neg (fun e => h e.symm)]
  | cons x t ih =>
    obtain ⟨k', v'⟩ := x
    simp only [tabSet]
    split
    · split
      · rfl
      · simp only [tabGet]; rw [if_neg (fun e => h e.symm)]
    · split
      · next heq =>
        subst heq
        split
        · simp only [tabGet]; rw [if_neg (fun e => h e.symm)]
        · simp only [tabGet]
          rw [if_neg (fun e => h e.symm), if_neg (fun e => h e.symm)]
      · simp only [tabGet, ih]

/-! ### The mailbox buffers -/

theorem memWrite_wf (m : List Host.Cell) (a : Nat) (bs : List Byte) (h : Memory.wf m = true) :
    Memory.wf (memWrite m a bs) = true := by
  unfold Memory.wf memWrite at *
  induction bs generalizing m a with
  | nil => exact h
  | cons b bs ih => exact ih _ _ (tabSet_wf 0 m a b h)

theorem memCommit_wf (m : List Host.Cell) (ws : List (Nat × List Byte)) (h : Memory.wf m = true) :
    Memory.wf (memCommit m ws) = true := by
  unfold memCommit
  induction ws generalizing m with
  | nil => exact h
  | cons w ws ih => exact ih _ (memWrite_wf m w.1 w.2 h)

/-- A byte after a write: one of the bytes written, or what it was. -/
theorem memGet_memWrite (m : List Host.Cell) (a : Nat) (bs : List Byte) (x : Nat) (h : Memory.wf m = true) :
    memGet (memWrite m a bs) x = if a ≤ x ∧ x < a + bs.length then bs.getD (x - a) 0 else memGet m x := by
  unfold memWrite memGet
  induction bs generalizing m a with
  | nil => simp only [tabWrite, List.length_nil]; rw [if_neg (by omega)]
  | cons b bs ih =>
    simp only [tabWrite]
    rw [ih (tabSet 0 m a b) (a + 1) (tabSet_wf 0 m a b h), tabGet_tabSet 0 m a b x h]
    by_cases hx : x = a
    · subst hx
      rw [if_neg (by omega), if_pos rfl, if_pos (by simp)]
      simp
    · by_cases hin : a ≤ x ∧ x < a + (b :: bs).length
      · rw [if_pos hin, if_pos (by simp only [List.length_cons] at hin; omega)]
        obtain ⟨n, hn⟩ : ∃ n, x - a = n + 1 := ⟨x - a - 1, by omega⟩
        rw [hn, show x - (a + 1) = n by omega]
        simp
      · rw [if_neg hin, if_neg (by simp only [List.length_cons] at hin; omega), if_neg hx]

theorem memCommit_nil (m : List Host.Cell) : memCommit m [] = m := rfl

theorem memCommit_cons (m : List Host.Cell) (w : Nat × List Byte) (ws : List (Nat × List Byte)) :
    memCommit m (w :: ws) = memCommit (memWrite m w.1 w.2) ws := rfl

/-- Bytes read where a block was just written. -/
theorem tabRead_memWrite (m : List Host.Cell) (a : Nat) (bs : List Byte) (h : Memory.wf m = true) :
    tabRead (memWrite m a bs) a bs.length = bs := by
  unfold tabRead
  apply List.ext_getElem
  · simp
  · intro i h1 h2
    have hi : i < bs.length := by simpa using h1
    simp only [List.getElem_map, List.getElem_range]
    have := memGet_memWrite m a bs (a + i) h
    unfold memGet at this
    rw [this, if_pos (by omega)]
    simp [List.getD_eq_getElem?_getD, hi]

/-- Bytes read away from a block that was just written. -/
theorem tabRead_memWrite_ne (m : List Host.Cell) (a : Nat) (bs : List Byte) (x n : Nat) (h : Memory.wf m = true)
    (hd : x + n ≤ a ∨ a + bs.length ≤ x) : tabRead (memWrite m a bs) x n = tabRead m x n := by
  unfold tabRead
  apply List.map_congr_left
  intro i hi
  have hi : i < n := by simpa using hi
  have := memGet_memWrite m a bs (x + i) h
  unfold memGet at this
  rw [this, if_neg (by omega)]

end Sys2Proof.Machine
end

