-- ==== Sys2Proof/Laws/PerInstr.lean ====
section
/-! SUPPORT. One lemma per command: a mailbox command that has an opcode of its own carries one that R625 lists, and is
well formed exactly where it names a mailbox of the 32 and at most two failed attempts. -/

namespace Sys2Proof.Laws.Mailbox

open Sys2Proof Sys2Proof.Machine

/-- The opcode of a mailbox command is listed, and its two operands are all that can be ill formed (R592, R612, R625). -/
def Statement (i : Instr) : Prop :=
  ∀ op mb fails, i.command = some (op, mb, fails) →
    knownOpcode op = true ∧ (i.wf = true ↔ mb < 32 ∧ fails < 3)

/-- The row of a mailbox command. -/
theorem statement_of {i : Instr} {op mb fails : Nat} (hc : i.command = some (op, mb, fails))
    (hk : knownOpcode op = true) (hw : i.wf = (decide (mb < 32) && decide (fails < 3))) : Statement i := by
  intro op' mb' fails' h
  obtain ⟨rfl, rfl, rfl⟩ : op = op' ∧ mb = mb' ∧ fails = fails' := by simpa [hc] using h
  exact ⟨hk, by simp [hw]⟩

/-- The row of a command that is no mailbox command. -/
theorem statement_none {i : Instr} (hc : i.command = none) : Statement i := by
  intro op mb fails h
  simp [hc] at h

theorem nop (mb fails : Nat) : Statement (.nop mb fails) := statement_of rfl rfl rfl
theorem identityGet (mb fails : Nat) : Statement (.identityGet mb fails) := statement_of rfl rfl rfl
theorem mailboxConfigSet (mb fails : Nat) : Statement (.mailboxConfigSet mb fails) := statement_of rfl rfl rfl
theorem mailboxStatusGet (mb fails : Nat) : Statement (.mailboxStatusGet mb fails) := statement_of rfl rfl rfl
theorem remoteCall (mb fails : Nat) : Statement (.remoteCall mb fails) := statement_of rfl rfl rfl
theorem scheduledGet (mb fails : Nat) : Statement (.scheduledGet mb fails) := statement_of rfl rfl rfl
theorem scheduledCancel (mb fails : Nat) : Statement (.scheduledCancel mb fails) := statement_of rfl rfl rfl
theorem mailboxRead (mb fails : Nat) : Statement (.mailboxRead mb fails) := statement_of rfl rfl rfl
theorem portLaneSet (mb fails : Nat) : Statement (.portLaneSet mb fails) := statement_of rfl rfl rfl
theorem portTrain (mb fails : Nat) : Statement (.portTrain mb fails) := statement_of rfl rfl rfl
theorem laneBitslip (mb fails : Nat) : Statement (.laneBitslip mb fails) := statement_of rfl rfl rfl
theorem laneAdapt (mb fails : Nat) : Statement (.laneAdapt mb fails) := statement_of rfl rfl rfl
theorem portStatusGet (mb fails : Nat) : Statement (.portStatusGet mb fails) := statement_of rfl rfl rfl
theorem laneEqSet (mb fails : Nat) : Statement (.laneEqSet mb fails) := statement_of rfl rfl rfl
theorem laneEqGet (mb fails : Nat) : Statement (.laneEqGet mb fails) := statement_of rfl rfl rfl
theorem lanePatternSet (mb fails : Nat) : Statement (.lanePatternSet mb fails) := statement_of rfl rfl rfl
theorem eptWrite (mb fails : Nat) : Statement (.eptWrite mb fails) := statement_of rfl rfl rfl
theorem eptRead (mb fails : Nat) : Statement (.eptRead mb fails) := statement_of rfl rfl rfl
theorem tableSwitch (mb fails : Nat) : Statement (.tableSwitch mb fails) := statement_of rfl rfl rfl
theorem tableStatusGet (mb fails : Nat) : Statement (.tableStatusGet mb fails) := statement_of rfl rfl rfl
theorem queueConfigSet (mb fails : Nat) : Statement (.queueConfigSet mb fails) := statement_of rfl rfl rfl
theorem queueConfigGet (mb fails : Nat) : Statement (.queueConfigGet mb fails) := statement_of rfl rfl rfl
theorem fwdConfigSet (mb fails : Nat) : Statement (.fwdConfigSet mb fails) := statement_of rfl rfl rfl
theorem spillConfigSet (mb fails : Nat) : Statement (.spillConfigSet mb fails) := statement_of rfl rfl rfl
theorem spillStatusGet (mb fails : Nat) : Statement (.spillStatusGet mb fails) := statement_of rfl rfl rfl
theorem linkStatusGet (mb fails : Nat) : Statement (.linkStatusGet mb fails) := statement_of rfl rfl rfl
theorem planHeaderWrite (mb fails : Nat) : Statement (.planHeaderWrite mb fails) := statement_of rfl rfl rfl
theorem planPatternWrite (mb fails : Nat) : Statement (.planPatternWrite mb fails) := statement_of rfl rfl rfl
theorem planMapWrite (mb fails : Nat) : Statement (.planMapWrite mb fails) := statement_of rfl rfl rfl
theorem planSeal (mb fails : Nat) : Statement (.planSeal mb fails) := statement_of rfl rfl rfl
theorem planSwap (mb fails : Nat) : Statement (.planSwap mb fails) := statement_of rfl rfl rfl
theorem planStatusGet (mb fails : Nat) : Statement (.planStatusGet mb fails) := statement_of rfl rfl rfl
theorem planConformGet (mb fails : Nat) : Statement (.planConformGet mb fails) := statement_of rfl rfl rfl
theorem groupSet (mb fails : Nat) : Statement (.groupSet mb fails) := statement_of rfl rfl rfl
theorem groupGet (mb fails : Nat) : Statement (.groupGet mb fails) := statement_of rfl rfl rfl
theorem instanceGet (mb fails : Nat) : Statement (.instanceGet mb fails) := statement_of rfl rfl rfl
theorem instanceAbandon (mb fails : Nat) : Statement (.instanceAbandon mb fails) := statement_of rfl rfl rfl
theorem tallyRead (mb : Nat) (fails : Reading) : Statement (.tallyRead mb fails) := statement_of rfl rfl rfl
theorem collStatusGet (mb fails : Nat) : Statement (.collStatusGet mb fails) := statement_of rfl rfl rfl
theorem stallOpen (mb fails : Nat) : Statement (.stallOpen mb fails) := statement_of rfl rfl rfl
theorem stallBudgetSet (mb fails : Nat) : Statement (.stallBudgetSet mb fails) := statement_of rfl rfl rfl
theorem stallRecall (mb fails : Nat) : Statement (.stallRecall mb fails) := statement_of rfl rfl rfl
theorem stallTrim (mb fails : Nat) : Statement (.stallTrim mb fails) := statement_of rfl rfl rfl
theorem stallFree (mb fails : Nat) : Statement (.stallFree mb fails) := statement_of rfl rfl rfl
theorem stallGet (mb fails : Nat) : Statement (.stallGet mb fails) := statement_of rfl rfl rfl
theorem stallMapRead (mb fails : Nat) : Statement (.stallMapRead mb fails) := statement_of rfl rfl rfl
theorem poolRegionsSet (mb fails : Nat) : Statement (.poolRegionsSet mb fails) := statement_of rfl rfl rfl
theorem poolStatusGet (mb fails : Nat) : Statement (.poolStatusGet mb fails) := statement_of rfl rfl rfl
theorem annealLoad (mb fails : Nat) : Statement (.annealLoad mb fails) := statement_of rfl rfl rfl
theorem annealSeal (mb fails : Nat) : Statement (.annealSeal mb fails) := statement_of rfl rfl rfl
theorem annealRun (mb fails : Nat) : Statement (.annealRun mb fails) := statement_of rfl rfl rfl
theorem annealStop (mb fails : Nat) : Statement (.annealStop mb fails) := statement_of rfl rfl rfl
theorem annealClear (mb fails : Nat) : Statement (.annealClear mb fails) := statement_of rfl rfl rfl
theorem annealStatusGet (mb fails : Nat) : Statement (.annealStatusGet mb fails) := statement_of rfl rfl rfl
theorem annealResultGet (mb fails : Nat) : Statement (.annealResultGet mb fails) := statement_of rfl rfl rfl
theorem annealStateRead (mb fails : Nat) : Statement (.annealStateRead mb fails) := statement_of rfl rfl rfl
theorem powerConfigSet (mb fails : Nat) : Statement (.powerConfigSet mb fails) := statement_of rfl rfl rfl
theorem powerStatusGet (mb fails : Nat) : Statement (.powerStatusGet mb fails) := statement_of rfl rfl rfl
theorem powerDomainSet (mb fails : Nat) : Statement (.powerDomainSet mb fails) := statement_of rfl rfl rfl
theorem powerFreqSet (mb fails : Nat) : Statement (.powerFreqSet mb fails) := statement_of rfl rfl rfl
theorem powerIdleSet (mb fails : Nat) : Statement (.powerIdleSet mb fails) := statement_of rfl rfl rfl
theorem sensorRead (mb fails : Nat) : Statement (.sensorRead mb fails) := statement_of rfl rfl rfl
theorem powerCalSet (mb fails : Nat) : Statement (.powerCalSet mb fails) := statement_of rfl rfl rfl
theorem powerCalGet (mb fails : Nat) : Statement (.powerCalGet mb fails) := statement_of rfl rfl rfl
theorem powerCalRun (mb fails : Nat) : Statement (.powerCalRun mb fails) := statement_of rfl rfl rfl
theorem domainRoleSet (mb fails : Nat) : Statement (.domainRoleSet mb fails) := statement_of rfl rfl rfl
theorem domainRoleGet (mb fails : Nat) : Statement (.domainRoleGet mb fails) := statement_of rfl rfl rfl
theorem trayInventoryGet (mb fails : Nat) : Statement (.trayInventoryGet mb fails) := statement_of rfl rfl rfl
theorem reelConfigSet (mb fails : Nat) : Statement (.reelConfigSet mb fails) := statement_of rfl rfl rfl
theorem reelStatusGet (mb fails : Nat) : Statement (.reelStatusGet mb fails) := statement_of rfl rfl rfl
theorem reelBenchSet (mb fails : Nat) : Statement (.reelBenchSet mb fails) := statement_of rfl rfl rfl
theorem crierConfigSet (mb fails : Nat) : Statement (.crierConfigSet mb fails) := statement_of rfl rfl rfl
theorem crierStatusGet (mb fails : Nat) : Statement (.crierStatusGet mb fails) := statement_of rfl rfl rfl
theorem crierTrim (mb fails : Nat) : Statement (.crierTrim mb fails) := statement_of rfl rfl rfl
theorem ledgerPeersSet (mb fails : Nat) : Statement (.ledgerPeersSet mb fails) := statement_of rfl rfl rfl
theorem ledgerGet (mb fails : Nat) : Statement (.ledgerGet mb fails) := statement_of rfl rfl rfl
theorem ledgerStatusGet (mb fails : Nat) : Statement (.ledgerStatusGet mb fails) := statement_of rfl rfl rfl
theorem unitAdmit (mb fails : Nat) : Statement (.unitAdmit mb fails) := statement_of rfl rfl rfl
theorem unitWithdraw (mb fails : Nat) : Statement (.unitWithdraw mb fails) := statement_of rfl rfl rfl
theorem unitStatusGet (mb fails : Nat) : Statement (.unitStatusGet mb fails) := statement_of rfl rfl rfl
theorem holdConfigSet (mb fails : Nat) : Statement (.holdConfigSet mb fails) := statement_of rfl rfl rfl
theorem reseqStatusGet (mb fails : Nat) : Statement (.reseqStatusGet mb fails) := statement_of rfl rfl rfl
theorem panelConfigSet (mb fails : Nat) : Statement (.panelConfigSet mb fails) := statement_of rfl rfl rfl
theorem panelStatusGet (mb fails : Nat) : Statement (.panelStatusGet mb fails) := statement_of rfl rfl rfl
theorem cartAnswer (mb fails : Nat) : Statement (.cartAnswer mb fails) := statement_of rfl rfl rfl
theorem panelFindSet (mb fails : Nat) : Statement (.panelFindSet mb fails) := statement_of rfl rfl rfl
theorem cartInfoGet (mb fails : Nat) : Statement (.cartInfoGet mb fails) := statement_of rfl rfl rfl
theorem fwWrite (mb fails : Nat) : Statement (.fwWrite mb fails) := statement_of rfl rfl rfl
theorem fwVerify (mb fails : Nat) : Statement (.fwVerify mb fails) := statement_of rfl rfl rfl
theorem fwActivate (mb fails : Nat) : Statement (.fwActivate mb fails) := statement_of rfl rfl rfl
theorem fwStatusGet (mb fails : Nat) : Statement (.fwStatusGet mb fails) := statement_of rfl rfl rfl
theorem trayStateGet (mb fails : Nat) : Statement (.trayStateGet mb fails) := statement_of rfl rfl rfl
theorem trayRestart (mb fails : Nat) : Statement (.trayRestart mb fails) := statement_of rfl rfl rfl
theorem trayService (mb fails : Nat) : Statement (.trayService mb fails) := statement_of rfl rfl rfl
theorem trayResume (mb fails : Nat) : Statement (.trayResume mb fails) := statement_of rfl rfl rfl
theorem trayPowerDown (mb fails : Nat) : Statement (.trayPowerDown mb fails) := statement_of rfl rfl rfl
theorem mbDoorbell : ∀ a, Statement (.mbDoorbell a) := fun _ => statement_none rfl
theorem mbCtrlClaim : ∀ a b, Statement (.mbCtrlClaim a b) := fun _ _ => statement_none rfl
theorem mbCtrlRelease : ∀ a b, Statement (.mbCtrlRelease a b) := fun _ _ => statement_none rfl
theorem mbCtrlForce : ∀ a b, Statement (.mbCtrlForce a b) := fun _ _ => statement_none rfl
theorem evRingEnable : ∀ a, Statement (.evRingEnable a) := fun _ => statement_none rfl
theorem evRingDisable : ∀ a, Statement (.evRingDisable a) := fun _ => statement_none rfl
theorem evRead : ∀ a, Statement (.evRead a) := fun _ => statement_none rfl
theorem cwSelect : ∀ a, Statement (.cwSelect a) := fun _ => statement_none rfl
theorem cwSnap : ∀ a, Statement (.cwSnap a) := fun _ => statement_none rfl
theorem cwSnapDiscard : ∀ a, Statement (.cwSnapDiscard a) := fun _ => statement_none rfl
theorem cwClear : ∀ a, Statement (.cwClear a) := fun _ => statement_none rfl
theorem countLoRead : ∀ a, Statement (.countLoRead a) := fun _ => statement_none rfl
theorem registerWrite : ∀ a b, Statement (.registerWrite a b) := fun _ _ => statement_none rfl
theorem aonPowerUp : ∀ a b c, Statement (.aonPowerUp a b c) := fun _ _ _ => statement_none rfl
theorem aonPowerLost : Statement .aonPowerLost := statement_none rfl
theorem perstRelease : ∀ a b, Statement (.perstRelease a b) := fun _ _ => statement_none rfl
theorem pcieLinkReset : ∀ a, Statement (.pcieLinkReset a) := fun _ => statement_none rfl
theorem busbarSag : ∀ a, Statement (.busbarSag a) := fun _ => statement_none rfl
theorem busbarOvervoltage : ∀ a, Statement (.busbarOvervoltage a) := fun _ => statement_none rfl
theorem brownOutRecovery : ∀ a b, Statement (.brownOutRecovery a b) := fun _ _ => statement_none rfl
theorem bootStepComplete : ∀ a b c, Statement (.bootStepComplete a b c) := fun _ _ _ => statement_none rfl
theorem bootStepLimit : ∀ a, Statement (.bootStepLimit a) := fun _ => statement_none rfl
theorem reelEdgesPresent : Statement .reelEdgesPresent := statement_none rfl
theorem referenceLoss : ∀ a, Statement (.referenceLoss a) := fun _ => statement_none rfl
theorem reelMarker : ∀ a b, Statement (.reelMarker a b) := fun _ _ => statement_none rfl
theorem reelFrame : ∀ a, Statement (.reelFrame a) := fun _ => statement_none rfl
theorem markerAbsent : Statement .markerAbsent := statement_none rfl
theorem stepHoldAbandon : ∀ a, Statement (.stepHoldAbandon a) := fun _ => statement_none rfl
theorem stepCtrlOnlyEnd : Statement .stepCtrlOnlyEnd := statement_none rfl
theorem holdoverExpiry : Statement .holdoverExpiry := statement_none rfl
theorem countUnverified : Statement .countUnverified := statement_none rfl
theorem reelWaiting : Statement .reelWaiting := statement_none rfl
theorem reelWrap : Statement .reelWrap := statement_none rfl
theorem freqStep : Statement .freqStep := statement_none rfl
theorem freqStepEgressResume : Statement .freqStepEgressResume := statement_none rfl
theorem tableBankSwitch : Statement .tableBankSwitch := statement_none rfl
theorem tableGraceEnd : Statement .tableGraceEnd := statement_none rfl
theorem planBankSwap : Statement .planBankSwap := statement_none rfl
theorem unitAdmission : ∀ a, Statement (.unitAdmission a) := fun _ => statement_none rfl
theorem unitWithdrawal : ∀ a, Statement (.unitWithdrawal a) := fun _ => statement_none rfl
theorem withdrawalDrained : ∀ a, Statement (.withdrawalDrained a) := fun _ => statement_none rfl
theorem withdrawalDrainLimit : ∀ a, Statement (.withdrawalDrainLimit a) := fun _ => statement_none rfl
theorem unscheduledExit : Statement .unscheduledExit := statement_none rfl
theorem laneChange : ∀ a, Statement (.laneChange a) := fun _ => statement_none rfl
theorem relockDeadline : ∀ a, Statement (.relockDeadline a) := fun _ => statement_none rfl
theorem cdrLockTimeout : ∀ a, Statement (.cdrLockTimeout a) := fun _ => statement_none rfl
theorem trainingStepDone : ∀ a b, Statement (.trainingStepDone a b) := fun _ _ => statement_none rfl
theorem bitslipRound : ∀ a b c d e, Statement (.bitslipRound a b c d e) := fun _ _ _ _ _ => statement_none rfl
theorem trainingTimeout : ∀ a, Statement (.trainingTimeout a) := fun _ => statement_none rfl
theorem endReceived : ∀ a, Statement (.endReceived a) := fun _ => statement_none rfl
theorem signalLoss : ∀ a b, Statement (.signalLoss a b) := fun _ _ => statement_none rfl
theorem idleEntry : ∀ a, Statement (.idleEntry a) := fun _ => statement_none rfl
theorem prewake : ∀ a, Statement (.prewake a) := fun _ => statement_none rfl
theorem idleExitCheck : ∀ a b, Statement (.idleExitCheck a b) := fun _ _ => statement_none rfl
theorem backgroundAdapt : ∀ a, Statement (.backgroundAdapt a) := fun _ => statement_none rfl
theorem laneAdaptDone : ∀ a b c, Statement (.laneAdaptDone a b c) := fun _ _ _ => statement_none rfl
theorem probationTurn : ∀ a b c, Statement (.probationTurn a b c) := fun _ _ _ => statement_none rfl
theorem pairReceive : ∀ a b c d e f, Statement (.pairReceive a b c d e f) := fun _ _ _ _ _ _ => statement_none rfl
theorem ackTimeout : ∀ a, Statement (.ackTimeout a) := fun _ => statement_none rfl
theorem frameIngress : ∀ a, Statement (.frameIngress a) := fun _ => statement_none rfl
theorem spillReturn : ∀ a b c d, Statement (.spillReturn a b c d) := fun _ _ _ _ => statement_none rfl
theorem egressDecision : ∀ a, Statement (.egressDecision a) := fun _ => statement_none rfl
theorem planNoFit : ∀ a b c, Statement (.planNoFit a b c) := fun _ _ _ => statement_none rfl
theorem holdWindowEnd : ∀ a b, Statement (.holdWindowEnd a b) := fun _ _ => statement_none rfl
theorem asicAnswer : ∀ a, Statement (.asicAnswer a) := fun _ => statement_none rfl
theorem asicTableLoad : ∀ a b, Statement (.asicTableLoad a b) := fun _ _ => statement_none rfl
theorem lossNotice : ∀ a, Statement (.lossNotice a) := fun _ => statement_none rfl
theorem lossNoticeReceive : ∀ a, Statement (.lossNoticeReceive a) := fun _ => statement_none rfl
theorem mailboxReq : ∀ a, Statement (.mailboxReq a) := fun _ => statement_none rfl
theorem mailboxRsp : ∀ a, Statement (.mailboxRsp a) := fun _ => statement_none rfl
theorem longCommandLimit : ∀ a, Statement (.longCommandLimit a) := fun _ => statement_none rfl
theorem calDone : ∀ a b c, Statement (.calDone a b c) := fun _ _ _ => statement_none rfl
theorem crierTrimDone : ∀ a b c d, Statement (.crierTrimDone a b c d) := fun _ _ _ _ => statement_none rfl
theorem fwEraseDone : ∀ a, Statement (.fwEraseDone a) := fun _ => statement_none rfl
theorem fwVerifyDone : ∀ a, Statement (.fwVerifyDone a) := fun _ => statement_none rfl
theorem domainRampDone : ∀ a, Statement (.domainRampDone a) := fun _ => statement_none rfl
theorem domainFail : ∀ a, Statement (.domainFail a) := fun _ => statement_none rfl
theorem ledgerTurn : ∀ a, Statement (.ledgerTurn a) := fun _ => statement_none rfl
theorem thermalThreshold : ∀ a b, Statement (.thermalThreshold a b) := fun _ _ => statement_none rfl
theorem coolantFault : ∀ a b, Statement (.coolantFault a b) := fun _ _ => statement_none rfl
theorem coolantRecovery : ∀ a b, Statement (.coolantRecovery a b) := fun _ _ => statement_none rfl
theorem sensorFault : Statement .sensorFault := statement_none rfl
theorem avsUpdate : ∀ a b, Statement (.avsUpdate a b) := fun _ _ => statement_none rfl
theorem poolMigration : Statement .poolMigration := statement_none rfl
theorem patrolRead : ∀ a b, Statement (.patrolRead a b) := fun _ _ => statement_none rfl
theorem pageCopyDone : ∀ a, Statement (.pageCopyDone a) := fun _ => statement_none rfl
theorem stallPush : ∀ a, Statement (.stallPush a) := fun _ => statement_none rfl
theorem blockCompressed : ∀ a b, Statement (.blockCompressed a b) := fun _ _ => statement_none rfl
theorem stallPushTimeout : ∀ a, Statement (.stallPushTimeout a) := fun _ => statement_none rfl
theorem recallProgress : ∀ a b, Statement (.recallProgress a b) := fun _ _ => statement_none rfl
theorem stallRecallDone : ∀ a, Statement (.stallRecallDone a) := fun _ => statement_none rfl
theorem twineArrival : ∀ a b, Statement (.twineArrival a b) := fun _ _ => statement_none rfl
theorem abandonmentMarker : ∀ a, Statement (.abandonmentMarker a) := fun _ => statement_none rfl
theorem collTimeout : ∀ a, Statement (.collTimeout a) := fun _ => statement_none rfl
theorem upstreamWaitEnd : ∀ a b, Statement (.upstreamWaitEnd a b) := fun _ _ => statement_none rfl
theorem contextFree : ∀ a, Statement (.contextFree a) := fun _ => statement_none rfl
theorem annealRunStart : ∀ a b c, Statement (.annealRunStart a b c) := fun _ _ _ => statement_none rfl
theorem annealDone : Statement .annealDone := statement_none rfl
theorem annealStopEffect : Statement .annealStopEffect := statement_none rfl
theorem ledgerExchange : Statement .ledgerExchange := statement_none rfl
theorem ledgerRecordReceive : ∀ a, Statement (.ledgerRecordReceive a) := fun _ => statement_none rfl
theorem ledgerPeerSilent : ∀ a, Statement (.ledgerPeerSilent a) := fun _ => statement_none rfl
theorem crierSlotStart : ∀ a, Statement (.crierSlotStart a) := fun _ => statement_none rfl
theorem crierBackoffEnd : ∀ a, Statement (.crierBackoffEnd a) := fun _ => statement_none rfl
theorem crierFrameReceive : ∀ a b c d, Statement (.crierFrameReceive a b c d) := fun _ _ _ _ => statement_none rfl
theorem panelSample : ∀ a, Statement (.panelSample a) := fun _ => statement_none rfl
theorem trayFindPressed : Statement .trayFindPressed := statement_none rfl
theorem lampTest : Statement .lampTest := statement_none rfl
theorem lampTestEnd : Statement .lampTestEnd := statement_none rfl
theorem askPress : ∀ a, Statement (.askPress a) := fun _ => statement_none rfl
theorem cartLocate : ∀ a, Statement (.cartLocate a) := fun _ => statement_none rfl
theorem buttonStuck : ∀ a, Statement (.buttonStuck a) := fun _ => statement_none rfl
theorem askTimeout : ∀ a, Statement (.askTimeout a) := fun _ => statement_none rfl
theorem findTimeout : ∀ a, Statement (.findTimeout a) := fun _ => statement_none rfl
theorem bayLatchOpen : ∀ a, Statement (.bayLatchOpen a) := fun _ => statement_none rfl
theorem bayLatchClosed : ∀ a, Statement (.bayLatchClosed a) := fun _ => statement_none rfl
theorem cartIdRead : ∀ a b, Statement (.cartIdRead a b) := fun _ _ => statement_none rfl
theorem cartRemoved : ∀ a, Statement (.cartRemoved a) := fun _ => statement_none rfl
theorem trayLatchOpen : Statement .trayLatchOpen := statement_none rfl
theorem trayLatchClosed : Statement .trayLatchClosed := statement_none rfl
theorem bayMgmtOverload : ∀ a, Statement (.bayMgmtOverload a) := fun _ => statement_none rfl
theorem warmRestartBegin : Statement .warmRestartBegin := statement_none rfl
theorem warmRestartDone : Statement .warmRestartDone := statement_none rfl
theorem warmRestartLimit : Statement .warmRestartLimit := statement_none rfl
theorem pumpRunOnEnd : Statement .pumpRunOnEnd := statement_none rfl
theorem eventBacklogDrain : Statement .eventBacklogDrain := statement_none rfl
theorem eventInterrupt : Statement .eventInterrupt := statement_none rfl
theorem badOpcode : ∀ a b, Statement (.badOpcode a b) := fun _ _ => statement_none rfl
theorem farReady : ∀ a, Statement (.farReady a) := fun _ => statement_none rfl
theorem thermalRecovery : Statement .thermalRecovery := statement_none rfl
theorem deniedDisplayEnd : ∀ a, Statement (.deniedDisplayEnd a) := fun _ => statement_none rfl
theorem crierFrameEnded : Statement .crierFrameEnded := statement_none rfl

end Sys2Proof.Laws.Mailbox
end

