-- ==== Sys2Proof/Laws/Steps.lean ====
section
/-! SUPPORT. What the end of a step does (R640, R643), and what a mailbox command does once it stands at its execution
point (R596, R599, R601, R602): everything a later proof needs of `finish` and `runCommand`, said once. -/

namespace Sys2Proof.Machine

open Sys2Proof

/-! ### The end of a step -/

@[simp] theorem msix_hull (v : Nat) (s : State) : (msix v s).hull = s.hull := by
  unfold msix
  repeat' split
  all_goals rfl

@[simp] theorem modEv_hull (f : Events → Events) (s : State) : (modEv f s).hull = s.hull := rfl
@[simp] theorem modCtr_hull (f : Counters → Counters) (s : State) : (modCtr f s).hull = s.hull := rfl
@[simp] theorem count_hull (k n : Nat) (s : State) : (count k n s).hull = s.hull := rfl
@[simp] theorem countWin_hull (k n : Nat) (s : State) : (countWin k n s).hull = s.hull := rfl
@[simp] theorem raise_hull (c : Nat) (d : List (Nat × Nat)) (s : State) : (raise c d s).hull = s.hull := rfl
@[simp] theorem stick_hull (n : Nat) (s : State) : (stick n s).hull = s.hull := rfl
@[simp] theorem emit_hull (o : Out) (s : State) : (emit o s).hull = s.hull := rfl
@[simp] theorem useTurn_hull (k : Nat) (s : State) : (useTurn k s).hull = s.hull := rfl

@[simp] theorem loseEvent_hull (s : State) : (loseEvent s).hull = s.hull := by
  unfold loseEvent
  rw [count_hull, stick_hull, modEv_hull]

@[simp] theorem ringWrite_hull (r : EvRec) (s : State) : (ringWrite r s).hull = s.hull := by
  unfold ringWrite
  dsimp only
  split
  · rw [msix_hull, count_hull]; rfl
  · rw [count_hull]; rfl

theorem placeEvent_hull (r : Raised) (s : State) : (placeEvent r s).hull = s.hull := by
  unfold placeEvent
  dsimp only
  split
  · simp only [count_hull, modEv_hull]
  · split
    · split <;> simp only [loseEvent_hull, count_hull, modEv_hull]
    · split
      · simp only [ringWrite_hull, count_hull, modEv_hull]
      · split <;> simp only [loseEvent_hull, count_hull, modEv_hull]

theorem flushEvents_hull (s : State) : (flushEvents s).hull = s.hull := by
  unfold flushEvents
  suffices h : ∀ (l : List Raised) (t : State), (l.foldl (fun s r => placeEvent r s) t).hull = t.hull from h _ _
  intro l
  induction l with
  | nil => intro t; rfl
  | cons r l ih => intro t; rw [List.foldl_cons, ih, placeEvent_hull]

/-- Equal hulls are equal outside the records. -/
theorem hull_mail {s t : State} (h : s.hull = t.hull) : s.mail = t.mail := by
  have := congrArg State.mail h
  exact this

theorem arch_of_hull {s t : State} (h : s.hull = t.hull) : s.arch = t.arch := by
  unfold State.arch; rw [h]

theorem flushEvents_mail (s : State) : (flushEvents s).mail = s.mail := hull_mail (flushEvents_hull s)

/-- The buffers after a step. -/
theorem finish_mail (s t : State) : (finish s t).mail =
    { t.mail with
      mem := memCommit (if t.mail.wipe then [] else s.mail.mem) t.mail.writes, writes := [], wipe := false } := by
  show (flushEvents _).mail = _
  rw [flushEvents_mail]

theorem finish_arch (s t : State) : (finish s t).arch = t.arch := by
  have h : (finish s t).arch = (flushEvents
      { t with
        pending := s.pending
        tray := { t.tray with number := s.tray.number }
        mail := { t.mail with
          mem := memCommit (if t.mail.wipe then [] else s.mail.mem) t.mail.writes, writes := [], wipe := false } }).arch := rfl
  rw [h, arch_of_hull (flushEvents_hull _)]
  rfl

/-- A step that leaves the mailboxes alone leaves what it says, apart from the records. -/
theorem finish_hull {s t u : State} (hs : Clean s) (h : t.hull = u.hull) (hm : u.mail = s.mail) :
    (finish s t).hull = u.hull := by
  have h1 : (finish s t).arch = u.arch := by rw [finish_arch, arch_of_hull h]
  have h2 : (finish s t).mail = u.mail := by
    have ht : t.mail = s.mail := (hull_mail h).trans hm
    obtain ⟨-, hw, hp, -⟩ := hs
    rw [finish_mail, hm, ht, hw, hp, memCommit_nil]
    simp only [Bool.false_eq_true, if_false]
    rw [← hw, ← hp]
  have h3 : (finish s t).hull = { (finish s t).arch with mail := (finish s t).mail } := rfl
  have h4 : u.hull = { u.arch with mail := u.mail } := rfl
  rw [h3, h4, h1, h2]

/-- A command whose meaning leaves the mailboxes alone takes the state it names. -/
theorem takes_of_act {i : Instr} {f : State → State} {s t : State} (he : exec i s = act f s) (hs : Clean s)
    (h : (f s).hull = t.hull) (hm : t.mail = s.mail) : Takes i s t :=
  ⟨finish s (f s), he, finish_hull hs h hm⟩

theorem placeEvent_pending (r : Raised) (s : State) : (placeEvent r s).pending = s.pending := by
  have hm : ∀ v t, (msix v t).pending = t.pending := by
    intro v t; unfold msix; (repeat' split) <;> rfl
  have hl : ∀ t, (loseEvent t).pending = t.pending := fun t => by
    unfold loseEvent; rw [count_pending, stick_pending, modEv_pending]
  have hw : ∀ r t, (ringWrite r t).pending = t.pending := by
    intro r t
    unfold ringWrite
    dsimp only
    split
    · rw [hm, count_pending]
    · rw [count_pending]
  unfold placeEvent
  dsimp only
  split
  · simp only [count_pending, modEv_pending]
  · split
    · split <;> simp only [hl, count_pending, modEv_pending]
    · split
      · simp only [hw, count_pending, modEv_pending]
      · split <;> simp only [hl, count_pending, modEv_pending]

/-- The queue of commands is as it was: only the step takes from it. -/
theorem finish_pending (s t : State) : (finish s t).pending = s.pending := by
  have h : ∀ u : State, (flushEvents u).pending = u.pending := by
    intro u
    unfold flushEvents
    suffices h : ∀ (l : List Raised) (t : State), (l.foldl (fun s r => placeEvent r s) t).pending = t.pending from h _ _
    intro l
    induction l with
    | nil => intro t; rfl
    | cons r l ih => intro t; rw [List.foldl_cons, ih, placeEvent_pending]
  exact h _

theorem finish_batch (s t : State) : (finish s t).ev.batch = [] := rfl
theorem finish_reads (s t : State) : (finish s t).pool.reads = [] := rfl

/-- Every step's end is clean. -/
theorem finish_clean {s t : State} (hs : Clean s) : Clean (finish s t) := by
  obtain ⟨h, -, -, -⟩ := hs
  refine ⟨?_, ?_, ?_, rfl, rfl⟩
  · rw [finish_mail]
    apply memCommit_wf
    split
    · rfl
    · exact h
  · rw [finish_mail]
  · rw [finish_mail]

/-! ### Words of an argument block -/

theorem leBytes_length (n v : Nat) : (leBytes n v).length = n := by
  induction n generalizing v with
  | zero => rfl
  | succ n ih => simp [leBytes, ih]

theorem leWords_length (ws : List Nat) : (leWords ws).length = 4 * ws.length := by
  induction ws with
  | nil => rfl
  | cons w ws ih =>
    have h : leWords (w :: ws) = leBytes 4 w ++ leWords ws := rfl
    rw [h, List.length_append, ih, leBytes_length, List.length_cons]
    omega

theorem ofLe_leBytes4 (w : Nat) : ofLe (leBytes 4 w) = w % 2 ^ 32 := by
  simp only [leBytes, ofLe, BitVec.toNat_ofNat]
  omega

theorem wordLe_leWords (ws : List Nat) (i : Nat) (hi : i < ws.length) : wordLe (leWords ws) i = ws.getD i 0 % 2 ^ 32 := by
  induction ws generalizing i with
  | nil => simp at hi
  | cons w ws ih =>
    have h : leWords (w :: ws) = leBytes 4 w ++ leWords ws := rfl
    cases i with
    | zero =>
      unfold wordLe
      rw [h, Nat.mul_zero, List.drop_zero, List.take_append_of_le_length (by rw [leBytes_length])]
      rw [List.take_of_length_le (by rw [leBytes_length]), ofLe_leBytes4]
      rfl
    | succ i =>
      have hi : i < ws.length := by simpa using hi
      rw [List.getD_cons_succ, ← ih i hi]
      unfold wordLe
      rw [h, show 4 * (i + 1) = (leBytes 4 w).length + 4 * i by rw [leBytes_length]; omega, List.drop_append,
        List.drop_eq_nil_of_le (by omega), Nat.add_sub_cancel_left, List.nil_append]

/-- An argument word of a command that is ready. -/
theorem argW_ready {op mb : Nat} {args : List Nat} {s : State} (h : Ready op mb args s) (i : Nat) (hi : i < args.length) :
    argW (cmdOf op mb 0 s) i = args.getD i 0 := by
  obtain ⟨-, -, -, -, -, -, hl, -, hw, ha⟩ := h
  unfold argW cmdOf
  simp only [hl]
  rw [ha, wordLe_leWords args i hi]
  have : args.getD i 0 < 2 ^ 32 := by
    rw [List.getD_eq_getElem _ _ hi]; exact hw _ (List.getElem_mem hi)
  omega

theorem len_ready {op mb : Nat} {args : List Nat} {s : State} (h : Ready op mb args s) :
    (cmdOf op mb 0 s).len = 4 * args.length := h.2.2.2.2.2.2.1

theorem args_ready {op mb : Nat} {args : List Nat} {s : State} (h : Ready op mb args s) :
    (cmdOf op mb 0 s).args = leWords args := by
  obtain ⟨-, -, -, -, -, -, hl, -, -, ha⟩ := h
  show tabRead _ _ (fld (hdr s mb 2) 11 0) = _
  rw [hl, ha]

theorem mb_ready (op mb : Nat) (s : State) : (cmdOf op mb 0 s).mb = mb := rfl

/-! ### Completion -/

/-- What a run of a ready command comes to: its body's verdict, settled. -/
theorem runCommand_ready {op mb : Nat} {args : List Nat} {s : State} (h : Ready op mb args s) (ro : Cmd → Bool)
    (onFault : Cmd → State → State) (body : Cmd → State → Verdict) :
    runCommand op mb 0 ro onFault body s =
      settle (cmdOf op mb 0 s) (ro (cmdOf op mb 0 s)) (onFault (cmdOf op mb 0 s)) (body (cmdOf op mb 0 s) (popOrder s))
        (popOrder s) := by
  obtain ⟨-, hp, -, hr, -, -, hl, hn, -, -⟩ := h
  unfold runCommand
  rw [if_pos hp]
  have h1 : (popOrder s).tray.recovery = false := hr
  have h2 : (cmdOf op mb 0 s).len = 4 * args.length := hl
  have h3 : ∀ v, lengthBad (cmdOf op mb 0 s) v = false := by
    intro v
    have h4 : (4 * args.length % 4 != 0) = false := by simp
    have h5 : decide (4064 < 4 * args.length) = false := by simp; omega
    unfold lengthBad
    rw [h2, h4, h5]; rfl
  simp only [h1, h3, Bool.false_and, Bool.false_eq_true, if_false]

theorem doneHeader_length (s : State) (n st rb at' af g : Nat) : (doneHeader s n st rb at' af g).length = 32 := by
  unfold doneHeader; rw [leWords_length]; rfl

theorem doneHeader_status (s : State) (n st rb at' af g : Nat) :
    (doneHeader s n st rb at' af g).getD 1 0 = BitVec.ofNat 8 st := by
  have hw : ∀ w : Nat, (BitVec.ofNat 8 ((w - put 15 8 (fld w 15 8) + put 15 8 st) / 256)) = BitVec.ofNat 8 st := by
    intro w
    apply BitVec.eq_of_toNat_eq
    simp only [BitVec.toNat_ofNat, put, fld]
    omega
  exact hw _

/-- The buffers after a completion: status and result block stand in them, all else is as before. -/
theorem completion_reads (m : List Host.Cell) (mb : Nat) (header result : List Byte) (st : Nat) (h : Memory.wf m = true)
    (hl : header.length = 32) (hs : header.getD 1 0 = BitVec.ofNat 8 st) :
    memGet (memCommit m [(0x1000 * mb + 32, result), (0x1000 * mb, header)]) (0x1000 * mb + 1) = BitVec.ofNat 8 st ∧
      tabRead (memCommit m [(0x1000 * mb + 32, result), (0x1000 * mb, header)]) (0x1000 * mb + 32) result.length = result ∧
      ∀ a, a < 0x1000 * mb ∨ 0x1000 * mb + 32 + result.length ≤ a →
        memGet (memCommit m [(0x1000 * mb + 32, result), (0x1000 * mb, header)]) a = memGet m a := by
  simp only [memCommit_cons, memCommit_nil]
  have hw := memWrite_wf m (0x1000 * mb + 32) result h
  refine ⟨?_, ?_, ?_⟩
  · rw [memGet_memWrite _ _ _ _ hw, if_pos (by omega), show 0x1000 * mb + 1 - 0x1000 * mb = 1 by omega, hs]
  · rw [tabRead_memWrite_ne _ _ _ _ _ hw (by omega), tabRead_memWrite _ _ _ h]
  · intro a ha
    rw [memGet_memWrite _ _ _ _ hw, if_neg (by omega), memGet_memWrite _ _ _ _ h, if_neg (by omega)]

theorem signalDone_pcie (n : Nat) (payload : List Byte) (s : State) (h : (box s n).via = .pcie) :
    (signalDone n payload s).hull = s.hull := by
  unfold signalDone
  simp only [h]
  split
  · exact msix_hull _ _
  · rfl

/-- The state in which a completed mailbox is signalled: result block and header on their way to the buffer, DONE, and
the MB_DONE bit. -/
def doneState (mb : Nat) (header res : List Byte) (t : State) : State :=
  modMail (fun m => { m with done := m.done ||| (1#32 <<< mb) })
    (modBox mb (fun b => { b with st := .done }) (bufWrite (0x1000 * mb) header (bufWrite (0x1000 * mb + 32) res t)))

theorem modMail_arch (g : Mail → Mail) (s : State) : (modMail g s).arch = s.arch := rfl
theorem modBox_arch (n : Nat) (g : Mbox → Mbox) (s : State) : (modBox n g s).arch = s.arch := by
  unfold modBox; exact modMail_arch _ _
theorem bufWrite_arch (a : Nat) (bs : List Byte) (s : State) : (bufWrite a bs s).arch = s.arch := by
  unfold bufWrite; exact modMail_arch (fun m => { m with writes := m.writes ++ [(a, bs)] }) s

theorem doneState_arch (mb : Nat) (header res : List Byte) (t : State) : (doneState mb header res t).arch = t.arch := by
  unfold doneState; rw [modMail_arch, modBox_arch, bufWrite_arch, bufWrite_arch]

theorem doneState_done (mb : Nat) (header res : List Byte) (t : State) :
    (doneState mb header res t).mail.done = t.mail.done ||| (1#32 <<< mb) := rfl

theorem doneState_writes (mb : Nat) (header res : List Byte) (t : State) :
    (doneState mb header res t).mail.writes = (t.mail.writes ++ [(0x1000 * mb + 32, res)]) ++ [(0x1000 * mb, header)] := rfl

theorem doneState_wipe (mb : Nat) (header res : List Byte) (t : State) :
    (doneState mb header res t).mail.wipe = t.mail.wipe := rfl

theorem done_listed (mb : Nat) (y : Mbox) : { y with st := MState.done } ≠ boxAtReset mb := by
  intro e
  have := congrArg Mbox.st e
  simp [boxAtReset] at this

theorem doneState_boxes (mb : Nat) (header res : List Byte) (t : State) : (doneState mb header res t).mail.boxes =
    tabMod (boxAtReset mb) t.mail.boxes mb fun b => { b with st := .done } := rfl

theorem doneState_box (mb : Nat) (header res : List Byte) (t : State) :
    box (doneState mb header res t) mb = { box t mb with st := .done } := by
  unfold box
  rw [doneState_boxes]
  unfold tabMod
  rw [tabGet_tabSet_self _ _ _ _ (done_listed mb _)]

theorem completeWith_hull (mb : Nat) (header res : List Byte) (t : State) (hv : (box t mb).via = .pcie) :
    (completeWith mb header res t).hull = (doneState mb header res t).hull := by
  have hf := flushEvents_hull t
  have hm : (flushEvents t).mail = t.mail := hull_mail hf
  have hc : completeWith mb header res t = signalDone mb (header ++ res) (doneState mb header res (flushEvents t)) := rfl
  have hd : (doneState mb header res (flushEvents t)).hull = (doneState mb header res t).hull := by
    have h : ∀ u : State, (doneState mb header res u).hull = doneState mb header res u.hull := fun _ => rfl
    rw [h, h, hf]
  rw [hc, signalDone_pcie _ _ _, hd]
  rw [doneState_box]
  unfold box
  rw [hm]
  exact hv

/-- A completion of a host's mailbox (R596): DONE with its bit, status and result block in the buffer, all else as in
the state it is made from. -/
theorem complete_spec {s t u : State} {mb st attempts argFault : Nat} {res : List Byte} (hs : Clean s)
    (hv : (box t mb).via = .pcie) (hw : t.mail.writes = []) (hp : t.mail.wipe = false)
    (hu : u = finish s (complete mb st attempts argFault res t)) :
    u.arch = t.arch ∧
      u.mail = { t.mail with
        mem := u.mail.mem
        done := t.mail.done ||| (1#32 <<< mb)
        boxes := tabMod (boxAtReset mb) t.mail.boxes mb fun b => { b with st := .done } } ∧
      memGet u.mail.mem (0x1000 * mb + 1) = BitVec.ofNat 8 st ∧
      tabRead u.mail.mem (0x1000 * mb + 32) res.length = res ∧
      ∀ a, a < 0x1000 * mb ∨ 0x1000 * mb + 32 + res.length ≤ a → memGet u.mail.mem a = memGet s.mail.mem a := by
  have hl := doneHeader_length t mb st res.length attempts argFault t.mail.gen
  have hst := doneHeader_status t mb st res.length attempts argFault t.mail.gen
  unfold complete at hu
  revert hl hst hu
  generalize doneHeader t mb st res.length attempts argFault t.mail.gen = header
  intro hu hl hst
  have hh := completeWith_hull mb header res t hv
  have hm := hull_mail hh
  have ha := arch_of_hull hh
  revert hu hm ha
  generalize completeWith mb header res t = x
  intro hu hm ha
  have h1 : u.arch = t.arch := by rw [hu, finish_arch, ha, doneState_arch]
  have hum : u.mail = { (doneState mb header res t).mail with
      mem := memCommit s.mail.mem [(0x1000 * mb + 32, res), (0x1000 * mb, header)], writes := [], wipe := false } := by
    rw [hu, finish_mail, hm, doneState_wipe, doneState_writes, hp, hw]
    rfl
  have h4 : u.mail.mem = memCommit s.mail.mem [(0x1000 * mb + 32, res), (0x1000 * mb, header)] := by rw [hum]
  have hr := completion_reads s.mail.mem mb header res st hs.1 hl hst
  refine ⟨h1, ?_, ?_, ?_, ?_⟩
  · rw [h4, hum, ← hw, ← hp]; rfl
  · rw [h4]; exact hr.1
  · rw [h4]; exact hr.2.1
  · rw [h4]; exact hr.2.2

theorem bumpGen_arch (ro : Bool) (s : State) : (bumpGen ro s).arch = s.arch := by unfold bumpGen; split <;> rfl

theorem bumpGen_mail (ro : Bool) (s : State) : (bumpGen ro s).mail =
    { s.mail with gen := if ro then s.mail.gen else (s.mail.gen + 1) % 2 ^ 32 } := by
  cases ro <;> rfl

/-- A ready command whose body is done completes with the body's status, result and state. -/
theorem completes_done {i : Instr} {op mb : Nat} {args : List Nat} {ro : Cmd → Bool} {onFault : Cmd → State → State}
    {body : Cmd → State → Verdict} {s t u : State} {st : Nat} {r : Bool} {res : List Byte}
    (he : exec i s = act (runCommand op mb 0 ro onFault body) s) (h : Ready op mb args s)
    (hr : ro (cmdOf op mb 0 s) = r)
    (hb : body (cmdOf op mb 0 s) (popOrder s) = .done st res t) (ha : t.arch = u.arch)
    (hm : t.mail = { u.mail with order := u.mail.order.drop 1 })
    (hv : (box t mb).via = .pcie) (hw : t.mail.writes = []) (hp : t.mail.wipe = false) : Completes i mb s st r res u := by
  have hrun := runCommand_ready h ro onFault body
  have hg : staleGuard mb (popOrder s) = false := h.2.2.2.2.1
  have hset : runCommand op mb 0 ro onFault body s = complete mb st 1 0xFFF res (bumpGen r t) := by
    rw [hrun, hb, ← hr]
    unfold settle
    have h0 : (cmdOf op mb 0 s).fails = 0 := rfl
    have h1 : (cmdOf op mb 0 s).mb = mb := rfl
    simp only [h1, hg, h0, Bool.false_eq_true, if_false]
    rfl
  have hbm := bumpGen_mail r t
  have hbb : box (bumpGen r t) mb = box t mb := by unfold box; rw [hbm]
  have := complete_spec (s := s) (t := bumpGen r t) (mb := mb) (st := st) (attempts := 1)
    (argFault := 0xFFF) (res := res) h.1 (by rw [hbb]; exact hv) (by rw [hbm]; exact hw) (by rw [hbm]; exact hp) rfl
  obtain ⟨h1, h2, h3, h4, h5⟩ := this
  refine ⟨_, he, ?_⟩
  show (finish s (runCommand op mb 0 ro onFault body s)).arch = _ ∧ _
  rw [hset]
  refine ⟨?_, ?_, h3, h4, h5⟩
  · rw [h1, bumpGen_arch, ha]
  · rw [h2, hbm, hm]

/-- As above where the body leaves the mailboxes alone. -/
theorem completes_done' {i : Instr} {op mb : Nat} {args : List Nat} {ro : Cmd → Bool} {onFault : Cmd → State → State}
    {body : Cmd → State → Verdict} {s t u : State} {st : Nat} {r : Bool} {res : List Byte}
    (he : exec i s = act (runCommand op mb 0 ro onFault body) s) (h : Ready op mb args s)
    (hr : ro (cmdOf op mb 0 s) = r)
    (hb : body (cmdOf op mb 0 s) (popOrder s) = .done st res t) (hm : t.mail = (popOrder s).mail)
    (hu : t.arch = u.arch) (hn : u.mail = s.mail) : Completes i mb s st r res u :=
  completes_done he h hr hb hu (by rw [hm, hn]; rfl) (by unfold box; rw [hm]; exact h.2.2.1)
    (by rw [hm]; exact h.1.2.1) (by rw [hm]; exact h.1.2.2.1)

/-- A refusal completes with its status and changes nothing else (R602). -/
theorem completes_refuse {i : Instr} {op mb : Nat} {args : List Nat} {ro : Cmd → Bool} {onFault : Cmd → State → State}
    {body : Cmd → State → Verdict} {s : State} {st af : Nat} {res : List Byte}
    (he : exec i s = act (runCommand op mb 0 ro onFault body) s) (h : Ready op mb args s)
    (hb : body (cmdOf op mb 0 s) (popOrder s) = .refuse st af res) : Completes i mb s st true res s := by
  have hg : staleGuard mb (popOrder s) = false := h.2.2.2.2.1
  have hset : runCommand op mb 0 ro onFault body s = complete mb st 0 af res (popOrder s) := by
    rw [runCommand_ready h, hb]
    unfold settle
    have h1 : (cmdOf op mb 0 s).mb = mb := rfl
    simp only [h1, hg, Bool.false_and, Bool.false_eq_true, if_false]
  have := complete_spec (s := s) (t := popOrder s) (mb := mb) (st := st) (attempts := 0) (argFault := af) (res := res)
    h.1 h.2.2.1 h.1.2.1 h.1.2.2.1 rfl
  refine ⟨_, he, ?_⟩
  show (finish s (runCommand op mb 0 ro onFault body s)).arch = _ ∧ _
  rw [hset]
  exact ⟨this.1.trans rfl, this.2⟩

/-- A ready long command whose body starts is EXECUTING with its limit (R601). -/
theorem starts_of {i : Instr} {op mb subject ticks : Nat} {args : List Nat} {ro : Cmd → Bool}
    {onFault : Cmd → State → State} {body : Cmd → State → Verdict} {s t u : State} {r : Bool}
    (he : exec i s = act (runCommand op mb 0 ro onFault body) s) (h : Ready op mb args s)
    (hr : ro (cmdOf op mb 0 s) = r)
    (hb : body (cmdOf op mb 0 s) (popOrder s) = .start subject ticks t) (hc : t.reel.clock = s.reel.clock)
    (ha : t.arch = u.arch) (hm : t.mail = { u.mail with order := u.mail.order.drop 1 })
    (hw : t.mail.writes = []) (hp : t.mail.wipe = false) :
    Starts i op mb subject ticks r s u := by
  have hg : staleGuard mb (popOrder s) = false := h.2.2.2.2.1
  have hset : runCommand op mb 0 ro onFault body s = startLong (cmdOf op mb 0 s) subject ticks (bumpGen r t) := by
    rw [runCommand_ready h, hb, ← hr]
    unfold settle
    have h1 : (cmdOf op mb 0 s).mb = mb := rfl
    have h0 : (cmdOf op mb 0 s).fails = 0 := rfl
    simp only [h1, hg, h0, Bool.false_eq_true, if_false]
    rfl
  refine ⟨_, he, ?_⟩
  show (finish s (runCommand op mb 0 ro onFault body s)).arch = _ ∧ _
  rw [hset]
  have hbm := bumpGen_mail r t
  have hxc : (bumpGen r t).reel.clock = s.reel.clock := by rw [← hc]; cases r <;> rfl
  have hxa := bumpGen_arch r t
  revert hbm hxc hxa
  generalize bumpGen r t = x
  intro hbm hxc hxa
  have hl := doneHeader_length x mb 0 0 0 0 x.mail.gen
  unfold startLong
  have h1 : (cmdOf op mb 0 s).mb = mb := rfl
  simp only [h1]
  revert hl
  generalize doneHeader x mb 0 0 0 0 x.mail.gen = header
  intro hl
  have hdl : (header.drop 20).length = 12 := by rw [List.length_drop, hl]
  revert hdl
  generalize header.drop 20 = bs
  intro hdl
  refine ⟨?_, ?_, ?_⟩
  · rw [finish_arch, modMail_arch, modBox_arch, bufWrite_arch, hxa, ha]
  · rw [finish_mail]
    have : (bufWrite (0x1000 * mb + 20) bs x).reel.clock = s.reel.clock := hxc
    have e2 : ∀ f g, (modMail f (modBox mb g (bufWrite (0x1000 * mb + 20) bs x))).mail =
      f { x.mail with writes := x.mail.writes ++ [(0x1000 * mb + 20, bs)], boxes := tabMod (boxAtReset mb) x.mail.boxes mb g } :=
      fun _ _ => rfl
    rw [e2, hbm]
    rw [this]
    rw [hm] at hw hp
    rw [hm]
    simp only at hw hp ⊢
    rw [hw, hp]
    rfl
  · intro a hah
    rw [finish_mail]
    have e2 : ∀ f g, (modMail f (modBox mb g (bufWrite (0x1000 * mb + 20) bs x))).mail =
      f { x.mail with writes := x.mail.writes ++ [(0x1000 * mb + 20, bs)], boxes := tabMod (boxAtReset mb) x.mail.boxes mb g } :=
      fun _ _ => rfl
    rw [e2, hbm]
    simp only [hw, hp, Bool.false_eq_true, if_false, List.nil_append]
    rw [memCommit_cons, memCommit_nil, memGet_memWrite _ _ _ _ h.1.1, if_neg (by dsimp only; omega)]

end Sys2Proof.Machine
end

