-- ==== Sys2Proof/Tests/Slice0.lean ====
section
/-! SUPPORT. The model's own tests: ill-formed terms, single steps, and for every clause of the statements a state and
operands that meet its hypotheses. -/

open Sys2Proof Sys2Proof.Machine

namespace Sys2Proof.Tests

/-- A tray in STANDBY with every switched domain on, its time good, in turn 1,000. -/
def up : State :=
  { tray := { st := .standby, strapsRead := true }
    power := { on := [0, 1, 2, 3, 4, 5, 6, 7, 8, 9] }
    reel := { st := .locked, turn := 1000, clock := 4096000, bounds := 1000 } }

/-- A command of the host at its execution point, its header in the buffer with a length in bytes. -/
def headed (op mb len : Nat) (s : State) : State :=
  { s with
    mail :=
      { s.mail with
        boxes := tabMod (boxAtReset mb) s.mail.boxes mb fun b => { b with st := .queued }
        order := [mb]
        mem := memWrite [] (0x1000 * mb) (leWords [op * 2 ^ 16, 0, len, 0, 0, 0, 0, 0]) } }

/-- The same command with its argument words. -/
def ready (op mb : Nat) (args : List Nat) (s : State) : State :=
  let h := headed op mb (4 * args.length) s
  { h with mail := { h.mail with mem := memWrite h.mail.mem (0x1000 * mb + 32) (leWords args) } }

theorem leWords_length (ws : List Nat) : (leWords ws).length = 4 * ws.length := by
  induction ws with
  | nil => rfl
  | cons w t ih => simp only [leWords, List.flatMap_cons, List.length_append] at *; rw [ih]; simp [leBytes]; omega

/-- A command with many argument words is ready where its header is. -/
theorem ready_of {op mb : Nat} {args : List Nat} {s : State}
    (hc : Clean (headed op mb (4 * args.length) s)) (hp : atPoint op mb (headed op mb (4 * args.length) s) = true)
    (hv : (box (headed op mb (4 * args.length) s) mb).via = .pcie) (hr : s.tray.recovery = false)
    (hg : staleGuard mb (headed op mb (4 * args.length) s) = false) (hm : mb < 32)
    (hl : fld (hdr (headed op mb (4 * args.length) s) mb 2) 11 0 = 4 * args.length) (hn : args.length ≤ 1016)
    (ha : ∀ w ∈ args, w < 2 ^ 32) : Ready op mb args (ready op mb args s) := by
  have hw := hc.1
  have hh : ∀ i < 8, hdr (ready op mb args s) mb i = hdr (headed op mb (4 * args.length) s) mb i := by
    intro i hi
    simp only [hdr, ready]
    rw [tabRead_memWrite_ne _ _ _ _ _ hw (Or.inl (by omega))]
  have hk : Clean (ready op mb args s) := ⟨memWrite_wf _ _ _ hw, hc.2.1, hc.2.2.1, hc.2.2.2⟩
  refine ⟨hk, ?_, ?_, ?_, ?_, hm, ?_, hn, ha, ?_⟩
  · have h1 : mailOpen (ready op mb args s) = mailOpen (headed op mb (4 * args.length) s) := by
      simp only [mailOpen, fwUp, coreUp, ready]
      rfl
    have h2 : (ready op mb args s).mail.order = (headed op mb (4 * args.length) s).mail.order := rfl
    have h3 : box (ready op mb args s) mb = box (headed op mb (4 * args.length) s) mb := by simp only [box, ready]
    simp only [atPoint, opcodeOf, hh 0 (by omega), h1, h2, h3] at hp ⊢
    exact hp
  · have h3 : box (ready op mb args s) mb = box (headed op mb (4 * args.length) s) mb := by simp only [box, ready]
    rw [h3]
    exact hv
  · simp only [ready, headed]
    exact hr
  · have h1 : (ready op mb args s).mail.gen = (headed op mb (4 * args.length) s).mail.gen := rfl
    simp only [staleGuard, hh 3 (by omega), hh 4 (by omega), h1] at hg ⊢
    exact hg
  · rw [hh 2 (by omega)]
    exact hl
  · rw [← leWords_length]
    simp only [ready]
    exact tabRead_memWrite _ _ _ hw

/-- Observations of a training step: four good lanes, with a skew. -/
def seen (skew : Nat) : TrainObs :=
  ⟨[true, true, true, true], true, true, [], skew, [true, true, true, true]⟩

/-- A valid marker of four lanes at rate 0 that carries a lane number (R108). -/
def laneMarker (lane : Nat) : Marker :=
  let m := 0x9B2E * 2 ^ 16 + lane * 2 ^ 14 + 2 * 2 ^ 12
  ⟨BitVec.ofNat 40 (m * 256 + crc8 (beBytes 4 m)), 0, false⟩

/-- Four lanes wired out of order. -/
def crossed : TrainObs :=
  ⟨[], true, true, [some (laneMarker 2), some (laneMarker 0), some (laneMarker 3), some (laneMarker 1)], 0, []⟩

/-- A one-shot adaptation of lane 0 that has made its steps. -/
def adapted : Adapt := { mb := 2, lanes := [0], retry := [0], run := 1, start := 968, steps := 16 }

/-- Whatever CARRIER_LEVEL is, no carrier is heard at it and carrier is heard above it. -/
theorem quiet (s : State) : carrierOn s (carrierLevel s) = false := by simp [carrierOn]
theorem undisturbed (l : Long) (s : State) (h : s.crier.foreignAt = none) : trimDisturbed (carrierLevel s) l s = false := by
  simp [trimDisturbed, quiet, h]
theorem loud (s : State) : carrierOn s (carrierLevel s + 1) = true := by simp [carrierOn]

/-- A plan bank with bolts of one turn and one pattern, for all ASICs: port 5 of ASIC 0, PREWAKE in pitch 1. -/
def bank : Bank :=
  { header := [0x01F00401, 0, 1, 0, 0, 0, 0, 0], written := true, sealed := true, patterns := [(1, 0x21)], map := [(5, 0)] }

/-- The tray with that plan in force. -/
def planned : State := { up with plan.a := bank, plan.inForce := some false }

/-- The same bank with the digest that R310 gives it. -/
def goodBank : Bank := { bank with header := [0x01F00401, 0, 1, 0, 0, 0, 0x0795752D, 0x31F6F301] }

set_option maxRecDepth 100000 in
theorem goodBank_seals : (sealError { goodBank with sealed := false }).1 = 0 := by decide +kernel

/-- The smallest problem image: version 1, one variable, no coupling, one point of the curve, its CRC. -/
def image : Slot := { st := .loading, image := [(3, 1), (60, 0x17), (61, 0x0A), (62, 0x33), (63, 0x2C)], covered := [(0, 324)] }

set_option maxRecDepth 100000 in
theorem image_seals : (annealError image).1 = 0 := by decide +kernel

/-- An abandonment marker (R344). -/
def marker : Frame := { cls := 1, w3 := 5, w4 := 0xFFF, w5 := 0xFFFFFF00 }

/-- A recall of stall 1 with its data handed over, or not. -/
def rcl (handed : Option Nat) : Recall :=
  { stall := 1, tag := 1, first := 0, count := 1, targets := [5], chan := 0, linger := 16, release := false, pmax := 4096
    asics := [0], sets := [0], handedAt := handed }

/-- A request frame without its mailbox (R606). -/
def req : Frame := { w3 := 0x00020000, payload := zeros 32 }

/-- A Crier LEDGER frame of tray 7 without payload, with its CRC (R511). -/
def heardFrame : List Byte := beWords [0x00070800, 0] ++ beBytes 2 (crc16 (beWords [0x00070800, 0]))

/-- A valid reel frame that names turn 1,001 (R96). -/
def nextFrame : BitVec 128 :=
  let head := 0x5A6B0000 * 2 ^ 96 + 1001 * 2 ^ 64 + 0x10000000 * 2 ^ 32
  BitVec.ofNat 128 (head + crc16 (beBytes 14 (head / 2 ^ 16)))

/-- A tray with a coolant fault. -/
def dry : State := { up with power.coolantFault := true }

/-- The effective offset of the flow sensor lies within its range, whatever the factory value. -/
theorem flowOffset (s : State) : -128 ≤ calEffective s 30 ∧ calEffective s 30 ≤ 128 := by
  have h : calLimits 30 = (-128, 128) := rfl
  simp only [calEffective, h, clampI]
  omega

/-- Whatever the factory offset of the flow sensor, a reading of 0 lies below the minimum. -/
theorem lowFlow : sensorCal up 30 (0 : Nat) < 800 := by
  have h := flowOffset up
  simp only [sensorCal, satI]
  omega

/-- A reading of 1,000 lies above the minimum, whatever the factory offset. -/
theorem goodFlow : 800 ≤ sensorCal dry 30 (1000 : Nat) := by
  have h := flowOffset dry
  simp only [sensorCal, satI]
  omega

/-! ### Well-formed commands: one ill-formed term for each kind of check -/

theorem test_wf_mailbox : (Instr.nop 32 0).wf = false ∧ (Instr.nop 31 0).wf = true := by decide
theorem test_wf_fails : (Instr.fwVerify 0 3).wf = false ∧ (Instr.fwVerify 0 2).wf = true := by decide
theorem test_wf_claim_mailbox : (Instr.mbCtrlClaim 32 0).wf = false ∧ (Instr.mbCtrlClaim 31 0).wf = true := by decide
theorem test_wf_owner : (Instr.mbCtrlForce 0 65536).wf = false ∧ (Instr.mbCtrlForce 0 65535).wf = true := by decide
theorem test_wf_offset : (Instr.registerWrite 0x1002 [some 0]).wf = false ∧ (Instr.countLoRead 0x4101).wf = false := by decide
theorem test_wf_straps : (Instr.aonPowerUp 256 ⟨false, 0, true, 0, 0⟩ false).wf = false := by decide
theorem test_wf_tones : (Instr.crierFrameReceive [130] [] 0 false).wf = false ∧ (Instr.crierFrameReceive [140] [] 0 false).wf = true := by decide
theorem test_wf_unit : (Instr.unitAdmission 65536).wf = false ∧ (Instr.unitAdmission 0x6000).wf = true := by decide
theorem test_wf_port : (Instr.idleEntry 92).wf = false ∧ (Instr.idleEntry 91).wf = true := by decide
theorem test_wf_side : (Instr.idleEntry 0x8005).wf = false ∧ (Instr.idleEntry 0x8048).wf = true := by decide
theorem test_wf_port_kind : (Instr.laneChange 0x2000).wf = false := by decide
theorem test_wf_markers : (Instr.trainingStepDone 5 { seen 0 with markers := [none, none, none, none, none] }).wf = false := by decide
theorem test_wf_lane : (Instr.bitslipRound 5 4 none false false).wf = false := by decide
theorem test_wf_cause : (Instr.signalLoss 5 (.silent [4])).wf = false ∧ (Instr.signalLoss 5 .idle).wf = true := by decide
theorem test_wf_stream : (Instr.pairReceive 5 0 [] false false []).wf = false := by decide
theorem test_wf_asic : (Instr.asicAnswer 4).wf = false ∧ (Instr.holdWindowEnd 4 ⟨0, []⟩).wf = false := by decide
theorem test_wf_class : (Instr.spillReturn 0 0 5 []).wf = false ∧ (Instr.planNoFit 0 92 0).wf = false := by decide
theorem test_wf_flow : (Instr.lossNotice ⟨2 ^ 27, []⟩).wf = false := by decide
theorem test_wf_interface : (Instr.mailboxReq 32).wf = false ∧ (Instr.stallPush 31).wf = true := by decide
theorem test_wf_domain : (Instr.domainFail 10).wf = false ∧ (Instr.thermalThreshold 256 0).wf = false := by decide
theorem test_wf_page : (Instr.patrolRead (2 ^ 23) 0).wf = false ∧ (Instr.patrolRead 0 4).wf = false := by decide
theorem test_wf_stall : (Instr.stallPushTimeout 65536).wf = false ∧ (Instr.recallProgress 65536 []).wf = false := by decide
theorem test_wf_key : (Instr.contextFree (2 ^ 32)).wf = false := by decide
theorem test_wf_parity : (Instr.annealRunStart 3 0 0).wf = false := by decide
theorem test_wf_tray : (Instr.ledgerPeerSilent 256).wf = false := by decide
theorem test_wf_bay : (Instr.askPress 16).wf = false ∧ (Instr.buttonStuck 17).wf = false := by decide

/-! ### The interface: the table gives no bits -/

theorem test_no_word : decodeTableWord 32 0 = none ∧ up.withFetchWord 32 5 = up := by decide

/-! ### Checksums, against the published check values of these CRCs over the digits 1 to 9 -/

def digits : List Byte := [0x31, 0x32, 0x33, 0x34, 0x35, 0x36, 0x37, 0x38, 0x39]

theorem test_crc8 : crc8 digits = 0xF4 := by decide +kernel
theorem test_crc16 : crc16 digits = 0x29B1 := by decide +kernel
theorem test_crc32c : crc32c digits = 0xE3069283 := by decide +kernel
theorem test_crc64 : crc64 digits = 0x6C40DF5F0B497347 := by decide +kernel

/-- R102's table and precoding by hand: 00 01 11 10 are G 0 1 2 3; P(n) = (G(n) − P(n−1)) mod 4 from P(−1) = 0. -/
theorem test_gray_and_precode :
    graySymbols [false, false, false, true, true, true, true, false] = [0, 1, 2, 3] ∧
    precode 0 [1, 1, 2, 3] = [1, 0, 2, 1] ∧ [0, 1, 2, 3].map levelOf = [-3, -1, 1, 3] := by decide +kernel

/-- R145's square: 16 symbols P = 0, then 16 symbols P = 3. -/
theorem test_square_pattern :
    ((patternBlock 0 { pattern := { tx := 4 }, txPrbs := patternSeed 4 }).1.take 33) =
      List.replicate 16 (-3) ++ List.replicate 16 3 ++ [-3] := by decide +kernel

/-! ### Single steps -/

/-- The state after a command. -/
def after (i : Instr) (s : State) : State := match exec i s with | .next t => t | _ => s

/-- STATUS of a mailbox (R620: header bytes 0 to 3 hold the opcode and, in bits 15 to 8, the status). -/
def statusOf (s : State) (mb : Nat) : Byte := memGet s.mail.mem (0x1000 * mb + 1)

/-- R623: NOP returns its argument block. -/
theorem test_nop_echoes :
    tabRead (after (.nop 3 0) (ready 0 3 [0x12345678] up)).mail.mem 0x3020 4 = [0x78, 0x56, 0x34, 0x12] := by
  decide +kernel

/-- R595: a mailbox whose command has completed is DONE, and the command has left the order of execution. -/
theorem test_nop_done :
    (box (after (.nop 3 0) (ready 0 3 [] up)) 3).st = .done ∧ (after (.nop 3 0) (ready 0 3 [] up)).mail.order = [] := by
  decide +kernel

/-- R594, R598: a rung mailbox is QUEUED and last in the order. -/
theorem test_doorbell :
    (box (after (.mbDoorbell 7) up) 7).st = .queued ∧ (after (.mbDoorbell 7) up).mail.order = [7] := by decide +kernel

/-- R594: a doorbell for a mailbox that serves the fabric is rejected and counted. -/
theorem test_doorbell_rejected : (after (.mbDoorbell 30) up).mail.rejects = 1 := by decide +kernel

/-- R625: an opcode that no chapter lists returns BAD_OPCODE. -/
theorem test_bad_opcode : statusOf (after (.badOpcode 2 0) (ready 0x0BFF 2 [] up)) 2 = BitVec.ofNat 8 stBadOpcode := by
  decide +kernel

/-- R57: an argument block for DOMAIN_ROLE_GET is a bad argument. -/
theorem test_role_get_length :
    statusOf (after (.domainRoleGet 2 0) (ready 0x0801 2 [0] up)) 2 = BitVec.ofNat 8 stBadArg := by decide +kernel

/-- R63: after tick 4,095 tick 0 of the next turn. -/
theorem test_turn_wraps :
    (match step { up with reel.tick := 4095 } with | .next t => (t.reel.turn, t.reel.tick) | _ => (0, 0)) = (1001, 0) := by
  decide +kernel

/-- R470, R465: a new cap is stored, and not in effect before tick 0. -/
theorem test_cap_waits :
    let t := after (.powerConfigSet 2 0) (ready 0x0700 2 [4000, 0x10000400, 16, 0x640000] up)
    t.power.cfg.cap = 4600 ∧ t.power.cfgNext.map (·.cap) = some 4000 := by decide +kernel

/-- R138: PORT_TRAIN with AUTO takes a DARK port end to TRAINING. -/
theorem test_port_train : (port (after (.portTrain 2 0) (ready 0x0101 2 [0x848, 1] up)) 0x8048).st = .training := by
  decide +kernel

/-- R55: an accepted role is kept as declared. -/
theorem test_role_set :
    (after (.domainRoleSet 2 0) (ready 0x0800 2 [0x0101, 0x00202048] up)).tray.role = some ⟨1, 0, 0, 1, 72, 2, 2⟩ := by
  decide +kernel

/-- R647: EV_READ within N behind EV_WRITE is taken. -/
theorem test_ev_read : (after (.evRead 5) { up with ev.write := 9 }).ev.read = 5 := by decide +kernel

/-- R523: a short press of the find button sets the tray's find indication for 8 units of 8,388,608 turns (R528). -/
theorem test_find : (after .trayFindPressed { up with panel.find.shortDue := true }).panel.trayFind = some (1000 + 8 * 8388608) := by
  decide +kernel

/-- R39: the straps give the tray number. -/
theorem test_straps : (after (.aonPowerUp 0xA5 ⟨false, 0, true, 0, 0⟩ false) State.reset).tray.number = 0xA5 := by
  decide +kernel

/-- R480, R481: a Crier frame without payload takes 64 symbols of 312,500/3 ticks. -/
theorem test_crier_time : crierTicks ⟨0, 0, true, []⟩ = 6666666 := by decide

/-- The invariant of the statements holds at reset. -/
theorem test_reset_in_range : InRange State.reset := by decide

/-- R596: the message of a masked vector waits, and leaves when the vector's mask bit is cleared. -/
theorem test_masked_vector :
    let s := msix 3 { up with ev.msixOn := true }
    s.out = [] ∧ (after (.registerWrite 0x40004 ((leBytes 4 0xFFFFFFF7).map some)) s).out = [.msix 3] := by decide +kernel


/-- R561: the digest of "abc" as FIPS 180-4 publishes it, and the base point of P-384 lies on its curve. -/
theorem test_sha384 :
    ofBe (sha384 [0x61, 0x62, 0x63]) =
      0xcb00753f45a35e8bb5a03d699ac65007272c32ab0eded1631a8b605a43ff5bed8086072ba1e7cc2358baeca134c825a7 := by decide +kernel
theorem test_p384_base : onCurve p384G.1 p384G.2 = true := by decide +kernel

/-- R480: the four tones of a byte, most significant bits first, and back. -/
theorem test_tones : tonesOf [0x1B] = [120, 140, 180, 160] ∧ tonesBytes [120, 140, 180, 160] = [0x1B] := by decide
/-! ### Witnesses: the hypotheses of each clause of the statements, met together -/

theorem witness_EmptyQueuePassesATick_1 : ∃ (s : State),
    s.pending = [] ∧
    aonUp s = false :=
  ⟨{ up with tray.st := .off }, by decide⟩

theorem witness_EmptyQueuePassesATick_2 : ∃ (s : State),
    s.pending = [] ∧
    aonUp s = true ∧
    s.reel.tick < 4095 :=
  ⟨up, by decide⟩

theorem witness_EmptyQueuePassesATick_3 : ∃ (s : State),
    s.pending = [] ∧
    aonUp s = true ∧
    s.reel.tick = 4095 ∧
    s.reel.step = none :=
  ⟨{ up with reel.tick := 4095 }, by decide⟩

theorem witness_EmptyQueuePassesATick_4 : ∃ (s : State) (d : _),
    s.pending = [] ∧
    aonUp s = true ∧
    s.reel.tick = 4095 ∧
    s.reel.step = some d ∧
    s.reel.st ≠ .bench :=
  ⟨{ up with reel.tick := 4095, reel.step := some ⟨1, 7, 8⟩ }, ⟨1, 7, 8⟩, by decide⟩

theorem witness_EmptyQueuePassesATick_5 : ∃ (s : State) (d : _),
    s.pending = [] ∧
    aonUp s = true ∧
    s.reel.tick = 4095 ∧
    s.reel.step = some d ∧
    s.reel.st = .bench :=
  ⟨{ up with reel.tick := 4095, reel.st := .bench, reel.step := some ⟨1, 7, 8⟩ }, ⟨1, 7, 8⟩, by decide⟩

theorem witness_EveryStepStaysInRange_1 : ∃ (s : State) (t : State),
    InRange s ∧
    step s = .next t :=
  ⟨up, _, ⟨by decide, rfl⟩⟩

theorem witness_CommandsTurnedAwayChangeNothing_1 : ∃ (i : Instr) (op : Nat) (mb : Nat) (fails : Nat) (s : State),
    i.command = some (op, mb, fails) ∧
    s.tray.restart = .none ∧
    atPoint op mb s = false :=
  ⟨.nop 0 0, 0, 0, 0, up, by decide⟩

theorem witness_CommandsTurnedAwayChangeNothing_2 : ∃ (i : Instr) (op : Nat) (mb : Nat) (fails : Nat) (s : State),
    i.command = some (op, mb, fails) ∧
    s.tray.restart = .none ∧
    Clean s ∧
    atPoint op mb s = true ∧
    s.tray.recovery = false ∧
    (box s mb).via = .pcie ∧
    staleGuard mb s = true :=
  ⟨.nop 0 0, 0, 0, 0, { ready 0 0 [] up with mail.mem := memWrite (ready 0 0 [] up).mail.mem 12 [0, 0, 0, 0x80, 9] }, by decide⟩

theorem witness_CommandsTurnedAwayChangeNothing_3 : ∃ (i : Instr) (op : Nat) (mb : Nat) (fails : Nat) (s : State),
    i.command = some (op, mb, fails) ∧
    s.tray.restart = .none ∧
    Clean s ∧
    atPoint op mb s = true ∧
    s.tray.recovery = false ∧
    (box s mb).via = .pcie ∧
    staleGuard mb s = false ∧
    2 ≤ fails ∧
    op ≠ 0x0A00 ∧
    (∀ reads, i = .tallyRead mb ⟨fails, reads⟩ → reads = []) :=
  ⟨.identityGet 5 2, 1, 5, 2, ready 1 5 [] up, by decide, by decide, by decide, by decide, by decide, by decide, by decide, by decide, by decide, fun _ h => by cases h⟩

theorem witness_RoleGetReportsTheRole_1 : ∃ (mb : _) (s : State),
    Ready 0x0801 mb [] s ∧
    s.tray.role = none :=
  ⟨4, ready 0x0801 4 [] up, by decide⟩

theorem witness_RoleGetReportsTheRole_2 : ∃ (mb : _) (r : _) (s : State),
    Ready 0x0801 mb [] s ∧
    s.tray.role = some r :=
  ⟨4, ⟨1, 0, 0, 0, 8, 1, 3⟩, ready 0x0801 4 [] { up with tray.role := some ⟨1, 0, 0, 0, 8, 1, 3⟩ }, by decide⟩

theorem witness_RoleGetReportsTheRole_3 : ∃ (mb : _) (args : _) (s : State),
    Ready 0x0801 mb args s ∧
    args ≠ [] :=
  ⟨4, [1], ready 0x0801 4 [1] up, by decide⟩

theorem witness_PowerSettingsTakeEffectAtTickZero_1 : ∃ (mb : _) (w0 : _) (w1 : _) (w2 : _) (w3 : _) (s : State),
    Ready 0x0700 mb [w0, w1, w2, w3] s ∧
    bit w0 31 = false ∧
    1000 ≤ fld w0 12 0 ∧
    (fld w0 12 0 : Int) ≤ calEffective s 0x2B ∧
    fld w1 28 16 ≤ 4096 ∧
    fld w1 10 0 ≤ 1024 ∧
    16 ≤ fld w2 15 0 ∧
    10 ≤ fld w3 23 16 ∧
    fld w3 23 16 ≤ 100 :=
  ⟨2, 4000, 0x10000400, 16, 0x640000, ready 0x0700 2 [4000, 0x10000400, 16, 0x640000] up, by decide⟩

theorem witness_PowerSettingsTakeEffectAtTickZero_2 : ∃ (n : _) (s : State),
    s.pending = [] ∧
    aonUp s = true ∧
    s.reel.tick < 4095 ∧
    s.power.cfgNext = some n :=
  ⟨{ cap := 4000 }, { up with power.cfgNext := some { cap := 4000 } }, by decide⟩

theorem witness_PowerSettingsTakeEffectAtTickZero_3 : ∃ (n : _) (s : State),
    s.pending = [] ∧
    aonUp s = true ∧
    s.reel.tick = 4095 ∧
    s.reel.step = none ∧
    s.power.cfgNext = some n :=
  ⟨{ cap := 4000 }, { up with power.cfgNext := some { cap := 4000 }, reel.tick := 4095 }, by decide⟩

theorem witness_SnapshotFreezesThePage_1 : ∃ (v : W32) (s : State),
    coreUp s = true ∧
    v.getLsbD 30 = false :=
  ⟨0, up, by decide⟩

theorem witness_SnapshotFreezesThePage_2 : ∃ (s : State),
    coreUp s = true :=
  ⟨up, by decide⟩

theorem witness_MaskedEventsAreCounted_1 : ∃ (e : Raised) (s : State),
    e.code / 256 ≤ 10 ∧
    s.ev.rangeEn.getLsbD (e.code / 256) = true :=
  ⟨⟨0xAFF, 0⟩, up, by decide⟩

theorem witness_MaskedEventsAreCounted_2 : ∃ (e : Raised) (s : State),
    e.code / 256 ≤ 10 ∧
    s.ev.rangeEn.getLsbD (e.code / 256) = false :=
  ⟨⟨0xAFF, 0⟩, { up with ev.rangeEn := 0 }, by decide⟩

theorem witness_LinkResetStopsTheRing_1 : ∃ (s : State),
    Clean s ∧
    coreUp s = true :=
  ⟨up, by decide⟩

theorem witness_EvReadOutOfRangeIsIgnored_1 : ∃ (v : W32) (s : State),
    Clean s ∧
    coreUp s = true ∧
    ringSize s.ev < (s.ev.write + 2 ^ 32 - v.toNat) % 2 ^ 32 :=
  ⟨5, up, by decide⟩

theorem witness_HousekeepingCommandsComplete_1 : ∃ (mb : _) (args : _) (s : State),
    Ready 0x0000 mb args s :=
  ⟨0, [7, 8], ready 0 0 [7, 8] up, by decide⟩

theorem witness_HousekeepingCommandsComplete_2 : ∃ (mb : _) (s : State),
    Ready 0x0001 mb [] s :=
  ⟨31, ready 1 31 [] up, by decide⟩

theorem witness_HousekeepingCommandsComplete_3 : ∃ (mb : _) (s : State),
    Ready 0x0003 mb [] s :=
  ⟨1, ready 3 1 [] up, by decide⟩

theorem witness_HousekeepingCommandsComplete_4 : ∃ (mb : _) (s : State),
    Ready 0x0005 mb [] s :=
  ⟨2, ready 5 2 [] up, by decide⟩

theorem witness_HousekeepingCommandsComplete_5 : ∃ (mb : _) (w0 : _) (w1 : _) (s : State),
    Ready 0x0007 mb [w0, w1] s ∧
    fld w1 27 16 % 4 = 0 ∧
    fld w1 11 0 % 4 = 0 ∧
    4 ≤ fld w1 11 0 ∧
    fld w1 11 0 ≤ 4064 ∧
    fld w1 27 16 + fld w1 11 0 ≤ 4096 :=
  ⟨3, 4, 32, ready 7 3 [4, 32] up, by decide⟩

theorem witness_HousekeepingCommandsComplete_6 : ∃ (mb : _) (w0 : _) (w1 : _) (s : State),
    Ready 0x0002 mb [w0, w1] s ∧
    bit w0 31 = false ∧
    fld w1 9 8 ≠ 3 ∧
    fld w0 4 0 ≠ mb ∧
    isActive (box s (fld w0 4 0)) = false ∧
    (viaOf (fld w1 9 8) = (box s (fld w0 4 0)).source ∨ (fld w0 4 0 ≠ 0 ∧ fld w0 4 0 ≠ 30 ∧ fld w0 4 0 ≠ 31)) ∧
    (viaOf (fld w1 9 8) ≠ (box s (fld w0 4 0)).source ∨ fld w1 4 0 ≠ (box s (fld w0 4 0)).vector) :=
  ⟨2, 7, 0, ready 2 2 [7, 0] up, by decide⟩

theorem witness_HousekeepingCommandsComplete_7 : ∃ (mb : _) (w0 : _) (w1 : _) (s : State),
    Ready 0x0002 mb [w0, w1] s ∧
    bit w0 31 = true ∧
    fld w1 9 8 ≠ 3 :=
  ⟨2, 0x80000007, 0, ready 2 2 [0x80000007, 0] up, by decide⟩

theorem witness_HousekeepingCommandsComplete_8 : ∃ (mb : _) (w0 : _) (w1 : _) (w2 : _) (a : _) (s : State),
    Ready 0x0006 mb [w0, w1, w2] s ∧
    fld w0 31 28 < 7 ∧
    s.sched.find? (fun a => kindCode a.kind == fld w0 31 28 && fld ((schedEntry a).headD 0) 15 0 == fld w0 15 0 &&
      a.turn == turnOf w1 w2) = some a ∧
    a.trayPlaced = false ∧
    4 ≤ tsub (turnOf w1 w2) s.reel.turn :=
  ⟨2, 0x20000000, 2000, 0, ⟨.planSwap, 0, 2000, 0x0304, false, .plan true⟩, ready 6 2 [0x20000000, 2000, 0] { up with sched := [⟨.planSwap, 0, 2000, 0x0304, false, .plan true⟩] }, by decide⟩

theorem witness_HousekeepingCommandsComplete_9 : ∃ (mb : _) (w0 : _) (w1 : _) (h0 : _) (h1 : _) (h2 : _) (h3 : _) (h4 : _) (h5 : _) (h6 : _) (h7 : _) (inner : _) (s : State),
    Ready 0x0004 mb ([w0, w1, h0, h1, h2, h3, h4, h5, h6, h7] ++ inner) s ∧
    fld w0 31 30 = 0 ∧
    fld h2 11 0 = 4 * inner.length ∧
    inner.length ≤ 1006 ∧
    fld w0 23 16 ≠ s.tray.number ∧
    (∃ a < 4, (asicSt s a).st = .standby ∨ (asicSt s a).st = .admitted) ∧
    longBusy s 0x0004 (callSubject false (fld w0 23 16) (fld w1 31 16)) = false ∧
    fld w1 15 0 = 0 :=
  ⟨2, 0x00070001, 0x50000, 0x10000, 0, 0, 0, 0, 0, 0, 0, [], ready 4 2 [0x00070001, 0x50000, 0x10000, 0, 0, 0, 0, 0, 0, 0] { up with asics := [(0, { st := .standby })] }, by decide⟩

theorem witness_HousekeepingCommandsComplete_10 : ∃ (op : _) (mb : _) (args : _) (s : State),
    Ready op mb args s ∧
    knownOpcode op = false :=
  ⟨0xFFFF, 2, [], ready 0xFFFF 2 [] up, by decide⟩

theorem witness_LaneReadsComplete_1 : ∃ (mb : _) (w0 : _) (s : State),
    Ready 0x0104 mb [w0] s ∧
    AddressOk w0 :=
  ⟨2, 91, ready 0x0104 2 [91] up, by decide⟩

theorem witness_LaneReadsComplete_2 : ∃ (mb : _) (w0 : _) (w1 : _) (s : State),
    Ready 0x0106 mb [w0, w1] s ∧
    AddressOk w0 ∧
    LaneOk w0 (port s (addressUnit w0)) ∧
    fld w1 1 0 < 3 :=
  ⟨2, 0x184F, 2, ready 0x0106 2 [0x184F, 2] up, by decide⟩

theorem witness_PortSettingsComplete_1 : ∃ (mb : _) (w0 : _) (w1 : _) (w2 : _) (w3 : _) (s : State),
    let u := addressUnit w0
    let ls : LaneSet := { rate := fld w1 1 0, width := fld w1 3 2, sel := fld w1 5 4, idleAfter := fld w1 31 16 }
    Ready 0x0100 mb [w0, w1, w2, w3] s ∧
    AddressOk w0 ∧
    fld w1 1 0 < 3 ∧
    fld w1 3 2 < 3 ∧
    (fld w1 3 2 = 2 → fld w1 5 4 = 0) ∧
    (fld w1 3 2 = 1 → fld w1 5 4 < 2) ∧
    bit w1 15 = false ∧
    ((port s u).st = .dark ∨ ls = { (port s u).set with idleAfter := ls.idleAfter }) :=
  ⟨2, 5, 9, 0, 0, ready 0x0100 2 [5, 9, 0, 0] up, by decide⟩

theorem witness_PortSettingsComplete_2 : ∃ (mb : _) (w0 : _) (w1 : _) (w2 : _) (w3 : _) (s : State),
    let u := addressUnit w0
    let ls : LaneSet := { rate := fld w1 1 0, width := fld w1 3 2, sel := fld w1 5 4, idleAfter := fld w1 31 16 }
    Ready 0x0100 mb [w0, w1, w2, w3] s ∧
    AddressOk w0 ∧
    fld w1 1 0 < 3 ∧
    fld w1 3 2 < 3 ∧
    (fld w1 3 2 = 2 → fld w1 5 4 = 0) ∧
    (fld w1 3 2 = 1 → fld w1 5 4 < 2) ∧
    bit w1 15 = true ∧
    Placeable .laneChange u (turnOf w2 w3) s ∧
    (ls ≠ { (port s u).set with idleAfter := ls.idleAfter } ∨ ls = (port s u).set) :=
  ⟨2, 5, 0x8009, 2000, 0, ready 0x0100 2 [5, 0x8009, 2000, 0] up, by decide⟩

theorem witness_PortSettingsComplete_3 : ∃ (mb : _) (w0 : _) (w1 : _) (w2 : _) (w3 : _) (s : State),
    let u := addressUnit w0
    let ls : LaneSet := { rate := fld w1 1 0, width := fld w1 3 2, sel := fld w1 5 4, idleAfter := fld w1 31 16 }
    Ready 0x0100 mb [w0, w1, w2, w3] s ∧
    AddressOk w0 ∧
    fld w1 1 0 < 3 ∧
    fld w1 3 2 < 3 ∧
    (fld w1 3 2 = 2 → fld w1 5 4 = 0) ∧
    (fld w1 3 2 = 1 → fld w1 5 4 < 2) ∧
    bit w1 15 = true ∧
    untimed s = false ∧
    4 ≤ tsub (turnOf w2 w3) s.reel.turn ∧
    tsub (turnOf w2 w3) s.reel.turn ≤ 2 ^ 32 ∧
    ls = { (port s u).set with idleAfter := ls.idleAfter } ∧
    ls.idleAfter ≠ (port s u).set.idleAfter :=
  ⟨2, 5, 0x108008, 2000, 0, ready 0x0100 2 [5, 0x108008, 2000, 0] up, by decide⟩

theorem witness_PortSettingsComplete_4 : ∃ (mb : _) (w0 : _) (w1 : _) (s : State),
    Ready 0x0101 mb [w0, w1] s ∧
    AddressOk w0 ∧
    (fld w1 31 16 = 0 ∨ 16 ≤ fld w1 31 16) ∧
    fld w1 31 16 ≤ 4096 ∧
    fld w1 1 0 = 0 :=
  ⟨2, 5, 0, ready 0x0101 2 [5, 0] up, by decide⟩

theorem witness_PortSettingsComplete_5 : ∃ (mb : _) (w0 : _) (w1 : _) (s : State),
    let u := addressUnit w0
    Ready 0x0101 mb [w0, w1] s ∧
    AddressOk w0 ∧
    (fld w1 31 16 = 0 ∨ 16 ≤ fld w1 31 16) ∧
    fld w1 31 16 ≤ 4096 ∧
    (fld w1 1 0 = 1 ∨ fld w1 1 0 = 2) ∧
    (uSide u = 1 ∨ asicAnswers s (uAsic u) = true) ∧
    (port s u).st = .dark :=
  ⟨2, 0x848, 0x100001, ready 0x0101 2 [0x848, 0x100001] up, by decide⟩

theorem witness_LaneSettingsComplete_1 : ∃ (mb : _) (w0 : _) (w1 : _) (s : State),
    Ready 0x0102 mb [w0, w1] s ∧
    AddressOk w0 ∧
    LaneOk w0 (port s (addressUnit w0)) ∧
    fld w1 11 0 < 2720 ∧
    (fld w1 11 0 ≠ 0 ∨ bit w1 31 = true) ∧
    (port s (addressUnit w0)).st = .training ∧
    (port s (addressUnit w0)).manual = true :=
  ⟨2, 0x1005, 100, ready 0x0102 2 [0x1005, 100] (setPort 5 { st := .training, manual := true } up), by decide⟩

theorem witness_LaneSettingsComplete_2 : ∃ (mb : _) (w0 : _) (w1 : _) (s : State),
    Ready 0x0103 mb [w0, w1] s ∧
    AddressOk w0 ∧
    LaneOk w0 (port s (addressUnit w0)) ∧
    (fld w1 1 0 = 1 ∨ fld w1 1 0 = 2) ∧
    ((port s (addressUnit w0)).st = .probation ∨ (port s (addressUnit w0)).st = .standby ∨
      (port s (addressUnit w0)).st = .admitted) ∧
    longBusy s 0x0103 (addressUnit w0) = false :=
  ⟨2, 0x1005, 2, ready 0x0103 2 [0x1005, 2] (setPort 5 { st := .standby } up), by decide⟩

theorem witness_LaneSettingsComplete_3 : ∃ (mb : _) (w0 : _) (w1 : _) (w2 : _) (w3 : _) (s : State),
    let b := eqArg w2 w3
    Ready 0x0105 mb [w0, w1, w2, w3] s ∧
    AddressOk w0 ∧
    LaneOk w0 (port s (addressUnit w0)) ∧
    fld w1 1 0 < 3 ∧
    (-16 ≤ b.main ∧ b.main ≤ 16) ∧
    (-4 ≤ b.pre2 ∧ b.pre2 ≤ 4) ∧
    (-8 ≤ b.pre1 ∧ b.pre1 ≤ 8) ∧
    (-8 ≤ b.post1 ∧ b.post1 ≤ 8) ∧
    (-8 ≤ b.ctle ∧ b.ctle ≤ 8) ∧
    (-16 ≤ b.vga ∧ b.vga ≤ 16) ∧
    (-64 ≤ b.fom ∧ b.fom ≤ 64) :=
  ⟨2, 0x1005, 2, 0, 0, ready 0x0105 2 [0x1005, 2, 0, 0] up, by decide⟩

theorem witness_LaneSettingsComplete_4 : ∃ (mb : _) (w0 : _) (w1 : _) (s : State),
    Ready 0x0107 mb [w0, w1] s ∧
    AddressOk w0 ∧
    fld w1 2 0 < 7 ∧
    fld w1 5 3 < 4 ∧
    ((port s (addressUnit w0)).st = .dark ∨ (port s (addressUnit w0)).st = .pattern) :=
  ⟨2, 5, 0x1E06, ready 0x0107 2 [5, 0x1E06] up, by decide⟩

theorem witness_LaneAdaptStarts_1 : ∃ (mb : _) (w0 : _) (w1 : _) (s : State),
    Ready 0x0103 mb [w0, w1] s ∧
    AddressOk w0 ∧
    LaneOk w0 (port s (addressUnit w0)) ∧
    fld w1 1 0 = 0 ∧
    ((port s (addressUnit w0)).st = .probation ∨ (port s (addressUnit w0)).st = .standby ∨
      (port s (addressUnit w0)).st = .admitted) ∧
    (∀ k ∈ addressLanes w0 (port s (addressUnit w0)),
      laneAdapts s (port s (addressUnit w0)) (laneOf (port s (addressUnit w0)) k) = true) ∧
    longBusy s 0x0103 (addressUnit w0) = false :=
  ⟨2, 0x605, 0, ready 0x0103 2 [0x605, 0] (setPort 5 { st := .probation, l3 := { signal := true, run := 512, fillAt := 1000 } } up), by decide⟩

theorem witness_TrainingStepsAdvance_1 : ∃ (u : _) (s : State),
    isPortEnd u = true ∧
    trainingRuns s = true ∧
    trains s (port s u) = true :=
  ⟨5, (setPort 5 { st := .training, step := 0, stepAt := 4095000 } up), by decide⟩

theorem witness_TrainingStepsAdvance_2 : ∃ (u : _) (o : TrainObs) (s : State),
    isPortEnd u = true ∧
    trainingRuns s = true ∧
    trains s (port s u) = true ∧
    (port s u).step = 0 ∧
    (∀ k < laneCount (port s u), o.signal.getD k (laneOf (port s u) k).signal = true) :=
  ⟨5, seen 16, (setPort 5 { st := .training, step := 0, stepAt := 4095000 } up), by decide⟩

theorem witness_TrainingStepsAdvance_3 : ∃ (u : _) (o : TrainObs) (s : State),
    isPortEnd u = true ∧
    trainingRuns s = true ∧
    trains s (port s u) = true ∧
    (port s u).step = 1 ∧
    o.lock = true ∧
    s.reel.clock < (port s u).stepAt + 4096 :=
  ⟨5, seen 16, (setPort 5 { st := .training, step := 1, stepAt := 4095000 } up), by decide⟩

theorem witness_TrainingStepsAdvance_4 : ∃ (u : _) (o : TrainObs) (s : State),
    isPortEnd u = true ∧
    trainingRuns s = true ∧
    trains s (port s u) = true ∧
    (port s u).step = 2 ∧
    o.aligned = true :=
  ⟨5, seen 16, (setPort 5 { st := .training, step := 2, stepAt := 4095000 } up), by decide⟩

theorem witness_TrainingStepsAdvance_5 : ∃ (u : _) (o : TrainObs) (s : State),
    isPortEnd u = true ∧
    trainingRuns s = true ∧
    trains s (port s u) = true ∧
    (port s u).step = 4 ∧
    o.skew ≤ 16 :=
  ⟨5, seen 16, (setPort 5 { st := .training, step := 4, stepAt := 4095000 } up), by decide⟩

theorem witness_TrainingStepsAdvance_6 : ∃ (u : _) (o : TrainObs) (s : State),
    isPortEnd u = true ∧
    trainingRuns s = true ∧
    trains s (port s u) = true ∧
    (port s u).step = 4 ∧
    16 < o.skew :=
  ⟨5, seen 17, (setPort 5 { st := .training, step := 4, stepAt := 4095000 } up), by decide⟩

theorem witness_MarkersNameTheLanes_1 : ∃ (u : _) (o : TrainObs) (s : State),
    let p := port s u
    let w := fun (k : Nat) => (((o.markers.getD k none).map fun x => x.word.toNat).getD 0 : Nat)
    isPortEnd u = true ∧
    trainingRuns s = true ∧
    trains s (port s u) = true ∧
    (port s u).step = 3 ∧
    o.markers.length = laneCount p ∧
    (∀ k < laneCount p, markerOk (w k) = true ∧ fld (w k) 19 18 = p.set.rate ∧ fld (w k) 21 20 = p.set.width ∧
      fld (w k) 23 22 < laneCount p ∧ ∀ j < k, fld (w j) 23 22 ≠ fld (w k) 23 22) :=
  ⟨5, crossed, (setPort 5 { st := .training, step := 3 } up), by decide +kernel⟩

theorem witness_TrainingEventsComplete_1 : ∃ (u : _) (s : State),
    isPortEnd u = true ∧
    trainingRuns s = true ∧
    trains s (port s u) = true ∧
    (port s u).step = 1 ∧
    (port s u).stepAt + 4096 ≤ s.reel.clock :=
  ⟨5, (setPort 5 { st := .training, step := 1, stepAt := 4091904 } up), by decide⟩

theorem witness_TrainingEventsComplete_2 : ∃ (u : _) (k : _) (x : Marker) (before : _) (now : _) (s : State),
    (before && now) = false ∧
    isPortEnd u = true ∧
    trainingRuns s = true ∧
    trains s (port s u) = true ∧
    (port s u).step = 2 ∧
    ((port s u).manual = false ∨ (port s u).st = .relock) ∧
    k < laneCount (port s u) ∧
    markerOk x.word.toNat = true ∧
    (laneOf (port s u) k).rounds < 7 :=
  ⟨5, 3, laneMarker 3, true, false, (setPort 5 { st := .training, step := 2 } up), by decide +kernel⟩

theorem witness_TrainingEventsComplete_3 : ∃ (u : _) (k : _) (x : Marker) (before : _) (now : _) (s : State),
    (before && now) = false ∧
    isPortEnd u = true ∧
    trainingRuns s = true ∧
    trains s (port s u) = true ∧
    (port s u).step = 2 ∧
    ((port s u).manual = false ∨ (port s u).st = .relock) ∧
    k < laneCount (port s u) ∧
    markerOk x.word.toNat = true ∧
    (laneOf (port s u) k).rounds = 7 :=
  ⟨5, 3, laneMarker 3, true, false, (setPort 5 { st := .training, step := 2, l3 := { rounds := 7 } } up), by decide +kernel⟩

theorem witness_TrainingEventsComplete_4 : ∃ (u : _) (k : _) (x : Marker) (before : _) (now : _) (s : State),
    (before && now) = false ∧
    isPortEnd u = true ∧
    trainingRuns s = true ∧
    trains s (port s u) = true ∧
    (port s u).step = 2 ∧
    ((port s u).manual = false ∨ (port s u).st = .relock) ∧
    k < laneCount (port s u) ∧
    markerOk x.word.toNat = true :=
  ⟨5, 3, laneMarker 3, true, false, (setPort 5 { st := .training, step := 2 } up), by decide +kernel⟩

theorem witness_TrainingEventsComplete_5 : ∃ (u : _) (s : State),
    isPortEnd u = true ∧
    trainingRuns s = true ∧
    stepsDone s = true ∧
    (port s u).st = .training ∧
    (port s u).rxReady = false ∧
    (port s u).attemptAt + (port s u).timeout ≤ s.reel.bounds :=
  ⟨5, (setPort 5 { st := .training, attemptAt := 744 } up), by decide⟩

theorem witness_TrainingEventsComplete_6 : ∃ (u : _) (s : State),
    isPortEnd u = true ∧
    trainingRuns s = true ∧
    (port s u).st = .training ∧
    (port s u).rxReady = true ∧
    (port s u).txEnded = false :=
  ⟨5, (setPort 5 { st := .training, rxReady := true } up), by decide⟩

theorem witness_TrainingEventsComplete_7 : ∃ (u : _) (s : State),
    isPortEnd u = true ∧
    trainingRuns s = true ∧
    (port s u).st = .training ∧
    (port s u).rxReady = true :=
  ⟨5, (setPort 5 { st := .training, rxReady := true } up), by decide⟩

theorem witness_LaneServiceEventsComplete_1 : ∃ (u : _) (a : _) (ls : _) (s : State),
    dueAction .laneChange (some u) s = some a ∧
    a.arg = .lane ls :=
  ⟨5, ⟨.laneChange, 5, 1000, 0x0100, false, .lane {}⟩, {}, { up with sched := [⟨.laneChange, 5, 1000, 0x0100, false, .lane {}⟩] }, by decide⟩

theorem witness_LaneServiceEventsComplete_2 : ∃ (u : _) (s : State),
    isPortEnd u = true ∧
    (port s u).st = .relock ∧
    (port s u).relockAt + 1024 ≤ s.reel.clock :=
  ⟨5, (setPort 5 { st := .relock, relockAt := 4094976 } up), by decide⟩

theorem witness_LaneServiceEventsComplete_3 : ∃ (u : _) (s : State),
    isPortEnd u = true ∧
    inService (port s u) = true ∧
    (port s u).rxIdle = false :=
  ⟨5, (setPort 5 { st := .admitted, rxIdle := false } up), by decide⟩

theorem witness_LaneServiceEventsComplete_4 : ∃ (u : _) (s : State),
    isPortEnd u = true ∧
    inService (port s u) = true ∧
    (port s u).rxIdle = true :=
  ⟨5, (setPort 5 { st := .admitted } up), by decide⟩

theorem witness_LaneServiceEventsComplete_5 : ∃ (u : _) (s : State),
    isPortEnd u = true ∧
    inService (port s u) = true :=
  ⟨5, (setPort 5 { st := .admitted } up), by decide⟩

theorem witness_ElectricalIdleEventsComplete_1 : ∃ (u : _) (s : State),
    isPortEnd u = true ∧
    ((port s u).st = .standby ∨ (port s u).st = .admitted) ∧
    (port s u).txIdle = false ∧
    (port s u).set.idleAfter ≠ 0 ∧
    (port s u).busyUntil ≤ s.reel.clock ∧
    (port s u).fillFrom + (port s u).set.idleAfter ≤ s.reel.clock ∧
    idleAllowed s u = true ∧
    (link s u).stream = [] ∧
    (link s u).waiting = none :=
  ⟨5, (setPort 5 { st := .admitted, txIdle := false, fillFrom := 4095744 } up), by decide⟩

theorem witness_ElectricalIdleEventsComplete_2 : ∃ (u : _) (s : State),
    isPortEnd u = true ∧
    uSide u = 0 ∧
    inService (port s u) = true ∧
    (port s u).txIdle = true ∧
    s.tray.st ≠ .unscheduled ∧
    (port s u).wakeAt = none ∧
    prewakeStarts s u (dwellLeft s (port s u) + exitTicks (port s u).set.rate) = true :=
  ⟨5, (setPort 5 { st := .admitted, idleAt := 4095984 } { planned with reel.tick := 40 }), by decide⟩

theorem witness_ElectricalIdleEventsComplete_3 : ∃ (u : _) (vs : List (Nat × Int)) (s : State),
    isPortEnd u = true ∧
    inService (port s u) = true ∧
    (port s u).rxIdle = true ∧
    (∀ k < laneCount (port s u), (vs.getD k (0, 0)).1 ≠ 2) :=
  ⟨5, [(0, 0), (1, 0), (3, 0), (0, 0)], (setPort 5 { st := .admitted } up), by decide⟩

theorem witness_ElectricalIdleEventsComplete_4 : ∃ (u : _) (vs : List (Nat × Int)) (s : State),
    isPortEnd u = true ∧
    inService (port s u) = true ∧
    (port s u).rxIdle = true ∧
    (∃ k < laneCount (port s u), (vs.getD k (0, 0)).1 = 2) :=
  ⟨5, [(0, 0), (1, 0), (3, 0), (2, 0)], (setPort 5 { st := .admitted } up), by decide⟩

theorem witness_AdaptationEventsComplete_1 : ∃ (u : _) (s : State),
    isPortEnd u = true ∧
    trainingRuns s = true ∧
    inService (port s u) = true ∧
    (port s u).adaptAt + 16 ≤ s.reel.bounds :=
  ⟨5, (setPort 5 { st := .admitted, adaptAt := 984 } up), by decide⟩

theorem witness_AdaptationEventsComplete_2 : ∃ (asic : _) (p : _) (hc8 : _) (a : _) (s : State),
    let u := portEndOf asic p hc8
    isPortEnd u = true ∧
    (port s u).adapt = some a ∧
    a.steps = 16 ∧
    a.start + 32 ≤ s.reel.bounds :=
  ⟨0, 5, false, adapted, (setPort 5 { st := .admitted, adapt := some adapted } up), by decide⟩

theorem witness_AdaptationEventsComplete_3 : ∃ (asic : _) (p : _) (hc8 : _) (a : _) (l : _) (s : State),
    let u := portEndOf asic p hc8
    isPortEnd u = true ∧
    (port s u).adapt = some a ∧
    a.steps = 16 ∧
    a.start + 32 ≤ s.reel.bounds ∧
    adaptLost (port s u) a = [] ∧
    longOf s a.mb = some l :=
  ⟨0, 5, false, adapted, ⟨2, 0x0103, 0, 8000000, 1⟩, (setPort 5 { st := .admitted, adapt := some adapted } { up with mail.long := [⟨2, 0x0103, 0, 8000000, 1⟩] }), by decide⟩

theorem witness_AdaptationEventsComplete_4 : ∃ (u : _) (s : State),
    isPortEnd u = true ∧
    trainingRuns s = true ∧
    (port s u).st ≠ .dark ∧
    firstThisTurn (2 ^ 52 + u) s = true :=
  ⟨5, (setPort 5 { st := .admitted } up), by decide⟩

theorem witness_AdaptationEventsComplete_5 : ∃ (u : _) (errs : List Nat) (foms : List Nat) (s : State),
    isPortEnd u = true ∧
    trainingRuns s = true ∧
    (port s u).st = .probation ∧
    firstThisTurn (2 ^ 52 + u) s = true ∧
    wholeTurn s (port s u) = true ∧
    (punit s u).lasting = false ∧
    (∀ k < laneCount (port s u), prbsLock s (port s u) (laneOf (port s u) k) = true ∧ errs.getD k 0 = 0 ∧
      (laneOf (port s u) k).eff.fom ≤ foms.getD k 0) ∧
    (punit s u).clean < 63 ∧
    (punit s u).passed = false :=
  ⟨5, [0, 0, 0, 0], [96, 96, 96, 96], (setPort 5 { st := .probation, stepAt := 4091904, l0 := { signal := true, run := 512, fillAt := 1000 }, l1 := { signal := true, run := 512, fillAt := 1000 }, l2 := { signal := true, run := 512, fillAt := 1000 }, l3 := { signal := true, run := 512, fillAt := 1000 } } up), by decide⟩

theorem witness_ForwardingCommandsComplete_1 : ∃ (mb : _) (w0 : _) (s : State),
    Ready 0x0201 mb [w0] s ∧
    1 ≤ fld w0 19 12 ∧
    fld w0 19 12 ≤ 200 ∧
    fld w0 31 20 + fld w0 19 12 ≤ 0x1000 :=
  ⟨2, 0x00001000, ready 0x0201 2 [0x00001000] up, by decide⟩

theorem witness_ForwardingCommandsComplete_2 : ∃ (mb : _) (s : State),
    Ready 0x0203 mb [] s :=
  ⟨2, ready 0x0203 2 [] up, by decide⟩

theorem witness_ForwardingCommandsComplete_3 : ∃ (mb : _) (w0 : _) (w1 : _) (s : State),
    Ready 0x0205 mb [w0, w1] s ∧
    fld w0 6 0 < 92 ∧
    fld w1 2 0 < 5 :=
  ⟨2, 91, 4, ready 0x0205 2 [91, 4] up, by decide⟩

theorem witness_ForwardingCommandsComplete_4 : ∃ (mb : _) (w0 : _) (s : State),
    Ready 0x0208 mb [w0] s :=
  ⟨2, 3, ready 0x0208 2 [3] up, by decide⟩

theorem witness_ForwardingCommandsComplete_5 : ∃ (mb : _) (w0 : _) (s : State),
    Ready 0x0280 mb [w0] s ∧
    AddressOk w0 :=
  ⟨2, 91, ready 0x0280 2 [91] up, by decide⟩

theorem witness_ForwardingCommandsComplete_6 : ∃ (mb : _) (w0 : _) (w1 : _) (entries : _) (s : State),
    let n := fld w0 19 12
    let first := fld w0 31 20
    let e := fun i => ({
          w0 := BitVec.ofNat 32 (entries.getD (4 * i) 0), w1 := BitVec.ofNat 32 (entries.getD (4 * i + 1) 0)
          w2 := BitVec.ofNat 32 (entries.getD (4 * i + 2) 0) &&& 0x000FFFFF
          w3 := BitVec.ofNat 32 (entries.getD (4 * i + 3) 0) &&& 0x80000000 } : EptEntry)
    Ready 0x0200 mb ([w0, w1] ++ entries) s ∧
    entries.length = 4 * n ∧
    1 ≤ n ∧
    n ≤ 200 ∧
    fld w0 7 4 ≠ 0 ∧
    first + n ≤ 0x1000 ∧
    (∀ i < n, eptValid (e i) = true → badEid (first + i) = false) ∧
    bankBusy s (bit w0 0) = false :=
  ⟨2, 0xFFF01011, 0, [0, 0, 0, 0], ready 0x0200 2 [0xFFF01011, 0, 0, 0, 0, 0] up, by decide⟩

theorem witness_ForwardingCommandsComplete_7 : ∃ (mb : _) (w0 : _) (w1 : _) (w2 : _) (s : State),
    Ready 0x0202 mb [w0, w1, w2] s ∧
    fld w0 6 0 ≤ 64 ∧
    Placeable .tableSwitch 0 (turnOf w1 w2) s ∧
    pendingTable s = none ∧
    graceRuns s = false :=
  ⟨2, 64, 2000, 0, ready 0x0202 2 [64, 2000, 0] up, by decide⟩

theorem witness_ForwardingCommandsComplete_8 : ∃ (mb : _) (w0 : _) (w1 : _) (w2 : _) (s : State),
    Ready 0x0204 mb [w0, w1, w2] s ∧
    fld w0 6 0 < 92 ∧
    fld w1 4 0 ≠ 0 ∧
    fld w2 15 11 < 16 ∧
    fld w2 10 6 < 17 ∧
    fld w2 1 0 < 2 :=
  ⟨2, 91, 0x10010, 0x7C01, ready 0x0204 2 [91, 0x10010, 0x7C01] up, by decide⟩

theorem witness_ForwardingCommandsComplete_9 : ∃ (mb : _) (w0 : _) (s : State),
    Ready 0x0206 mb [w0] s ∧
    bit w0 31 = false :=
  ⟨2, 0, ready 0x0206 2 [0] up, by decide⟩

theorem witness_ForwardingCommandsComplete_10 : ∃ (mb : _) (w0 : _) (s : State),
    Ready 0x0206 mb [w0] s ∧
    bit w0 31 = true :=
  ⟨2, 0x80000000, ready 0x0206 2 [0x80000000] up, by decide⟩

theorem witness_ForwardingCommandsComplete_11 : ∃ (mb : _) (w0 : _) (w1 : _) (w2 : _) (s : State),
    Ready 0x0207 mb [w0, w1, w2] s ∧
    fld w0 3 0 ≠ 0 ∧
    w1 ≤ 786432 ∧
    w2 ≤ w1 ∧
    ((List.range 4).map fun a => if (fld w0 3 0).testBit a then w2 else (spillOf s a).reserve).sum ≤ spillPages s :=
  ⟨2, 8, 786432, 196608, ready 0x0207 2 [8, 786432, 196608] up, by decide⟩

theorem witness_LinkEventsComplete_1 : ∃ (u : _) (s : State),
    isPortEnd u = true ∧
    inService (port s u) = true :=
  ⟨5, (setPort 5 { st := .admitted } up), by decide⟩

theorem witness_LinkEventsComplete_2 : ∃ (u : _) (s : State),
    isPortEnd u = true ∧
    inService (port s u) = true ∧
    (link s u).unacked ≠ [] ∧
    (link s u).lastAdvance + 256 ≤ s.reel.clock :=
  ⟨5, { setPort 5 { st := .admitted } up with links := [(5, { unacked := [⟨0, {}, false⟩], lastAdvance := 4095744 })] }, by decide⟩

theorem witness_LinkEventsComplete_3 : ∃ (u : _) (x : _) (t : _) (s : State),
    isPortEnd u = true ∧
    uSide u = 0 ∧
    (link s u).arrived = x :: t :=
  ⟨5, {}, [], { up with links := [(5, { arrived := [{}] })] }, by decide⟩

theorem witness_QueueAndLossEventsComplete_1 : ∃ (u : _) (s : State),
    isPortEnd u = true ∧
    inService (port s u) = true ∧
    (port s u).busyUntil ≤ s.reel.clock ∧
    (link s u).waiting = none ∧
    (stepsDone s = true ∨ 64 ≤ s.reel.tick) :=
  ⟨5, (setPort 5 { st := .admitted, txIdle := false } up), by decide⟩

theorem witness_QueueAndLossEventsComplete_2 : ∃ (a : _) (p : _) (cls : _) (g : _) (q : _) (s : State),
    let u := unitOf a p
    a < 4 ∧
    p < 92 ∧
    cls < 5 ∧
    (spillOf s a).pages.find? (fun g => g.frames.any fun e => e.1 == u * 8 + cls) = some g ∧
    g.frames.find? (fun e => e.1 == u * 8 + cls) = some (u * 8 + cls, q) ∧
    (punit s u).hold = none ∧
    hc8Reach s a = true ∧
    16 * depth s u cls ≤ (queueCfg s u cls).unspill * (queueCfg s u cls).limit ∧
    frameCells q.f ≤ freeCells s a :=
  ⟨0, 5, 4, ⟨49152, 64, [(44, {})]⟩, {}, { up with ports := [(72, { st := .admitted })], fwd.spill := [(0, { pages := [⟨49152, 64, [(44, {})]⟩] })] }, by decide⟩

theorem witness_QueueAndLossEventsComplete_3 : ∃ (a : _) (p : _) (cls : _) (q : _) (s : State),
    a < 4 ∧
    p < 92 ∧
    cls < 5 ∧
    headOf s (unitOf a p) cls = some q ∧
    s.tray.st ≠ .unscheduled ∧
    wholeBolt s q = true :=
  ⟨3, 91, 4, { f := {}, headSince := some 990 }, { planned with fwd.queues := [(3804, [{ f := {}, headSince := some 990 }])] }, by decide⟩

theorem witness_QueueAndLossEventsComplete_4 : ∃ (s : State),
    s.fwd.tables.inGrace = true ∧
    reached ((s.fwd.tables.switchTurn + s.fwd.tables.grace) % 2 ^ 48) s.reel.turn = true :=
  ⟨{ up with fwd.tables := { inGrace := true, switchTurn := 996 } }, by decide⟩

theorem witness_QueueAndLossEventsComplete_5 : ∃ (flow : _) (b : _) (ls : _) (s : State),
    coreUp s = true ∧
    lossGroup s flow = some (b, ls) ∧
    flow / 2 ^ 15 = ownEid s :=
  ⟨3072 * 2 ^ 15, 999, [⟨3072 * 2 ^ 15, 999, 998, 1, 1, 7⟩], { up with fwd.losses := [⟨3072 * 2 ^ 15, 999, 998, 1, 1, 7⟩] }, by decide⟩

theorem witness_QueueAndLossEventsComplete_6 : ∃ (flow : _) (b : _) (ls : _) (reads : List Nat) (s : State),
    let a := lossArgs flow ls
    let t := withReads reads
          (modFwd fun w => { w with losses := w.losses.filter fun l => !(l.flow == flow && l.bound == b) }) s
    let r := hc8Send (ctrlFrame (ownEid s) (flow / 2 ^ 15) 0 4 ((ls.head?.elim 0 (·.turn)) % 65536)
          a.1 a.2.1 a.2.2.1 a.2.2.2 []) t
    coreUp s = true ∧
    lossGroup s flow = some (b, ls) ∧
    flow / 2 ^ 15 ≠ ownEid s ∧
    r.1 = true :=
  ⟨0x25 * 2 ^ 15, 999, [⟨0x25 * 2 ^ 15, 999, 998, 1, 1, 7⟩], [], { up with asics := [(0, { st := .admitted })], ports := [(72, { st := .admitted }), (0x8048, { st := .admitted })], tray.st := .admitted, fwd.ept := [(0x25, { w2 := 0x100, w3 := 0x80000000 })], fwd.losses := [⟨0x25 * 2 ^ 15, 999, 998, 1, 1, 7⟩] }, by decide⟩

theorem witness_QueueAndLossEventsComplete_7 : ∃ (ifc : _) (f : _) (s : State),
    coreUp s = true ∧
    s.tray.restart ≠ .warming ∧
    (link s (ifcUnit ifc)).rxq.find? (fun f => f.cls == 0 && ctypeOf f == 4) = some f :=
  ⟨0, { w3 := 0x00040000 }, { up with links := [(0x8048, { rxq := [{ w3 := 0x00040000 }] })] }, by decide⟩

theorem witness_UnitCommandsComplete_1 : ∃ (mb : _) (w0 : _) (w1 : _) (w2 : _) (s : State),
    let u := namedUnit w0
    Ready 0x0900 mb [w0, w1, w2] s ∧
    UnitOk w0 ∧
    bit w0 15 = false ∧
    Placeable .admission u (turnOf w1 w2) s ∧
    boltBoundary s (turnOf w1 w2) = true ∧
    inStandby s u = true ∧
    (uKind u = 3 ∨ s.tray.st = .admitted) ∧
    asicReady s u (turnOf w1 w2) = true :=
  ⟨2, 5, 2000, 0, ready 0x0900 2 [5, 2000, 0] { planned with tray.st := .admitted, asics := [(0, { st := .admitted })], ports := [(5, { st := .standby })] }, by decide⟩

theorem witness_UnitCommandsComplete_2 : ∃ (mb : _) (w0 : _) (w1 : _) (w2 : _) (s : State),
    let u := namedUnit w0
    Ready 0x0901 mb [w0, w1, w2] s ∧
    UnitOk w0 ∧
    bit w0 15 = false ∧
    Placeable .withdraw u (turnOf w1 w2) s ∧
    boltBoundary s (turnOf w1 w2) = true ∧
    unitState s u = 4 ∧
    (uKind u = 3 ∨ s.tray.st = .admitted) ∧
    asicReady s u (turnOf w1 w2) = true :=
  ⟨2, 5, 2000, 0, ready 0x0901 2 [5, 2000, 0] { planned with tray.st := .admitted, asics := [(0, { st := .admitted })], ports := [(5, { st := .admitted })] }, by decide⟩

theorem witness_UnitCommandsComplete_3 : ∃ (mb : _) (w0 : _) (s : State),
    Ready 0x0902 mb [w0] s ∧
    UnitOk w0 :=
  ⟨2, 0x6000, ready 0x0902 2 [0x6000] up, by decide⟩

theorem witness_UnitCommandsComplete_4 : ∃ (mb : _) (w0 : _) (w1 : _) (s : State),
    Ready 0x0903 mb [w0, w1] s ∧
    fld w0 6 0 < 92 ∧
    fld w1 12 0 ≤ 4096 :=
  ⟨2, 91, 4096, ready 0x0903 2 [91, 4096] up, by decide⟩

theorem witness_UnitCommandsComplete_5 : ∃ (mb : _) (w0 : _) (s : State),
    Ready 0x0904 mb [w0] s :=
  ⟨2, 3, ready 0x0904 2 [3] up, by decide⟩

theorem witness_UnitEventsComplete_1 : ∃ (u : _) (a : _) (s : State),
    dueAction .admission (some u) s = some a :=
  ⟨5, ⟨.admission, 5, 1000, 0, false, .none⟩, { up with sched := [⟨.admission, 5, 1000, 0, false, .none⟩] }, by decide⟩

theorem witness_UnitEventsComplete_2 : ∃ (u : _) (a : _) (s : State),
    dueAction .withdraw (some u) s = some a :=
  ⟨5, ⟨.withdraw, 5, 1000, 0, false, .none⟩, { up with sched := [⟨.withdraw, 5, 1000, 0, false, .none⟩] }, by decide⟩

theorem witness_UnitEventsComplete_3 : ∃ (u : _) (t : _) (s : State),
    drains s u = some t ∧
    reached t s.reel.turn = true ∧
    s.reel.tick = 0 ∧
    unitHolds s u = false :=
  ⟨5, 1000, { up with units := [(5, { drainTurn := some 1000 })] }, by decide⟩

theorem witness_UnitEventsComplete_4 : ∃ (u : _) (t : _) (s : State),
    drains s u = some t ∧
    reached ((t + 8) % 2 ^ 48) s.reel.turn = true :=
  ⟨5, 992, { up with units := [(5, { drainTurn := some 992 })] }, by decide⟩

theorem witness_UnitEventsComplete_5 : ∃ (a : _) (p : _) (h : _) (s : State),
    a < 4 ∧
    p < 92 ∧
    (punit s (unitOf a p)).hold = some h ∧
    stepsDone s = true ∧
    (h.bound + h.window + 1 ≤ s.reel.bounds ∨ reached ((h.lossTurn + h.window + 1) % 2 ^ 48) s.reel.turn = true) :=
  ⟨3, 91, ⟨991, 991, 8, .standby⟩, { up with punits := [(475, { hold := some ⟨991, 991, 8, .standby⟩ })] }, by decide⟩

theorem witness_UnitEventsComplete_6 : ∃ (a : _) (s : State),
    a < 4 ∧
    (asicSt s a).st = .dark ∧
    domainOn s (4 + a) = true :=
  ⟨3, up, by decide⟩

theorem witness_UnitEventsComplete_7 : ∃ (a : _) (m : _) (s : State),
    a < 4 ∧
    (asicSt s a).st = .probation ∧
    (asicSt s a).mismatches < 2 ∧
    (requiredPorts s a).all (fun u => (punit s u).passed) = true ∧
    m < 2 :=
  ⟨3, 1, { up with asics := [(3, { st := .probation, mismatches := 1 })], punits := (List.range 8).map fun i => (456 + i, { passed := true }) }, by decide⟩

theorem witness_UnitEventsComplete_8 : ∃ (a : _) (m : _) (s : State),
    a < 4 ∧
    (asicSt s a).st = .probation ∧
    (asicSt s a).mismatches < 2 ∧
    (requiredPorts s a).all (fun u => (punit s u).passed) = true ∧
    2 ≤ m :=
  ⟨3, 2, { up with asics := [(3, { st := .probation, mismatches := 1 })], punits := (List.range 8).map fun i => (456 + i, { passed := true }) }, by decide⟩

theorem witness_PlanBankCommandsComplete_1 : ∃ (mb : _) (w0 : _) (ws : _) (s : State),
    Ready 0x0300 mb (w0 :: ws) s ∧
    ws.length = 8 ∧
    s.plan.inForce ≠ some (bit w0 0) ∧
    (bankOf s (bit w0 0)).sealed = false :=
  ⟨2, 1, [0, 0, 0, 0, 0, 0, 0, 0], ready 0x0300 2 [1, 0, 0, 0, 0, 0, 0, 0, 0] { up with plan.b := { bank with sealed := false } }, by decide⟩

theorem witness_PlanBankCommandsComplete_2 : ∃ (mb : _) (w0 : _) (w1 : _) (ws : _) (s : State),
    Ready 0x0301 mb ([w0, w1] ++ ws) s ∧
    1 ≤ fld w0 21 18 ∧
    fld w0 21 18 ≤ 12 ∧
    ws.length = 64 * fld w0 21 18 ∧
    (bankOf s (bit w0 0)).written = true ∧
    fld w0 31 22 + fld w0 21 18 ≤ patternCount (bankOf s (bit w0 0)) ∧
    s.plan.inForce ≠ some (bit w0 0) ∧
    (bankOf s (bit w0 0)).sealed = false :=
  ⟨2, 0x40001, 0, List.replicate 64 0, ready 0x0301 2 ([0x40001, 0] ++ List.replicate 64 0) { up with plan.b := { bank with sealed := false } }, ready_of (by decide) (by decide) rfl rfl (by decide) (by decide) (by decide) (by decide) (by decide), by decide⟩

theorem witness_PlanBankCommandsComplete_3 : ∃ (mb : _) (w0 : _) (w1 : _) (ws : _) (s : State),
    let n := fld w0 14 11 * 1024 + fld w0 10 1
    let b := bit w0 0
    Ready 0x0302 mb ([w0, w1] ++ ws) s ∧
    1 ≤ n ∧
    n ≤ 1536 ∧
    ws.length = (n + 1) / 2 ∧
    (bankOf s b).written = true ∧
    fld w0 31 17 + n ≤ 92 * boltTurns (bankOf s b) ∧
    s.plan.inForce ≠ some b ∧
    (bankOf s b).sealed = false :=
  ⟨2, 0x2E0003, 0, [0], ready 0x0302 2 [0x2E0003, 0, 0] { up with plan.b := { bank with sealed := false } }, by decide⟩

theorem witness_PlanBankCommandsComplete_4 : ∃ (mb : _) (w0 : _) (s : State),
    let b := bit w0 0
    let k := bankOf s b
    Ready 0x0303 mb [w0] s ∧
    bit w0 1 = false ∧
    k.sealed = false ∧
    (sealError k).1 = 0 :=
  ⟨2, 1, ready 0x0303 2 [1] { up with plan.b := { goodBank with sealed := false } }, by decide, rfl, rfl, goodBank_seals⟩

theorem witness_PlanBankCommandsComplete_5 : ∃ (mb : _) (w0 : _) (s : State),
    let b := bit w0 0
    Ready 0x0303 mb [w0] s ∧
    bit w0 1 = true ∧
    s.plan.inForce ≠ some b ∧
    (∀ a, pendingSwap s = some a → swapBank a ≠ b) :=
  ⟨2, 3, ready 0x0303 2 [3] { up with plan.b := { bank with sealed := false } }, by decide⟩

theorem witness_PlanBankCommandsComplete_6 : ∃ (mb : _) (w0 : _) (w1 : _) (w2 : _) (s : State),
    let b := bit w0 0
    let turn := turnOf w1 w2
    Ready 0x0304 mb [w0, w1, w2] s ∧
    bit w0 1 = false ∧
    Placeable .planSwap 0 turn s ∧
    (bankOf s b).sealed = true ∧
    boltAt (bankOf s b) turn = true ∧
    (∀ k, planNow s = some k → boltAt k turn = true) ∧
    excludesAdmitted s (bankOf s b) turn = false ∧
    pendingSwap s = none ∧
    s.plan.inForce ≠ some b :=
  ⟨2, 1, 2000, 0, ready 0x0304 2 [1, 2000, 0] { up with plan.b := bank }, by decide +kernel⟩

theorem witness_PlanBankCommandsComplete_7 : ∃ (mb : _) (w0 : _) (w1 : _) (w2 : _) (a : _) (s : State),
    Ready 0x0304 mb [w0, w1, w2] s ∧
    bit w0 1 = true ∧
    pendingSwap s = some a :=
  ⟨2, 2, 0, 0, ⟨.planSwap, 0, 1000, 0, false, .plan true⟩, ready 0x0304 2 [2, 0, 0] { up with sched := [⟨.planSwap, 0, 1000, 0, false, .plan true⟩] }, by decide⟩

theorem witness_PlanBankCommandsComplete_8 : ∃ (mb : _) (s : State),
    Ready 0x0305 mb [] s :=
  ⟨2, ready 0x0305 2 [] up, by decide⟩

theorem witness_PlanBankCommandsComplete_9 : ∃ (mb : _) (w0 : _) (s : State),
    Ready 0x0306 mb [w0] s ∧
    fld w0 6 0 < 92 :=
  ⟨2, 91, ready 0x0306 2 [91] up, by decide⟩

theorem witness_CollectiveCommandsComplete_1 : ∃ (mb : _) (args : _) (sets : _) (s : State),
    let n := fld (args.getD 0 0) 31 20
    let g := groupArg (cmdOf 0x0400 mb 0 s)
    let old := groupOf s n
    Ready 0x0400 mb args s ∧
    args.length = 24 + fld (args.getD 3 0) 13 7 ∧
    (∀ x ∈ groupChecks (cmdOf 0x0400 mb 0 s) s, x.2 = false) ∧
    (g.valid = false ∨ old.valid = false ∨ g.gepoch ≠ old.gepoch ∨ groupOpen s n = false) ∧
    (g.valid = true →
      freeSets (modTwine (fun t => { t with groups := tabSet {} t.groups n { old with sets := [] } }) s)
        (ceilDiv g.locals.length 16) = some sets) ∧
    (g.valid = false → sets = []) :=
  ⟨2, [0x00300805, 0x200000, 0, 0x80, 64] ++ List.replicate 20 0, [0], ready 0x0400 2 ([0x00300805, 0x200000, 0, 0x80, 64] ++ List.replicate 20 0) up, by decide +kernel⟩

theorem witness_CollectiveCommandsComplete_2 : ∃ (mb : _) (w0 : _) (s : State),
    Ready 0x0401 mb [w0] s :=
  ⟨2, 3, ready 0x0401 2 [3] up, by decide⟩

theorem witness_CollectiveCommandsComplete_3 : ∃ (mb : _) (w0 : _) (w1 : _) (s : State),
    Ready 0x0402 mb [w0, w1] s :=
  ⟨2, 3, 7, ready 0x0402 2 [3, 7] up, by decide⟩

theorem witness_CollectiveCommandsComplete_4 : ∃ (mb : _) (w0 : _) (w1 : _) (s : State),
    Ready 0x0403 mb [w0, w1] s ∧
    (instOf s (fld w0 31 12 * 2 ^ 16 + fld w1 15 0)).st = .opened :=
  ⟨2, 0x300000, 7, ready 0x0403 2 [0x300000, 7] { up with twine.insts := [(3 * 2 ^ 24 + 7, { st := .opened })] }, by decide⟩

theorem witness_CollectiveCommandsComplete_5 : ∃ (mb : _) (w0 : _) (w1 : _) (w2 : _) (w3 : _) (s : State) (reads : List Nat),
    let key := fld w0 31 12 * 2 ^ 16 + fld w1 15 0
    let scan := fun (reads : List Nat) => tallyScan (cmdOf 0x0404 mb 0 s) (modPool (fun p => { p with reads := reads }) s)
    Ready 0x0404 mb [w0, w1, w2, w3] s ∧
    (groupOf s (keyGroup key)).tally = true ∧
    (instOf s key).st ≠ .free ∧
    (scan reads).1 = true :=
  ⟨2, 0x300000, 7, 0, 0, ready 0x0404 2 [0x300000, 7, 0, 0] { up with twine := { groups := [(3, { tally := true })], insts := [(3 * 2 ^ 24 + 7, { st := .opened })] } }, [], by decide⟩

theorem witness_CollectiveCommandsComplete_6 : ∃ (mb : _) (w0 : _) (w1 : _) (w2 : _) (w3 : _) (s : State) (reads : List Nat),
    let key := fld w0 31 12 * 2 ^ 16 + fld w1 15 0
    let scan := fun (reads : List Nat) => tallyScan (cmdOf 0x0404 mb 0 s) (modPool (fun p => { p with reads := reads }) s)
    Ready 0x0404 mb [w0, w1, w2, w3] s ∧
    (groupOf s (keyGroup key)).tally = true ∧
    (instOf s key).st ≠ .free ∧
    (scan reads).1 = false :=
  ⟨2, 0x300000, 7, 0, 0, ready 0x0404 2 [0x300000, 7, 0, 0] { up with twine := { groups := [(3, { tally := true })], insts := [(3 * 2 ^ 24 + 7, { st := .opened, chunks := [{ tally := [1], scratch := [(useTally, 0x60000)] }] })] } }, [3], by decide⟩

theorem witness_CollectiveCommandsComplete_7 : ∃ (mb : _) (s : State),
    Ready 0x0405 mb [] s :=
  ⟨2, ready 0x0405 2 [] up, by decide⟩

theorem witness_CollectiveEventsComplete_1 : ∃ (ifc : _) (f : _) (s : State),
    coreUp s = true ∧
    s.tray.restart ≠ .warming ∧
    (link s (ifcUnit ifc)).rxq.find? (fun f => f.cls == 1 && !isMarker f) = some f :=
  ⟨0, { cls := 1, len32 := 1 }, { up with links := [(0x8048, { rxq := [{ cls := 1, len32 := 1 }] })] }, by decide⟩

theorem witness_CollectiveEventsComplete_2 : ∃ (ifc : _) (f : _) (s : State),
    coreUp s = true ∧
    s.tray.restart ≠ .warming ∧
    (link s (ifcUnit ifc)).rxq.find? isMarker = some f :=
  ⟨0, marker, { up with links := [(0x8048, { rxq := [marker] })] }, by decide⟩

theorem witness_CollectiveEventsComplete_3 : ∃ (key : _) (s : State),
    (instOf s key).st = .opened ∧
    (instOf s key).grp.timeout ≤ idleTurns s (instOf s key) ∧
    (missingMembers (instOf s key) ≠ [] ∨ waitsForNone (instOf s key) = true) ∧
    ((instOf s key).grp.onFail = false ∨ (instOf s key).op = 0) :=
  ⟨3 * 2 ^ 24 + 7, { up with twine.insts := [(3 * 2 ^ 24 + 7, { st := .opened, grp := { valid := true, members := 2, trays := [0, 1], locals := [(0, 1), (1, 2)], onFail := false }, idleAt := 936, op := 1 })] }, by decide⟩

theorem witness_CollectiveEventsComplete_4 : ∃ (key : _) (s : State),
    (instOf s key).st = .opened ∧
    (instOf s key).grp.timeout ≤ idleTurns s (instOf s key) ∧
    (missingMembers (instOf s key) ≠ [] ∨ waitsForNone (instOf s key) = true) ∧
    (instOf s key).grp.onFail = true ∧
    0 < (instOf s key).op :=
  ⟨3 * 2 ^ 24 + 7, { up with twine.insts := [(3 * 2 ^ 24 + 7, { st := .opened, grp := { valid := true, members := 2, trays := [0, 1], locals := [(0, 1), (1, 2)], onFail := true }, idleAt := 936, op := 1 })] }, by decide⟩

theorem witness_CollectiveEventsComplete_5 : ∃ (key : _) (idx : _) (k : _) (s : State),
    (instOf s key).st = .opened ∧
    (incomplete (instOf s key)).find? (fun k => k.idx == idx) = some k ∧
    waitsUpstream (instOf s key) k = true ∧
    (instOf s key).grp.timeout * (traysBefore (instOf s key) (idx % 2) + 1) ≤ idleTurns s (instOf s key) :=
  ⟨3 * 2 ^ 24 + 7, 0, { idx := 0 }, { up with twine.insts := [(3 * 2 ^ 24 + 7, { st := .opened, grp := { valid := true, members := 2, trays := [0, 1], locals := [(0, 1), (1, 2)], onFail := true }, idleAt := 0, op := 1, count := 1 })] }, by decide⟩

theorem witness_CollectiveEventsComplete_6 : ∃ (key : _) (s : State),
    ((instOf s key).st = .closed ∨ (instOf s key).st = .abandoned) ∧
    (instOf s key).stateAt + (instOf s key).grp.timeout ≤ s.reel.bounds :=
  ⟨3 * 2 ^ 24 + 7, { up with twine.insts := [(3 * 2 ^ 24 + 7, { st := .closed, stateAt := 936 })] }, by decide⟩

theorem witness_StallRecallCompletes_1 : ∃ (mb : _) (args : _) (sets : _) (s : State),
    let n := fld (args.getD 0 0) 31 16
    let tag := fld (args.getD 0 0) 15 0
    let first := fld (args.getD 1 0) 31 12
    let num := fld (args.getD 2 0) 31 12
    let w := args.getD 3 0
    let chan := fld w 28 26
    let targets := recallTargets (cmdOf 0x0502 mb 0 s)
    let asics := (recallAsics s targets).take (2 ^ fld w 30 29)
    let t := forAll (List.range sets.length) (fun j => loadSet (sets.getD j 0) ((chan + j) % 8) targets) s
    Ready 0x0502 mb args s ∧
    args.length = 5 + fld (args.getD 3 0) 3 0 ∧
    tag ≠ 0 ∧
    first + num ≤ (stallOf s n).positions ∧
    1 ≤ num ∧
    num ≤ 524288 ∧
    fld w 30 29 ≠ 3 ∧
    fld w 25 13 ≤ 4096 ∧
    (∀ t ∈ targets, t ≤ 0x8FF) ∧
    targets.Nodup ∧
    touchesLost (stallOf s n) first num = false ∧
    asics ≠ [] ∧
    ((stallOf s n).st = .parked ∨ (stallOf s n).st = .damaged) ∧
    s.pool.recalls.length < 256 ∧
    freeSets s asics.length = some sets :=
  ⟨2, [0x00010001, 0, 0x1000, 0, 5], [0], ready 0x0502 2 [0x00010001, 0, 0x1000, 0, 5] { up with asics := [(0, { st := .admitted })], fwd.ept := [(5, { w0 := 0x20, w3 := 0x80000000 })], pool.stalls := [(1, { st := .parked, positions := 1, stride := 1 })] }, by decide +kernel⟩

theorem witness_StallCommandsComplete_1 : ∃ (mb : _) (w0 : _) (s : State),
    Ready 0x0505 mb [w0] s :=
  ⟨2, 0x10000, ready 0x0505 2 [0x10000] up, by decide⟩

theorem witness_StallCommandsComplete_2 : ∃ (mb : _) (w0 : _) (w1 : _) (s : State),
    Ready 0x0506 mb [w0, w1] s :=
  ⟨2, 0x10000, 0, ready 0x0506 2 [0x10000, 0] up, by decide⟩

theorem witness_StallCommandsComplete_3 : ∃ (mb : _) (s : State),
    Ready 0x0508 mb [] s :=
  ⟨2, ready 0x0508 2 [] up, by decide⟩

theorem witness_StallCommandsComplete_4 : ∃ (mb : _) (w0 : _) (w1 : _) (w2 : _) (s : State),
    Ready 0x0500 mb [w0, w1, w2] s ∧
    fld w0 11 8 < 2 ∧
    fld w0 7 4 < 3 ∧
    (fld w0 11 8 = 1 → fld w0 7 4 ≠ 2) ∧
    fld w1 4 0 ≠ 0 ∧
    w2 ≠ 0 ∧
    w2 ≤ stallRegion s ∧
    (stallOf s (fld w0 31 16)).st = .empty :=
  ⟨2, 0x10110, 1, 5, ready 0x0500 2 [0x10110, 1, 5] up, by decide⟩

theorem witness_StallCommandsComplete_5 : ∃ (mb : _) (w0 : _) (w1 : _) (s : State),
    Ready 0x0501 mb [w0, w1] s ∧
    w1 ≠ 0 ∧
    w1 ≤ stallRegion s ∧
    (stallOf s (fld w0 31 16)).pages.length ≤ w1 ∧
    (stallOf s (fld w0 31 16)).st ≠ .empty :=
  ⟨2, 0x10000, 5, ready 0x0501 2 [0x10000, 5] { up with pool.stalls := [(1, { st := .parked })] }, by decide⟩

theorem witness_StallCommandsComplete_6 : ∃ (mb : _) (w0 : _) (w1 : _) (s : State),
    Ready 0x0503 mb [w0, w1] s ∧
    fld w1 31 12 ≤ (stallOf s (fld w0 31 16)).positions ∧
    ((stallOf s (fld w0 31 16)).st = .parked ∨ (stallOf s (fld w0 31 16)).st = .damaged) :=
  ⟨2, 0x10000, 0x1000, ready 0x0503 2 [0x10000, 0x1000] { up with pool.stalls := [(1, { st := .damaged, positions := 1 })] }, by decide⟩

theorem witness_StallCommandsComplete_7 : ∃ (mb : _) (w0 : _) (s : State),
    Ready 0x0504 mb [w0] s ∧
    (stallOf s (fld w0 31 16)).st ≠ .recalling :=
  ⟨2, 0x10000, ready 0x0504 2 [0x10000] { up with pool.stalls := [(1, { st := .filling })] }, by decide⟩

theorem witness_StallCommandsComplete_8 : ∃ (mb : _) (w0 : _) (w1 : _) (s : State),
    let t := modPool (fun p => { p with spillGib := fld w0 7 0, scratchGib := fld w1 6 0 }) s
    Ready 0x0507 mb [w0, w1] s ∧
    fld w0 7 0 ≤ 192 ∧
    fld w1 6 0 ≠ 0 ∧
    fld w1 6 0 ≤ 64 ∧
    1048576 ≤ stallRegion t ∧
    ((List.range 4).map fun a => (spillOf s a).reserve).sum ≤ spillPages t ∧
    s.tray.st = .standby ∧
    (∀ e ∈ s.pool.stalls, e.2.st = .empty) ∧
    usedSpill s = [] ∧
    s.twine.insts = [] :=
  ⟨2, 192, 64, ready 0x0507 2 [192, 64] up, by decide⟩

theorem witness_StallEventsComplete_1 : ∃ (ifc : _) (f : _) (s : State),
    coreUp s = true ∧
    s.tray.restart ≠ .warming ∧
    (link s (ifcUnit ifc)).rxq.find? (fun f => f.cls == 4) = some f :=
  ⟨0, { cls := 4 }, { up with links := [(0x8048, { rxq := [{ cls := 4 }] })] }, by decide⟩

theorem witness_StallEventsComplete_2 : ∃ (n : _) (b : _) (reads : List Nat) (s : State),
    let x := stallOf s n
    let g := tabGet {} x.staged b
    let page := ((x.stage.find? fun e => e.1 == b / 32).map (·.2)).getD stagingBase
    let got := poolRead page 2048 4 (modPool (fun p => { p with reads := reads }) s)
    x.st = .filling ∧
    g.packed = none ∧
    g.units.length = 64 ∧
    s.power.packers.contains ((n + b) % 16) = false ∧
    got.1 = true :=
  ⟨1, 0, [], { up with pool.stalls := [(1, { st := .filling, staged := [(0, { units := (List.range 64).map fun i => (i, [1]) })] })] }, by decide⟩

theorem witness_StallEventsComplete_3 : ∃ (n : _) (b : _) (reads : List Nat) (s : State),
    let x := stallOf s n
    let g := tabGet {} x.staged b
    let page := ((x.stage.find? fun e => e.1 == b / 32).map (·.2)).getD stagingBase
    let got := poolRead page 2048 4 (modPool (fun p => { p with reads := reads }) s)
    x.st = .filling ∧
    g.packed = none ∧
    g.units.length = 64 ∧
    s.power.packers.contains ((n + b) % 16) = false ∧
    got.1 = false :=
  ⟨1, 0, [3], { up with pool.stalls := [(1, { st := .filling, staged := [(0, { units := (List.range 64).map fun i => (i, [1]) })] })] }, by decide⟩

theorem witness_StallEventsComplete_4 : ∃ (n : _) (s : State),
    (stallOf s n).st = .filling ∧
    (stallOf s n).idleAt + (stallOf s n).timeout ≤ s.reel.bounds :=
  ⟨1, { up with pool.stalls := [(1, { st := .filling, idleAt := 936, timeout := 64 })] }, by decide⟩

theorem witness_StallEventsComplete_5 : ∃ (n : _) (r : _) (s : State),
    recallOf s n = some r ∧
    r.granted = true ∧
    r.handedAt = none :=
  ⟨1, (rcl none), { up with pool.recalls := [(rcl none)] }, by decide⟩

theorem witness_StallEventsComplete_6 : ∃ (n : _) (r : _) (t : _) (s : State),
    recallOf s n = some r ∧
    r.handedAt = some t ∧
    t + r.linger ≤ s.reel.bounds :=
  ⟨1, (rcl (some 984)), 984, { up with pool.recalls := [rcl (some 984)] }, by decide⟩

theorem witness_PoolEventsComplete_1 : ∃ (page : _) (s : State),
    s.power.patrolGranted = true ∧
    patrolDue (patrolPass s) page = true :=
  ⟨0x60000, { up with pool.stalls := [(1, { st := .parked, pages := [⟨0x60000, 0, 1, false, []⟩] })] }, by decide⟩

theorem witness_PoolEventsComplete_2 : ∃ (page : _) (old : _) (new : _) (retire : _) (n : _) (g : _) (s : State),
    s.pool.copying.find? (fun c => c.1 == page) = some (old, new, retire) ∧
    pageOwner s page = some n ∧
    (stallOf s n).st ≠ .recalling ∧
    (retire = false → (stallOf s n).st = .parked) ∧
    halfUp s (pageHalf new) = true ∧
    (if retire then s.power.copyGranted else s.power.migrateGranted) = true ∧
    ((stallOf s n).pages.find? fun g => g.page == page && !g.lost) = some g :=
  ⟨0x60000, 0x60000, 0x60100, true, 1, ⟨0x60000, 0, 1, false, []⟩, { up with pool.stalls := [(1, { st := .parked, pages := [⟨0x60000, 0, 1, false, []⟩] })], pool.copying := [(0x60000, 0x60100, true)] }, by decide⟩

theorem witness_PoolEventsComplete_3 : ∃ (s : State),
    s.reel.tick = 0 ∧
    0 < s.reel.bounds ∧
    s.reel.bounds % 2 ^ 20 = 0 ∧
    coreUp s = true ∧
    firstThisTurn (eventKey 0x0D00) s = true :=
  ⟨{ up with reel.bounds := 2 ^ 20 }, by decide⟩

theorem witness_AnnealingCommandsComplete_1 : ∃ (mb : _) (s : State),
    Ready 0x0605 mb [] s ∧
    annealOn s = true :=
  ⟨2, ready 0x0605 2 [] up, by decide⟩

theorem witness_AnnealingCommandsComplete_2 : ∃ (mb : _) (w0 : _) (s : State),
    Ready 0x0606 mb [w0] s ∧
    annealOn s = true ∧
    (slotOf s (fld w0 31 30)).st = .done :=
  ⟨2, 0x40000000, ready 0x0606 2 [0x40000000] { up with anneal.slots := [(1, { st := .done })] }, by decide⟩

theorem witness_AnnealingCommandsComplete_3 : ∃ (mb : _) (w0 : _) (w1 : _) (s : State),
    Ready 0x0607 mb [w0, w1] s ∧
    annealOn s = true ∧
    (slotOf s (fld w0 31 30)).st = .done :=
  ⟨2, 0x40000000, 0, ready 0x0607 2 [0x40000000, 0] { up with anneal.slots := [(1, { st := .done })] }, by decide⟩

theorem witness_AnnealingCommandsComplete_4 : ∃ (mb : _) (w0 : _) (w1 : _) (data : _) (s : State),
    let x := slotOf s (fld w0 31 30)
    Ready 0x0600 mb ([w0, w1] ++ data) s ∧
    annealOn s = true ∧
    fld w0 21 0 % 4 = 0 ∧
    fld w1 11 0 = 4 * data.length ∧
    1 ≤ data.length ∧
    data.length ≤ 768 ∧
    x.st ≠ .queued ∧
    x.st ≠ .running ∧
    ((fld w0 21 0 = 0 ∧ 16 ≤ data.length ∧ 4 * data.length ≤ imSize (wordLe (leWords data))) ∨
      (fld w0 21 0 ≠ 0 ∧ x.st = .loading ∧ fld w0 21 0 + 4 * data.length ≤ imSize (imWord x.image))) :=
  ⟨2, 0x40000000, 0x40, List.replicate 16 0, ready 0x0600 2 ([0x40000000, 0x40] ++ List.replicate 16 0) up, ready_of (by decide) (by decide) rfl rfl (by decide) (by decide) (by decide) (by decide) (by decide), by decide⟩

theorem witness_AnnealingCommandsComplete_5 : ∃ (mb : _) (w0 : _) (s : State),
    let x := slotOf s (fld w0 31 30)
    Ready 0x0601 mb [w0] s ∧
    annealOn s = true ∧
    x.st = .loading ∧
    (annealError x).1 = 0 :=
  ⟨2, 0x40000000, ready 0x0601 2 [0x40000000] { up with anneal.slots := [(1, image)] }, by decide, by decide, by decide, image_seals⟩

theorem witness_AnnealingCommandsComplete_6 : ∃ (mb : _) (w0 : _) (w1 : _) (s : State),
    Ready 0x0602 mb [w0, w1] s ∧
    annealOn s = true ∧
    ((slotOf s (fld w0 31 30)).st = .ready ∨ (slotOf s (fld w0 31 30)).st = .done) ∧
    kindBlocked s 5 = false ∧
    (annealCharge : Int) ≤ s.power.avail :=
  ⟨2, 0x40000000, 0, ready 0x0602 2 [0x40000000, 0] { { up with anneal.slots := [(1, { st := .ready })] } with power.avail := 491520 }, by decide⟩

theorem witness_AnnealingCommandsComplete_7 : ∃ (mb : _) (w0 : _) (s : State),
    let n := fld w0 31 30
    Ready 0x0603 mb [w0] s ∧
    annealOn s = true ∧
    (slotOf s n).st = .queued :=
  ⟨2, 0x40000000, ready 0x0603 2 [0x40000000] { up with anneal.slots := [(1, { st := .queued })] }, by decide⟩

theorem witness_AnnealingCommandsComplete_8 : ∃ (mb : _) (w0 : _) (s : State),
    let n := fld w0 31 30
    Ready 0x0603 mb [w0] s ∧
    annealOn s = true ∧
    (slotOf s n).st = .running ∧
    s.anneal.stopAt = none :=
  ⟨2, 0x40000000, ready 0x0603 2 [0x40000000] { up with anneal.slots := [(1, { st := .running })] }, by decide⟩

theorem witness_AnnealingCommandsComplete_9 : ∃ (mb : _) (w0 : _) (s : State),
    Ready 0x0604 mb [w0] s ∧
    annealOn s = true ∧
    ((slotOf s (fld w0 31 30)).st = .loading ∨ (slotOf s (fld w0 31 30)).st = .ready ∨
      (slotOf s (fld w0 31 30)).st = .done) :=
  ⟨2, 0x40000000, ready 0x0604 2 [0x40000000] { up with anneal.slots := [(1, { st := .loading })] }, by decide⟩

theorem witness_AnnealEventsComplete_1 : ∃ (n : _) (rest : _) (s : State),
    s.anneal.running = none ∧
    s.anneal.order = n :: rest ∧
    domainOn s 1 = true ∧
    (slotOf s n).st = .queued :=
  ⟨1, [2], { up with anneal.slots := [(1, { st := .queued })], anneal.order := [1, 2] }, by decide⟩

theorem witness_AnnealEventsComplete_2 : ∃ (n : _) (s : State),
    let r := runProblem (slotProblem s n) (slotOf s n).seed fun _ => false
    s.anneal.running = some n ∧
    s.anneal.stopAt = none ∧
    s.anneal.paused = false ∧
    s.anneal.faultAt = none ∧
    r.ns ≤ engineNs s :=
  ⟨1, { up with anneal.slots := [(1, { st := .running })], anneal.running := some 1 }, by decide +kernel⟩

theorem witness_AnnealEventsComplete_3 : ∃ (n : _) (s : State) (f : _),
    let r := runTo s n fun _ => false
    s.anneal.running = some n ∧
    s.anneal.stopAt = none ∧
    s.anneal.paused = false ∧
    s.anneal.faultAt = some f ∧
    r.halted = true ∧
    r.ns ≤ engineNs s + finalNs (slotProblem s n) :=
  ⟨1, { up with anneal.slots := [(1, { st := .running })], anneal.running := some 1, anneal.faultAt := some (0, 0) }, (0, 0), by decide +kernel⟩

theorem witness_AnnealEventsComplete_4 : ∃ (n : _) (t : _) (s : State),
    let r := runTo s n fun r => decide (t ≤ r.ns)
    s.anneal.running = some n ∧
    s.anneal.stopAt = some t ∧
    (s.anneal.paused = true ∨ r.ns ≤ engineNs s + finalNs (slotProblem s n)) :=
  ⟨1, 0, { up with anneal.slots := [(1, { st := .running })], anneal.running := some 1, anneal.stopAt := some 0, anneal.paused := true }, by decide +kernel⟩

theorem witness_PowerCommandsComplete_1 : ∃ (mb : _) (w0 : _) (w1 : _) (w2 : _) (w3 : _) (s : State),
    Ready 0x0700 mb [w0, w1, w2, w3] s ∧
    bit w0 31 = true :=
  ⟨2, 0x80000000, 0, 0, 0, ready 0x0700 2 [0x80000000, 0, 0, 0] up, by decide⟩

theorem witness_PowerCommandsComplete_2 : ∃ (mb : _) (s : State),
    Ready 0x0701 mb [] s :=
  ⟨2, ready 0x0701 2 [] up, by decide⟩

theorem witness_PowerCommandsComplete_3 : ∃ (mb : _) (s : State),
    Ready 0x0705 mb [] s :=
  ⟨2, ready 0x0705 2 [] up, by decide⟩

theorem witness_PowerCommandsComplete_4 : ∃ (mb : _) (w0 : _) (s : State),
    Ready 0x0707 mb [w0] s ∧
    fld w0 7 0 < 0x2C :=
  ⟨2, 0x2B, ready 0x0707 2 [0x2B] up, by decide⟩

theorem witness_PowerCommandsComplete_5 : ∃ (mb : _) (w0 : _) (w1 : _) (w2 : _) (w3 : _) (s : State),
    let n : PowerCfg :=
          { cap := fld w0 12 0, bank := fld w1 28 16, debt := fld w1 10 0
            recover := fld w2 15 0, imbalance := fld w3 23 16, migrate := fld w3 15 0 }
    Ready 0x0700 mb [w0, w1, w2, w3] s ∧
    bit w0 31 = false ∧
    1000 ≤ n.cap ∧
    (n.cap : Int) ≤ calEffective s 0x2B ∧
    n.bank ≤ 4096 ∧
    n.debt ≤ 1024 ∧
    16 ≤ n.recover ∧
    10 ≤ n.imbalance ∧
    n.imbalance ≤ 100 :=
  ⟨2, 4000, 0x10000400, 16, 0x640000, ready 0x0700 2 [4000, 0x10000400, 16, 0x640000] up, by decide⟩

theorem witness_PowerCommandsComplete_6 : ∃ (mb : _) (w0 : _) (s : State),
    let d := fld w0 3 0
    Ready 0x0702 mb [w0] s ∧
    fld w0 3 0 < 10 ∧
    (s.mail.long.any fun l => l.opcode == 0x0702) = false ∧
    bit w0 8 = false ∧
    offForbidden s d = false :=
  ⟨2, 4, ready 0x0702 2 [4] up, by decide⟩

theorem witness_PowerCommandsComplete_7 : ∃ (mb : _) (w0 : _) (s : State),
    let d := fld w0 3 0
    Ready 0x0702 mb [w0] s ∧
    fld w0 3 0 < 10 ∧
    (s.mail.long.any fun l => l.opcode == 0x0702) = false ∧
    bit w0 8 = true ∧
    s.power.on.contains d = true :=
  ⟨2, 0x109, ready 0x0702 2 [0x109] up, by decide⟩

theorem witness_PowerCommandsComplete_8 : ∃ (mb : _) (w0 : _) (w1 : _) (w2 : _) (s : State),
    Ready 0x0703 mb [w0, w1, w2] s ∧
    fld w0 1 0 ≠ 3 ∧
    Placeable .freqStep 0 (turnOf w1 w2) s :=
  ⟨2, 2, 2000, 0, ready 0x0703 2 [2, 2000, 0] up, by decide⟩

theorem witness_PowerCommandsComplete_9 : ∃ (mb : _) (w0 : _) (w1 : _) (s : State),
    Ready 0x0704 mb [w0, w1] s ∧
    fld w1 1 0 ≠ 3 ∧
    (bit w1 16 = false → AddressOk w0) :=
  ⟨2, 0, 0x10002, ready 0x0704 2 [0, 0x10002] up, by decide⟩

theorem witness_PowerCommandsComplete_10 : ∃ (mb : _) (w0 : _) (w1 : _) (s : State),
    Ready 0x0706 mb [w0, w1] s ∧
    fld w0 7 0 < 0x2C ∧
    longOp s 0x0708 = none ∧
    (calRange (fld w0 7 0)).1 ≤ sgn 16 (fld w1 15 0) ∧
    sgn 16 (fld w1 15 0) ≤ (calRange (fld w0 7 0)).2 :=
  ⟨2, 0x25, 0xFFF1, ready 0x0706 2 [0x25, 0xFFF1] up, by decide⟩

theorem witness_PowerLongCommandsStart_1 : ∃ (mb : _) (w0 : _) (s : State),
    let d := fld w0 3 0
    Ready 0x0702 mb [w0] s ∧
    fld w0 3 0 < 10 ∧
    bit w0 8 = true ∧
    s.power.on.contains d = false ∧
    s.power.ramping = none ∧
    (s.mail.long.any fun l => l.opcode == 0x0702) = false ∧
    overBudget s d = false :=
  ⟨2, 0x107, ready 0x0702 2 [0x107] { up with power.on := [0, 9] }, by decide⟩

theorem witness_PowerLongCommandsStart_2 : ∃ (mb : _) (w0 : _) (s : State),
    Ready 0x0708 mb [w0] s ∧
    longOp s 0x0708 = none ∧
    fld w0 1 0 = 0 ∧
    s.tray.st = .standby ∧
    inletStable s = true :=
  ⟨2, 0, ready 0x0708 2 [0] { up with reel.bounds := 976563, power.inlet := [(0, 160)] }, by decide⟩

theorem witness_PowerLongCommandsStart_3 : ∃ (mb : _) (w0 : _) (s : State),
    Ready 0x0708 mb [w0] s ∧
    longOp s 0x0708 = none ∧
    fld w0 1 0 = 1 ∧
    poolIdle s = true :=
  ⟨2, 1, ready 0x0708 2 [1] up, by decide⟩

theorem witness_PowerEventsComplete_1 : ∃ (a : _) (s : State),
    dueAction .freqStep none s = some a :=
  ⟨⟨.freqStep, 0, 1000, 0, false, .freq 1 0⟩, { up with sched := [⟨.freqStep, 0, 1000, 0, false, .freq 1 0⟩] }, by decide⟩

theorem witness_PowerEventsComplete_2 : ∃ (s : State),
    coreUp s = true ∧
    s.reel.tick = 0 ∧
    firstThisTurn (eventKey 0x0D01) s = true ∧
    (∀ a ∈ s.sched, schedDue s a = false) :=
  ⟨up, by decide⟩

theorem witness_PowerEventsComplete_3 : ∃ (a : _) (s : State),
    a < 4 ∧
    domainOn s (4 + a) = true ∧
    avsQuiet s = false ∧
    fwUp s = true ∧
    (tabGet 0 s.power.avsAt a = 0 ∨ tabGet 0 s.power.avsAt a + 1023 ≤ s.reel.bounds) :=
  ⟨3, up, by decide⟩

theorem witness_PowerEventsComplete_4 : ∃ (a : _) (s : State),
    a < 4 ∧
    domainOn s (4 + a) = true ∧
    avsQuiet s = false ∧
    fwUp s = true ∧
    tabGet 0 s.power.avsAt a ≠ 0 ∧
    s.reel.bounds < tabGet 0 s.power.avsAt a + 1023 :=
  ⟨3, { up with power.avsAt := [(3, 1001)] }, by decide⟩

theorem witness_PowerEventsComplete_5 : ∃ (sensor : _) (s : State),
    coreUp s = true ∧
    sensor < 32 :=
  ⟨31, up, by decide⟩

theorem witness_PowerEventsComplete_6 : ∃ (flow : Nat) (turns : Nat) (s : State),
    coreUp s = true ∧
    s.power.coolantFault = false ∧
    sensorCal s 30 flow < 800 ∧
    244141 ≤ turns :=
  ⟨0, 244141, up, by decide, by decide, lowFlow, by decide⟩

theorem witness_PowerEventsComplete_7 : ∃ (flow : Nat) (turns : Nat) (s : State),
    s.power.coolantFault = true ∧
    800 ≤ sensorCal s 30 flow ∧
    976563 ≤ turns :=
  ⟨1000, 976563, dry, by decide, goodFlow, by decide⟩

theorem witness_PowerEventsComplete_8 : ∃ (s : State),
    16 ≤ s.power.badRun ∧
    s.power.sensorFault = false :=
  ⟨{ up with power.badRun := 16 }, by decide⟩

theorem witness_PowerEventsComplete_9 : ∃ (s : State),
    s.power.cfg.recover ≤ s.power.coolRun ∧
    s.power.setLevel < s.power.thermalLevel ∧
    s.power.coolantFault = false :=
  ⟨{ up with power.thermalLevel := 1, power.coolRun := 1024 }, by decide⟩

theorem witness_PowerEndingsComplete_1 : ∃ (d : _) (s : State) (l : _),
    d ≠ 8 ∧
    s.power.ramping = some d ∧
    longOp s 0x0702 = some l ∧
    s.tray.booting = false :=
  ⟨7, { up with power.ramping := some 7, mail.long := [⟨2, 0x0702, 0, 8000000, 1⟩] }, ⟨2, 0x0702, 0, 8000000, 1⟩, by decide⟩

theorem witness_PowerEndingsComplete_2 : ∃ (d : _) (s : State),
    d ≠ 8 ∧
    s.power.ramping = some d ∧
    longOp s 0x0702 = none ∧
    s.tray.booting = true :=
  ⟨7, { up with power.ramping := some 7, tray.booting := true }, by decide⟩

theorem witness_PowerEndingsComplete_3 : ∃ (d : _) (s : State),
    s.power.on.contains d = true :=
  ⟨7, up, by decide⟩

theorem witness_PowerEndingsComplete_4 : ∃ (held : _) (l : _) (s : State),
    longOp s 0x0708 = some l ∧
    (l.attempts = 1 ∨ l.attempts = 2) ∧
    (l.subject = 0 → l.limit ≤ s.reel.clock + 1000000000 ∧ held = true) :=
  ⟨true, ⟨2, 0x0708, 0, 8000000, 1⟩, { up with mail.long := [⟨2, 0x0708, 0, 8000000, 1⟩] }, by decide⟩

theorem witness_DomainCommandsComplete_1 : ∃ (mb : _) (w0 : _) (w1 : _) (s : State),
    let r : Role :=
          { role := fld w0 1 0, gcount := fld w0 3 2, group := fld w0 5 4, position := fld w0 13 8,
            endpoints := fld w1 11 0, pods := fld w1 19 12, traysM1 := fld w1 27 20 }
    Ready 0x0800 mb [w0, w1] s ∧
    r.role ≠ 3 ∧
    r.gcount ≠ 3 ∧
    r.group < 2 ^ r.gcount ∧
    positionBad r = false ∧
    podsBad r = false ∧
    r.endpoints ≠ 0 ∧
    roleExceeds r = false ∧
    s.tray.st ≠ .admitted :=
  ⟨2, 0x0101, 0x00202048, ready 0x0800 2 [0x0101, 0x00202048] up, by decide⟩

theorem witness_DomainCommandsComplete_2 : ∃ (mb : _) (s : State),
    Ready 0x0801 mb [] s :=
  ⟨2, ready 0x0801 2 [] up, by decide⟩

theorem witness_DomainCommandsComplete_3 : ∃ (mb : _) (s : State),
    Ready 0x0802 mb [] s :=
  ⟨2, ready 0x0802 2 [] up, by decide⟩

theorem witness_CrierAndLedgerCommandsComplete_1 : ∃ (mb : _) (w0 : _) (w1 : _) (s : State),
    Ready 0x0820 mb [w0, w1] s ∧
    bit w0 31 = true :=
  ⟨2, 0x80000000, 0, ready 0x0820 2 [0x80000000, 0] up, by decide⟩

theorem witness_CrierAndLedgerCommandsComplete_2 : ∃ (mb : _) (w0 : _) (w1 : _) (s : State),
    Ready 0x0820 mb [w0, w1] s ∧
    bit w0 31 = false ∧
    longOp s 0x0822 = none :=
  ⟨2, 1, 0, ready 0x0820 2 [1, 0] up, by decide⟩

theorem witness_CrierAndLedgerCommandsComplete_3 : ∃ (mb : _) (s : State),
    Ready 0x0821 mb [] s :=
  ⟨2, ready 0x0821 2 [] up, by decide⟩

theorem witness_CrierAndLedgerCommandsComplete_4 : ∃ (mb : _) (s : State),
    Ready 0x0822 mb [] s ∧
    (∀ t, s.crier.foreignAt = some t → t + 244141 ≤ s.reel.bounds) ∧
    longOp s 0x0822 = none :=
  ⟨2, ready 0x0822 2 [] up, by decide⟩

theorem witness_CrierAndLedgerCommandsComplete_5 : ∃ (mb : _) (args : _) (s : State),
    Ready 0x0823 mb args s ∧
    args.length = 9 ∧
    bit (args.getD 0 0) 31 = true :=
  ⟨2, [0x80000000] ++ List.replicate 8 0, ready 0x0823 2 ([0x80000000] ++ List.replicate 8 0) up, by decide⟩

theorem witness_CrierAndLedgerCommandsComplete_6 : ∃ (mb : _) (args : _) (s : State),
    Ready 0x0823 mb args s ∧
    args.length = 9 ∧
    bit (args.getD 0 0) 31 = false :=
  ⟨2, [0] ++ List.replicate 8 0, ready 0x0823 2 ([0] ++ List.replicate 8 0) up, by decide⟩

theorem witness_CrierAndLedgerCommandsComplete_7 : ∃ (mb : _) (w0 : _) (s : State),
    Ready 0x0824 mb [w0] s :=
  ⟨2, 5, ready 0x0824 2 [5] up, by decide⟩

theorem witness_CrierAndLedgerCommandsComplete_8 : ∃ (mb : _) (s : State),
    Ready 0x0825 mb [] s :=
  ⟨2, ready 0x0825 2 [] up, by decide⟩

theorem witness_LedgerAndAgreementEventsComplete_1 : ∃ (s : State),
    ledgerSends s = true ∧
    s.reel.tick = 0 ∧
    s.reel.turn % checkPeriod s = 0 ∧
    firstThisTurn (eventKey 0x0D02) s = true ∧
    boundaryDone s = true :=
  ⟨{ up with reel.turn := 1008 }, by decide⟩

theorem witness_LedgerAndAgreementEventsComplete_2 : ∃ (ifc : _) (f : _) (s : State),
    coreUp s = true ∧
    s.tray.restart ≠ .warming ∧
    (link s (ifcUnit ifc)).rxq.find? (fun f => f.cls == 0 && ctypeOf f == 5) = some f :=
  ⟨0, { w3 := 0x00050000 }, { up with links := [(0x8048, { rxq := [{ w3 := 0x00050000 }] })] }, by decide +kernel⟩

theorem witness_LedgerAndAgreementEventsComplete_3 : ∃ (tray : _) (r : _) (s : State),
    recordOf s tray = some r ∧
    coreUp s = true ∧
    s.ledger.peers.contains tray = true ∧
    recCurrent s r = false ∧
    s.ledger.silent.contains tray = false :=
  ⟨5, ⟨[], false, 900, 900, none⟩, { up with reel.bounds := 263045, ledger.peers := [5], ledger.records := [(5, some ⟨[], false, 900, 900, none⟩)] }, by decide⟩

theorem witness_LedgerAndAgreementEventsComplete_4 : ∃ (a : _) (s : State),
    dueAction .tableSwitch none s = some a :=
  ⟨⟨.tableSwitch, 0, 1000, 0, false, .table 4⟩, { up with sched := [⟨.tableSwitch, 0, 1000, 0, false, .table 4⟩] }, by decide⟩

theorem witness_LedgerAndAgreementEventsComplete_5 : ∃ (a : _) (s : State),
    dueAction .planSwap none s = some a :=
  ⟨⟨.planSwap, 0, 1000, 0, false, .plan true⟩, { up with sched := [⟨.planSwap, 0, 1000, 0, false, .plan true⟩] }, by decide⟩

theorem witness_LedgerAndAgreementEventsComplete_6 : ∃ (a : _) (s : State),
    dueAction .resume none s = some a ∧
    s.tray.st = .unscheduled ∧
    (s.reel.st = .locked ∨ s.reel.st = .bench) ∧
    (s.tray.returnSt = .admitted → s.plan.inForce ≠ none ∧ ledgerAgrees s = true) :=
  ⟨⟨.resume, 0, 1000, 0, false, .none⟩, { up with sched := [⟨.resume, 0, 1000, 0, false, .none⟩], tray.st := .unscheduled, tray.returnSt := .standby }, by decide⟩

theorem witness_CrierFramesComplete_1 : ∃ (energy : Int) (s : State),
    carrierOn s energy = false ∧
    crierSends s = true ∧
    s.crier.slotted = true ∧
    reelTimed s = true ∧
    s.reel.tick = 0 ∧
    s.reel.turn % 8192 = 0 ∧
    slotOwner s.reel.turn = busIndex s ∧
    s.crier.slotSent ≠ some s.reel.turn ∧
    slotOfTurn s.reel.turn < 8 :=
  ⟨carrierLevel up, { up with crier.slotted := true, reel.turn := 131072 }, quiet _, by decide⟩

theorem witness_CrierFramesComplete_2 : ∃ (energy : Int) (s : State) (f : _) (rest : _),
    carrierOn s energy = false ∧
    crierSends s = true ∧
    s.crier.slotted = true ∧
    reelTimed s = true ∧
    s.reel.tick = 0 ∧
    s.reel.turn % 8192 = 0 ∧
    slotOwner s.reel.turn = busIndex s ∧
    s.crier.slotSent ≠ some s.reel.turn ∧
    8 ≤ slotOfTurn s.reel.turn ∧
    s.crier.queue = f :: rest ∧
    crierTicks f ≤ (131072 - s.reel.turn % 131072) * 4096 :=
  ⟨carrierLevel up, { up with crier.slotted := true, crier.queue := [⟨5, 1, false, []⟩], reel.turn := 65536 }, ⟨5, 1, false, []⟩, [], quiet _, by decide⟩

theorem witness_CrierFramesComplete_3 : ∃ (energy : Int) (t : _) (s : State),
    carrierOn s energy = false ∧
    crierSends s = true ∧
    s.crier.slotted = false ∧
    reelTimed s = false ∧
    s.crier.waitEnd = some t ∧
    t ≤ s.reel.clock ∧
    backoffLedgerDue s = true :=
  ⟨carrierLevel up, 0, { up with reel.st := .free, crier.waitEnd := some 0 }, quiet _, by decide⟩

theorem witness_CrierFramesComplete_4 : ∃ (energy : Int) (t : _) (s : State) (f : _) (rest : _),
    carrierOn s energy = false ∧
    crierSends s = true ∧
    s.crier.slotted = false ∧
    reelTimed s = false ∧
    s.crier.waitEnd = some t ∧
    t ≤ s.reel.clock ∧
    backoffLedgerDue s = false ∧
    s.crier.queue = f :: rest :=
  ⟨carrierLevel up, 0, { up with reel.st := .free, crier.waitEnd := some 0, crier.ledgerAt := some 1000, crier.queue := [⟨5, 1, false, []⟩] }, ⟨5, 1, false, []⟩, [], quiet _, by decide⟩

theorem witness_CrierFramesComplete_5 : ∃ (energy : Int) (s : State),
    carrierOn s energy = true ∧
    s.crier.slotted = false ∧
    reelTimed s = false :=
  ⟨carrierLevel up + 1, { up with reel.st := .free }, loud _, by decide⟩

theorem witness_CrierFramesComplete_6 : ∃ (s : State),
    s.crier.sending.isSome = true ∧
    s.crier.sendEnd ≤ s.reel.clock :=
  ⟨{ up with crier.sending := some ⟨5, 1, false, []⟩ }, by decide⟩

theorem witness_CrierFramesComplete_7 : ∃ (tones : _) (loud : _) (k : _) (s : State),
    let bytes := tonesBytes (tones.drop (k + 8))
    let w := wordBe bytes 0
    let len := fld w 7 0
    coreUp s = true ∧
    s.tray.restart ≠ .warming ∧
    delimiterAt tones = some k ∧
    someErased s loud tones.length = false ∧
    10 + len ≤ bytes.length ∧
    crc16 (bytes.take (8 + len)) = ofBe ((bytes.drop (8 + len)).take 2) ∧
    fld w 15 12 < 3 ∧
    len ≤ 246 ∧
    fld w 23 16 ≠ s.tray.number ∧
    (bit w 11 = true ∨ fld w 31 24 = s.tray.number) :=
  ⟨crierTones heardFrame, [], 16, up, by decide +kernel⟩

theorem witness_CrierFramesComplete_8 : ∃ (energy : Int) (l : _) (s : State),
    longOp s 0x0822 = some l ∧
    trimDisturbed energy l s = false ∧
    (l.attempts = 1 ∨ l.attempts = 2) ∧
    l.limit ≤ s.reel.clock + 800000000 :=
  ⟨carrierLevel up, ⟨2, 0x0822, 0, 8000000, 1⟩, { up with mail.long := [⟨2, 0x0822, 0, 8000000, 1⟩] }, by decide, undisturbed _ _ rfl, by decide⟩

theorem witness_PanelCommandsComplete_1 : ∃ (mb : _) (w0 : _) (w1 : _) (s : State),
    Ready 0x0920 mb [w0, w1] s ∧
    bit w0 31 = true :=
  ⟨2, 0x80000000, 0, ready 0x0920 2 [0x80000000, 0] up, by decide⟩

theorem witness_PanelCommandsComplete_2 : ∃ (mb : _) (w0 : _) (w1 : _) (s : State),
    Ready 0x0920 mb [w0, w1] s ∧
    bit w0 31 = false ∧
    fld w0 7 0 ≠ 0 :=
  ⟨2, 1, 0, ready 0x0920 2 [1, 0] up, by decide⟩

theorem witness_PanelCommandsComplete_3 : ∃ (mb : _) (s : State),
    Ready 0x0921 mb [] s :=
  ⟨2, ready 0x0921 2 [] up, by decide⟩

theorem witness_PanelCommandsComplete_4 : ∃ (mb : _) (w0 : _) (s : State),
    let b := fld w0 3 0
    Ready 0x0922 mb [w0] s ∧
    (bay s b).askEnd ≠ none ∧
    bit w0 8 = true ∧
    (∀ u ∈ bayPorts b, (port s u).st ≠ .admitted) ∧
    cartPending s b = false :=
  ⟨2, 0x105, ready 0x0922 2 [0x105] { up with panel.bays := [(5, { askEnd := some 2000 })] }, by decide⟩

theorem witness_PanelCommandsComplete_5 : ∃ (mb : _) (w0 : _) (s : State),
    let b := fld w0 3 0
    Ready 0x0922 mb [w0] s ∧
    (bay s b).askEnd ≠ none ∧
    bit w0 8 = false :=
  ⟨2, 5, ready 0x0922 2 [5] { up with panel.bays := [(5, { askEnd := some 2000 })] }, by decide⟩

theorem witness_PanelCommandsComplete_6 : ∃ (mb : _) (w0 : _) (s : State),
    Ready 0x0923 mb [w0] s ∧
    (fld w0 15 0 = 0 ∨ cartsOn s = true) :=
  ⟨2, 0x3FFFF, ready 0x0923 2 [0x3FFFF] up, by decide⟩

theorem witness_PanelCommandsComplete_7 : ∃ (mb : _) (w0 : _) (s : State),
    Ready 0x0924 mb [w0] s :=
  ⟨2, 15, ready 0x0924 2 [15] up, by decide⟩

theorem witness_PanelEventsComplete_1 : ∃ (s : State),
    aonUp s = true ∧
    s.reel.tick = 0 ∧
    s.reel.turn % 128 = 0 ∧
    firstThisTurn (eventKey 0x0D03) s = true :=
  ⟨{ up with reel.turn := 1024 }, by decide⟩

theorem witness_PanelEventsComplete_2 : ∃ (s : State),
    panelUp s = true ∧
    s.panel.find.shortDue = true :=
  ⟨{ up with panel.find.shortDue := true }, by decide⟩

theorem witness_PanelEventsComplete_3 : ∃ (s : State),
    panelUp s = true ∧
    holdDue s s.panel.find = true ∧
    s.panel.lampTest = none :=
  ⟨{ up with panel.find := { contact := { closed := true }, pressedAt := some 0 }, reel.bounds := 524288 }, by decide⟩

theorem witness_PanelEventsComplete_4 : ∃ (t : _) (s : State),
    s.panel.lampTest = some t ∧
    t + 262144 ≤ s.reel.bounds :=
  ⟨0, { up with panel.lampTest := some 0, reel.bounds := 262144 }, by decide⟩

theorem witness_PanelEventsComplete_5 : ∃ (b : _) (s : State),
    b < 16 ∧
    panelUp s = true ∧
    cartsOn s = true ∧
    holdDue s (bay s b).ask = true :=
  ⟨15, { up with panel.bays := [(15, { ask := { contact := { closed := true }, pressedAt := some 0 } })], reel.bounds := 524288 }, by decide⟩

theorem witness_PanelEventsComplete_6 : ∃ (s : State),
    panelUp s = true ∧
    stuckDue s s.panel.find = true :=
  ⟨{ up with panel.find := { contact := { closed := true }, pressedAt := some 0 }, reel.bounds := 8388608 }, by decide⟩

theorem witness_PanelEventsComplete_7 : ∃ (b : _) (s : State),
    b < 16 ∧
    panelUp s = true ∧
    cartsOn s = true ∧
    stuckDue s (bay s b).ask = true :=
  ⟨15, { up with panel.bays := [(15, { ask := { contact := { closed := true }, pressedAt := some 0 } })], reel.bounds := 8388608 }, by decide⟩

theorem witness_PanelEventsComplete_8 : ∃ (t : _) (s : State),
    s.panel.trayFind = some t ∧
    t ≠ 0 ∧
    t ≤ s.reel.bounds :=
  ⟨1000, { up with panel.trayFind := some 1000 }, by decide⟩

theorem witness_PanelEventsComplete_9 : ∃ (b : _) (t : _) (s : State),
    b < 16 ∧
    (bay s b).find = some t ∧
    t ≠ 0 ∧
    t ≤ s.reel.bounds :=
  ⟨15, 1000, { up with panel.bays := [(15, { find := some 1000 })] }, by decide⟩

theorem witness_AskAndBayEventsComplete_1 : ∃ (b : _) (s : State),
    b < 16 ∧
    panelUp s = true ∧
    cartsOn s = true ∧
    (bay s b).ask.shortDue = true :=
  ⟨15, { up with panel.bays := [(15, { ask := { shortDue := true } })] }, by decide⟩

theorem witness_AskAndBayEventsComplete_2 : ∃ (b : _) (s : State),
    b < 16 ∧
    panelUp s = true ∧
    cartsOn s = true ∧
    (bay s b).ask.shortDue = true ∧
    (bay s b).presence.closed = true ∧
    (bay s b).askEnd ≠ none :=
  ⟨15, { up with panel.bays := [(15, { ask := { shortDue := true }, presence := { closed := true }, askEnd := some 2000 })] }, by decide⟩

theorem witness_AskAndBayEventsComplete_3 : ∃ (b : _) (t : _) (s : State),
    b < 16 ∧
    (bay s b).askEnd = some t ∧
    t ≤ s.reel.bounds :=
  ⟨15, 1000, { up with panel.bays := [(15, { askEnd := some 1000 })] }, by decide⟩

theorem witness_AskAndBayEventsComplete_4 : ∃ (b : _) (t : _) (s : State),
    b < 16 ∧
    (bay s b).deniedAt = some t ∧
    t + 524288 ≤ s.reel.bounds :=
  ⟨15, 0, { up with panel.bays := [(15, { deniedAt := some 0 })], reel.bounds := 524288 }, by decide⟩

theorem witness_AskAndBayEventsComplete_5 : ∃ (b : _) (s : State),
    b < 16 ∧
    panelUp s = true ∧
    (bay s b).openDue = true :=
  ⟨15, { up with panel.bays := [(15, { openDue := true })] }, by decide⟩

theorem witness_AskAndBayEventsComplete_6 : ∃ (b : _) (s : State),
    b < 16 ∧
    panelUp s = true ∧
    (bay s b).closeDue = true :=
  ⟨15, { up with panel.bays := [(15, { closeDue := true })] }, by decide⟩

theorem witness_AskAndBayEventsComplete_7 : ∃ (b : _) (t : _) (s : State),
    b < 16 ∧
    panelUp s = true ∧
    cartsOn s = true ∧
    (bay s b).settleAt = some t ∧
    t ≤ s.reel.bounds :=
  ⟨15, 1000, { up with panel.bays := [(15, { settleAt := some 1000 })] }, by decide⟩

theorem witness_AskAndBayEventsComplete_8 : ∃ (b : _) (s : State),
    b < 16 ∧
    panelUp s = true ∧
    (bay s b).goneDue = true ∧
    (bay s b).openDue = false :=
  ⟨15, { up with panel.bays := [(15, { goneDue := true })] }, by decide⟩

theorem witness_AskAndBayEventsComplete_9 : ∃ (b : _) (s : State),
    b < 16 ∧
    cartsOn s = true ∧
    (bay s b).supplied = true ∧
    (bay s b).presence.closed = true :=
  ⟨15, { up with panel.bays := [(15, { presence := { closed := true } })] }, by decide⟩

theorem witness_AskAndBayEventsComplete_10 : ∃ (s : State),
    panelUp s = true ∧
    s.panel.liftDue = true :=
  ⟨{ up with panel.liftDue := true }, by decide⟩

theorem witness_AskAndBayEventsComplete_11 : ∃ (s : State),
    panelUp s = true ∧
    s.panel.dropDue = true :=
  ⟨{ up with panel.dropDue := true }, by decide⟩

theorem witness_PowerSupplyEventsComplete_1 : ∃ (s : State),
    aonFresh s = true :=
  ⟨State.reset, by decide⟩

theorem witness_PowerSupplyEventsComplete_2 : ∃ (us : _) (s : State),
    s.tray.st = .aon ∧
    s.tray.strapsRead = true ∧
    100 ≤ us :=
  ⟨100, { up with tray.st := .aon }, by decide⟩

theorem witness_PowerSupplyEventsComplete_3 : ∃ (us : _) (s : State),
    aonUp s = true ∧
    s.power.on ≠ [] ∧
    10000 ≤ us :=
  ⟨10000, up, by decide⟩

theorem witness_PowerSupplyEventsComplete_4 : ∃ (us : _) (s : State),
    aonUp s = true ∧
    1000 ≤ us :=
  ⟨1000, up, by decide⟩

theorem witness_PowerSupplyEventsComplete_5 : ∃ (us : _) (s : State),
    s.tray.st = .aon ∧
    s.tray.brownOut = true ∧
    1000000 ≤ us :=
  ⟨1000000, { up with tray.st := .aon, tray.brownOut := true }, by decide⟩

theorem witness_BootStepsComplete_1 : ∃ (flow : _) (s : State),
    s.tray.booting = true ∧
    s.tray.halted = false ∧
    s.tray.st = .aon ∧
    minFlow ≤ (flow : Int) :=
  ⟨800, { up with tray := { st := .aon, booting := true } }, by decide⟩

theorem witness_BootStepsComplete_2 : ∃ (s : State),
    s.tray.booting = true ∧
    s.tray.halted = false ∧
    s.tray.st = .auth :=
  ⟨{ up with tray := { st := .auth, booting := true } }, by decide⟩

theorem witness_BootStepsComplete_3 : ∃ (s : State),
    s.tray.booting = true ∧
    s.tray.halted = false ∧
    s.tray.st = .core :=
  ⟨{ up with tray := { st := .core, booting := true } }, by decide⟩

theorem witness_BootStepsComplete_4 : ∃ (s : State),
    s.tray.booting = true ∧
    s.tray.halted = false ∧
    s.tray.st = .pool ∧
    bootedPast s 2 = true ∧
    bootedPast s 3 = true :=
  ⟨{ up with tray := { st := .pool, booting := true } }, by decide⟩

theorem witness_BootStepsComplete_5 : ∃ (s : State),
    s.tray.booting = true ∧
    s.tray.halted = false ∧
    s.tray.st = .switches ∧
    (∀ a < 4, (asicSt s a).answered = true ∨ s.tray.failed.contains (4 + a) = true) :=
  ⟨{ up with tray := { st := .switches, booting := true }, asics := (List.range 4).map fun a => (a, { answered := true }) }, by decide⟩

theorem witness_BootStepsComplete_6 : ∃ (s : State),
    s.tray.booting = true ∧
    s.tray.halted = false ∧
    s.tray.st = .lanes ∧
    (∀ a < 4, s.power.on.contains (4 + a) = true → (asicSt s a).st = .standby) :=
  ⟨{ up with tray := { st := .lanes, booting := true }, asics := (List.range 4).map fun a => (a, { st := .standby }) }, by decide⟩

theorem witness_BootStepsComplete_7 : ∃ (s : State),
    s.tray.booting = true ∧
    s.tray.halted = false ∧
    s.tray.st = .reel ∧
    (s.reel.st = .locked ∨ s.reel.st = .bench) :=
  ⟨{ up with tray := { st := .reel, booting := true } }, by decide⟩

theorem witness_BootStepsComplete_8 : ∃ (s : State),
    s.tray.booting = true ∧
    s.tray.halted = false ∧
    s.tray.st = .join ∧
    s.ledger.compared = true ∧
    s.ledger.quorum = true :=
  ⟨{ up with tray := { st := .join, booting := true }, ledger.compared := true }, by decide⟩

theorem witness_RestartEventsComplete_1 : ∃ (s : State),
    s.tray.booting = true ∧
    s.tray.halted = false ∧
    stepLimitPassed s = true ∧
    s.tray.st = .core ∧
    s.tray.stepTries = 0 :=
  ⟨{ up with tray := { st := .core, booting := true }, reel.clock := 1000000000 }, by decide⟩

theorem witness_RestartEventsComplete_2 : ∃ (s : State),
    s.tray.booting = true ∧
    s.tray.halted = false ∧
    stepLimitPassed s = true ∧
    s.tray.st = .core ∧
    s.tray.stepTries ≠ 0 :=
  ⟨{ up with tray := { st := .core, booting := true, stepTries := 1 }, reel.clock := 1000000000 }, by decide⟩

theorem witness_RestartEventsComplete_3 : ∃ (t : _) (s : State),
    s.tray.pumpOffAt = some t ∧
    t ≤ s.reel.clock :=
  ⟨7, { up with tray.pumpOffAt := some 7 }, by decide⟩

theorem witness_RestartEventsComplete_4 : ∃ (s : State),
    s.tray.restart = .warm ∧
    s.mail.long = [] :=
  ⟨{ up with tray.restart := .warm }, by decide⟩

theorem witness_RestartEventsComplete_5 : ∃ (s : State),
    s.tray.restart = .warming ∧
    s.tray.halted = false :=
  ⟨{ up with tray.restart := .warming }, by decide⟩

theorem witness_RestartEventsComplete_6 : ∃ (s : State),
    s.tray.restart = .warming ∧
    s.tray.halted = false ∧
    s.tray.restartAt + 131072 ≤ s.reel.bounds :=
  ⟨{ up with tray.restart := .warming, reel.bounds := 131072 }, by decide⟩

theorem witness_RestartEventsComplete_7 : ∃ (mb : _) (l : _) (s : State),
    longOf s mb = some l ∧
    l.limit ≤ s.reel.clock :=
  ⟨2, ⟨2, 0x0702, 0, 7, 1⟩, { up with mail.long := [⟨2, 0x0702, 0, 7, 1⟩] }, by decide⟩

theorem witness_FirmwareComplete_1 : ∃ (mb : _) (w0 : _) (w1 : _) (data : _) (s : State),
    Ready 0x0A00 mb ([w0, w1] ++ data) s ∧
    fld w1 11 0 = 4 * data.length ∧
    1 ≤ data.length ∧
    data.length ≤ 768 ∧
    w0 % 4 = 0 ∧
    w0 + 4 * data.length ≤ 67108864 ∧
    spareBusy s = false ∧
    w0 = 0 :=
  ⟨2, 0, 4, [7], ready 0x0A00 2 [0, 4, 7] up, by decide⟩

theorem witness_FirmwareComplete_2 : ∃ (mb : _) (w0 : _) (w1 : _) (data : _) (s : State),
    Ready 0x0A00 mb ([w0, w1] ++ data) s ∧
    fld w1 11 0 = 4 * data.length ∧
    1 ≤ data.length ∧
    data.length ≤ 768 ∧
    w0 % 4 = 0 ∧
    w0 + 4 * data.length ≤ 67108864 ∧
    spareBusy s = false ∧
    w0 ≠ 0 :=
  ⟨2, 67108860, 4, [7], ready 0x0A00 2 [67108860, 4, 7] up, by decide⟩

theorem witness_FirmwareComplete_3 : ∃ (mb : _) (s : State),
    Ready 0x0A01 mb [] s ∧
    spareBusy s = false :=
  ⟨2, ready 0x0A01 2 [] up, by decide⟩

theorem witness_FirmwareComplete_4 : ∃ (mb : _) (w0 : _) (s : State),
    Ready 0x0A02 mb [w0] s ∧
    (bit w0 0 = s.fw.running ∨ ((imageOf s (bit w0 0)).verified = true ∧ spareBusy s = false)) :=
  ⟨2, 0, ready 0x0A02 2 [0] up, by decide⟩

theorem witness_FirmwareComplete_5 : ∃ (mb : _) (s : State),
    Ready 0x0A03 mb [] s :=
  ⟨2, ready 0x0A03 2 [] up, by decide⟩

theorem witness_FirmwareComplete_6 : ∃ (l : _) (s : State),
    longOp s 0x0A00 = some l ∧
    (l.attempts = 1 ∨ l.attempts = 2) :=
  ⟨⟨2, 0x0A00, 0, 8000000, 1⟩, { up with mail.long := [⟨2, 0x0A00, 0, 8000000, 1⟩] }, by decide⟩

theorem witness_FirmwareComplete_7 : ∃ (l : _) (s : State),
    longOp s 0x0A01 = some l :=
  ⟨⟨2, 0x0A01, 0, 8000000, 1⟩, { up with mail.long := [⟨2, 0x0A01, 0, 8000000, 1⟩] }, by decide⟩

theorem witness_TrayCommandsComplete_1 : ∃ (mb : _) (s : State),
    Ready 0x0A04 mb [] s :=
  ⟨2, ready 0x0A04 2 [] up, by decide⟩

theorem witness_TrayCommandsComplete_2 : ∃ (mb : _) (w0 : _) (s : State),
    Ready 0x0A06 mb [w0] s ∧
    s.tray.powerDown = false ∧
    bit w0 0 = true ∧
    s.tray.st = .standby ∧
    s.tray.dup = false :=
  ⟨2, 1, ready 0x0A06 2 [1] up, by decide⟩

theorem witness_TrayCommandsComplete_3 : ∃ (mb : _) (w0 : _) (s : State),
    Ready 0x0A06 mb [w0] s ∧
    s.tray.powerDown = false ∧
    bit w0 0 = false ∧
    s.tray.st = .service :=
  ⟨2, 0, ready 0x0A06 2 [0] { up with tray.st := .service }, by decide⟩

theorem witness_TrayCommandsComplete_4 : ∃ (mb : _) (w0 : _) (w1 : _) (w2 : _) (s : State),
    Ready 0x0A07 mb [w0, w1, w2] s ∧
    Placeable .resume 0 (turnOf w1 w2) s ∧
    s.reel.st ≠ .holdover ∧
    resumeBoundary s (turnOf w1 w2) = true ∧
    s.tray.st = .unscheduled ∧
    (s.tray.returnSt = .admitted → s.plan.inForce ≠ none ∨ pendingSwap s ≠ none) :=
  ⟨2, 0, 2000, 0, ready 0x0A07 2 [0, 2000, 0] { planned with tray.st := .unscheduled, tray.returnSt := .admitted }, by decide⟩

theorem witness_TrayCommandsComplete_5 : ∃ (mb : _) (w0 : _) (s : State),
    Ready 0x0A05 mb [w0] s ∧
    fld w0 1 0 = 0 ∧
    warmForbidden s = false ∧
    9 ≤ stCode s.tray.st :=
  ⟨2, 0, ready 0x0A05 2 [0] { up with fw.s0 := { erased := true } }, by decide⟩

theorem witness_TrayCommandsComplete_6 : ∃ (mb : _) (w0 : _) (s : State),
    Ready 0x0A05 mb [w0] s ∧
    fld w0 1 0 = 1 ∧
    stallsHold (bit w0 8) s = false ∧
    3 ≤ stCode s.tray.st ∧
    s.tray.st ≠ .admitted ∧
    s.tray.st ≠ .unscheduled ∧
    s.tray.powerDown = false :=
  ⟨2, 1, ready 0x0A05 2 [1] up, by decide⟩

theorem witness_TrayCommandsComplete_7 : ∃ (mb : _) (w0 : _) (s : State),
    Ready 0x0A08 mb [w0] s ∧
    stallsHold (bit w0 8) s = false ∧
    (s.tray.st = .standby ∨ s.tray.st = .service) ∧
    s.tray.powerDown = false :=
  ⟨2, 0x100, ready 0x0A08 2 [0x100] { up with pool.stalls := [(1, { st := .parked })] }, by decide⟩

theorem witness_OnlySignedImagesRun_1 : ∃ (s : State),
    s.tray.booting = true ∧
    s.tray.halted = false ∧
    s.tray.st = .auth :=
  ⟨{ up with tray := { st := .auth, booting := true } }, by decide⟩

theorem witness_ReelCommandsComplete_1 : ∃ (mb : _) (w0 : _) (s : State),
    Ready 0x0810 mb [w0] s ∧
    fld w0 12 0 ≤ 4096 :=
  ⟨2, 4096, ready 0x0810 2 [4096] up, by decide⟩

theorem witness_ReelCommandsComplete_2 : ∃ (mb : _) (s : State),
    Ready 0x0811 mb [] s :=
  ⟨2, ready 0x0811 2 [] up, by decide⟩

theorem witness_ReelCommandsComplete_3 : ∃ (mb : _) (w0 : _) (w1 : _) (w2 : _) (s : State),
    Ready 0x0812 mb [w0, w1, w2] s ∧
    s.tray.st ≠ .admitted ∧
    bit w0 0 = true :=
  ⟨2, 1, 0, 0, ready 0x0812 2 [1, 0, 0] up, by decide⟩

theorem witness_ReelCommandsComplete_4 : ∃ (mb : _) (w0 : _) (w1 : _) (w2 : _) (s : State),
    Ready 0x0812 mb [w0, w1, w2] s ∧
    s.tray.st ≠ .admitted ∧
    bit w0 0 = false ∧
    s.reel.st = .bench :=
  ⟨2, 0, 0, 0, ready 0x0812 2 [0, 0, 0] { up with reel.st := .bench }, by decide⟩

theorem witness_ReelCommandsComplete_5 : ∃ (mb : _) (w0 : _) (w1 : _) (w2 : _) (s : State),
    Ready 0x0812 mb [w0, w1, w2] s ∧
    s.tray.st ≠ .admitted ∧
    bit w0 0 = false ∧
    s.reel.st ≠ .bench :=
  ⟨2, 0, 0, 0, ready 0x0812 2 [0, 0, 0] up, by decide⟩

theorem witness_ReelEventsComplete_1 : ∃ (s : State),
    coreUp s = true ∧
    s.reel.st = .absent :=
  ⟨{ up with reel.st := .absent }, by decide⟩

theorem witness_ReelEventsComplete_2 : ∃ (s : State),
    s.reel.st = .locked ∧
    isHeld s = false :=
  ⟨up, by decide⟩

theorem witness_ReelEventsComplete_3 : ∃ (s : State),
    s.reel.st = .acquiring :=
  ⟨{ up with reel.st := .acquiring }, by decide⟩

theorem witness_ReelEventsComplete_4 : ∃ (s : State),
    s.reel.st = .locked ∧
    s.reel.markerSeen = false ∧
    1 ≤ s.reel.noMarker :=
  ⟨{ up with reel.noMarker := 1 }, by decide⟩

theorem witness_ReelEventsComplete_5 : ∃ (lost : Bool) (s : State),
    isHeld s = true ∧
    (lost = true ∨ 4096 ≤ s.reel.held) :=
  ⟨true, { up with reel.step := some ⟨1, 7, 8⟩, reel.tick := 4095 }, by decide⟩

theorem witness_ReelEventsComplete_6 : ∃ (s : State),
    s.reel.step = none ∧
    128 ≤ s.reel.tick :=
  ⟨{ up with reel.tick := 128 }, by decide⟩

theorem witness_ReelEventsComplete_7 : ∃ (s : State),
    s.reel.st = .holdover ∧
    s.reel.limit < s.reel.holdTurns :=
  ⟨{ up with reel.st := .holdover, reel.holdTurns := 4097 }, by decide⟩

theorem witness_ReelEventsComplete_8 : ∃ (s : State),
    s.reel.st ≠ .absent ∧
    16 ≤ s.reel.noFrame ∧
    s.reel.unverified = false :=
  ⟨{ up with reel.noFrame := 16 }, by decide⟩

theorem witness_ReelEventsComplete_9 : ∃ (s : State),
    s.tray.st = .reel ∧
    (s.reel.st = .absent ∨ s.reel.st = .acquiring) ∧
    s.reel.waitFrom + 131072 ≤ s.reel.bounds :=
  ⟨{ up with tray.st := .reel, reel.st := .absent, reel.bounds := 131072 }, by decide⟩

theorem witness_ReelEventsComplete_10 : ∃ (s : State),
    aonUp s = true ∧
    s.reel.turn = 2 ^ 48 - 1 ∧
    s.reel.tick = 4095 ∧
    s.reel.step = none ∧
    s.ledger.stepBy = none :=
  ⟨{ up with reel.turn := 2 ^ 48 - 1, reel.tick := 4095 }, by decide⟩

theorem witness_ReelMarkersAndFramesComplete_1 : ∃ (pll : _) (c : _) (s : State),
    coreUp s = true ∧
    s.reel.st = .acquiring ∧
    acquired pll s.reel = some c :=
  ⟨true, 8, { up with reel := { st := .acquiring, sinceMarker := some 4096, frameNow := some 8, framePrev := some 7 } }, by decide⟩

theorem witness_ReelMarkersAndFramesComplete_2 : ∃ (pll : _) (s : State),
    coreUp s = true ∧
    s.reel.st = .acquiring ∧
    acquired pll s.reel = none :=
  ⟨true, { up with reel.st := .acquiring }, by decide⟩

theorem witness_ReelMarkersAndFramesComplete_3 : ∃ (pll : _) (c : _) (s : State),
    coreUp s = true ∧
    (s.reel.st = .holdover ∨ s.reel.st = .free) ∧
    acquired pll s.reel = some c :=
  ⟨true, 8, { up with reel := { st := .free, sinceMarker := some 4096, frameNow := some 8, framePrev := some 7 } }, by decide⟩

theorem witness_ReelMarkersAndFramesComplete_4 : ∃ (d : _) (s : State),
    coreUp s = true ∧
    s.reel.st = .locked ∧
    s.reel.step = some d :=
  ⟨⟨1, 7, 8⟩, { up with reel.step := some ⟨1, 7, 8⟩ }, by decide⟩

theorem witness_ReelMarkersAndFramesComplete_5 : ∃ (s : State),
    coreUp s = true ∧
    s.reel.st = .locked ∧
    s.reel.step = none :=
  ⟨up, by decide⟩

theorem witness_ReelMarkersAndFramesComplete_6 : ∃ (bits : _) (s : State),
    frameDue s = true ∧
    reelValid bits = false :=
  ⟨0, { up with reel.tick := 576 }, by decide +kernel⟩

theorem witness_ReelMarkersAndFramesComplete_7 : ∃ (bits : _) (s : State),
    let c := fld (reelWord bits 0) 15 0 * 2 ^ 32 + reelWord bits 1
    frameDue s = true ∧
    reelValid bits = true ∧
    c = (s.reel.turn + 1) % 2 ^ 48 :=
  ⟨nextFrame, { up with reel.tick := 576 }, by decide +kernel⟩

theorem witness_MailboxEventsComplete_1 : ∃ (s : State),
    barUp s = true :=
  ⟨up, by decide⟩

theorem witness_MailboxEventsComplete_2 : ∃ (n : _) (s : State),
    barUp s = true ∧
    n < 32 :=
  ⟨31, up, by decide⟩

theorem witness_MailboxEventsComplete_3 : ∃ (ifc : _) (f : _) (s : State),
    let n := fld f.w4.toNat 31 27
    coreUp s = true ∧
    s.tray.restart ≠ .warming ∧
    (link s (ifcUnit ifc)).rxq.find? (fun f => f.cls == 0 && ctypeOf f == 2) = some f ∧
    remoteCase n .fabric f.src (ctagOf f) f.payload s = .accept :=
  ⟨0, { req with w4 := 0xF0000000 }, { up with links := [(0x8048, { rxq := [{ req with w4 := 0xF0000000 }] })] }, by decide⟩

theorem witness_MailboxEventsComplete_4 : ∃ (ifc : _) (f : _) (r : _) (l : _) (s : State),
    coreUp s = true ∧
    s.tray.restart ≠ .warming ∧
    (link s (ifcUnit ifc)).rxq.find? (fun f => f.cls == 0 && ctypeOf f == 3) = some f ∧
    (s.mail.calls.find? fun r => r.viaCrier == false && r.tray == trayOfEid f.src && r.tag == ctagOf f) = some r ∧
    longOf s r.mb = some l ∧
    fld f.w4.toNat 26 24 = 0 :=
  ⟨0, { src := 0xC07, w3 := 0x00030005, w4 := 0 }, ⟨2, false, 7, 5⟩, ⟨2, 4, 0, 8000000, 1⟩, { { up with links := [(0x8048, { rxq := [{ src := 0xC07, w3 := 0x00030005, w4 := 0 }] })] } with mail.long := [⟨2, 4, 0, 8000000, 1⟩], mail.calls := [⟨2, false, 7, 5⟩] }, by decide⟩

theorem witness_EventRingCommandsComplete_1 : ∃ (v : W32) (s : State),
    coreUp s = true ∧
    s.ev.enable = false ∧
    6 ≤ fld v.toNat 20 16 ∧
    fld v.toNat 20 16 ≤ 16 ∧
    fld s.ev.baseLo.toNat 11 0 = 0 :=
  ⟨0x60000, up, by decide⟩

theorem witness_EventRingCommandsComplete_2 : ∃ (v : W32) (s : State),
    coreUp s = true ∧
    fld v.toNat 20 16 = s.ev.sizeLog :=
  ⟨0xA0000, up, by decide⟩

theorem witness_EventRingCommandsComplete_3 : ∃ (s : State),
    coreUp s = true :=
  ⟨up, by decide⟩

theorem witness_EventRingCommandsComplete_4 : ∃ (s : State),
    0 < s.ev.modTurns ∧
    0 < s.ev.unsignalled ∧
    s.ev.oldestAt + s.ev.modTurns ≤ s.reel.bounds :=
  ⟨{ up with ev.modTurns := 1, ev.unsignalled := 1 }, by decide⟩

theorem witness_RegisterCommandsComplete_1 : ∃ (s : State),
    coreUp s = true :=
  ⟨up, by decide⟩

theorem witness_RegisterCommandsComplete_2 : ∃ (off : _) (s : State),
    barUp s = true ∧
    latchLow off = true :=
  ⟨0x4008, up, by decide⟩

theorem witness_RegisterCommandsComplete_3 : ∃ (off : Nat) (v : Nat) (s : State),
    barUp s = true ∧
    off < 0x10000 ∧
    off % 4 = 0 ∧
    v < 2 ^ 32 :=
  ⟨0xFFFC, 0xFFFFFFFF, up, by decide⟩

theorem witness_RegisterCommandsComplete_4 : ∃ (off : _) (data : List Byte) (s : State),
    barUp s = true ∧
    s.tray.recovery = false ∧
    0x10000 ≤ off ∧
    off + data.length ≤ 0x30000 ∧
    data ≠ [] :=
  ⟨0x2FFFF, [1], up, by decide⟩

end Sys2Proof.Tests
end

section
/-! Tray and domain (01_tray_and_domain.md): the tray number, and what DOMAIN_ROLE_GET reports. -/

namespace Sys2Proof.Machine

open Sys2Proof

/-! ### The end of a step keeps the tray number -/

@[simp] theorem msix_number (v : Nat) (s : State) : (msix v s).tray.number = s.tray.number := by
  unfold msix
  split
  · split <;> rfl
  · rfl

@[simp] theorem loseEvent_number (s : State) : (loseEvent s).tray.number = s.tray.number := by
  unfold loseEvent
  simp only [count_tray, stick_tray, modEv_tray]

@[simp] theorem ringWrite_number (r : EvRec) (s : State) : (ringWrite r s).tray.number = s.tray.number := by
  unfold ringWrite
  dsimp only
  split
  · simp only [msix_number, count_tray]
  · simp only [count_tray]

@[simp] theorem placeEvent_number (r : Raised) (s : State) : (placeEvent r s).tray.number = s.tray.number := by
  unfold placeEvent
  dsimp only
  split
  · simp only [count_tray, modEv_tray]
  · split
    · split <;> simp only [loseEvent_number, count_tray, modEv_tray]
    · split
      · simp only [ringWrite_number, count_tray, modEv_tray]
      · split <;> simp only [loseEvent_number, count_tray, modEv_tray]

@[simp] theorem flushEvents_number (s : State) : (flushEvents s).tray.number = s.tray.number := by
  unfold flushEvents
  suffices h : ∀ (l : List Raised) (t : State),
      (l.foldl (fun s r => placeEvent r s) t).tray.number = t.tray.number from h _ _
  intro l
  induction l with
  | nil => intro t; rfl
  | cons r l ih => intro t; rw [List.foldl_cons, ih, placeEvent_number]

/-- Whatever a step's effect `t` does to the tray, the number stands as it was before the step (R39). -/
@[simp] theorem finish_number (s t : State) : (finish s t).tray.number = s.tray.number :=
  flushEvents_number _

/-! ### What every command answers -/

/-- Every command but AON power-up answers the end of a step: its own effect never reaches the queue or the tray
number, which `finish` takes from the state before. -/
theorem exec_eq_next_finish (i : Instr) (s : State) (h : ∀ straps found jtag, i ≠ .aonPowerUp straps found jtag) :
    ∃ t, exec i s = .next (finish s t) := by
  cases i with
  | aonPowerUp straps found jtag => exact absurd rfl (h straps found jtag)
  | _ => exact ⟨_, rfl⟩

/-- AON power-up answers the end of a step too, and where AON power comes up the straps' number is set on it. -/
theorem exec_aonPowerUp (straps : Nat) (found : Contacts) (jtag : Bool) (s : State) :
    exec (.aonPowerUp straps found jtag) s =
      if aonFresh s then
        .next { finish s (powerUp found jtag s) with
          tray := { (finish s (powerUp found jtag s)).tray with number := straps % 256 } }
      else .next (finish s s) := rfl

/-- Settles O5: every command ends in `finish`, which restores the queue and the tray number; AON power-up alone sets
the number after it, on the condition `aonFresh`. That every command answers a next state and leaves the queue is the
model's interface (log entry 1), and `aonFresh` is the condition of log entry 17. -/
theorem trayNumberIsReadAtPowerUp : Obligations.TrayNumberIsReadAtPowerUp := by
  intro i s
  by_cases hi : ∃ straps found jtag, i = .aonPowerUp straps found jtag
  · obtain ⟨straps, found, jtag, rfl⟩ := hi
    rw [exec_aonPowerUp]
    by_cases hf : aonFresh s = true
    · refine ⟨_, if_pos hf, finish_pending _ _, fun h => absurd rfl (h straps found jtag), ?_⟩
      rintro _ _ _ ⟨⟩
      rw [if_pos hf]
    · refine ⟨_, if_neg hf, finish_pending _ _, fun h => absurd rfl (h straps found jtag), ?_⟩
      rintro _ _ _ ⟨⟩
      rw [if_neg hf, finish_number]
  · have hne : ∀ straps found jtag, i ≠ .aonPowerUp straps found jtag := fun a b c h => hi ⟨a, b, c, h⟩
    obtain ⟨t, ht⟩ := exec_eq_next_finish i s hne
    exact ⟨_, ht, finish_pending s t, fun _ => finish_number s t, fun a b c h => absurd h (hne a b c)⟩

/-! ### DOMAIN_ROLE_GET (R57) -/

theorem lenIs_of_eq {c : Cmd} {n : Nat} (h : c.len = n) (v : Verdict) : lenIs c n v = v := if_pos h

theorem lenIs_of_ne {c : Cmd} {n : Nat} (h : c.len ≠ n) (v : Verdict) :
    lenIs c n v = .refuse stBadArg 0xFFF [] := if_neg h

/-- Without an argument block the words of the role are reported, and nothing changes. -/
theorem domainRoleGet_completes {mb : Nat} {s : State} (h : Ready 0x0801 mb [] s) :
    Completes (.domainRoleGet mb 0) mb s stOk true (leWords (roleWords s)) s :=
  completes_done' (body := domainRoleGetBody) rfl h rfl (lenIs_of_eq (len_ready h) _) rfl rfl rfl

/-- An argument block of any other length is refused (R603). -/
theorem domainRoleGet_completes_badArg {mb : Nat} {args : List Nat} {s : State} (h : Ready 0x0801 mb args s)
    (ha : args ≠ []) : Completes (.domainRoleGet mb 0) mb s stBadArg true [] s := by
  have hlen : (cmdOf 0x0801 mb 0 s).len ≠ 0 := by
    have := List.length_pos_iff.2 ha
    rw [len_ready h]
    omega
  exact completes_refuse (body := domainRoleGetBody) rfl h (lenIs_of_ne hlen _)

theorem roleWords_of_none {s : State} (h : s.tray.role = none) : roleWords s = [0, 0] := by
  unfold roleWords
  rw [h]

theorem roleWords_of_some {s : State} {r : Role} (h : s.tray.role = some r) :
    roleWords s = [2 ^ 31 + put 13 8 r.position + put 5 4 r.group + put 3 2 r.gcount + put 1 0 r.role,
      put 27 20 r.traysM1 + put 19 12 r.pods + put 11 0 r.endpoints] := by
  unfold roleWords
  rw [h]
  rfl

/-- Settles O7: the command reports `roleWords`, which are the accepted role's fields or two zero words, and refuses
an argument block by its length (R603). -/
theorem roleGetReportsTheRole : Obligations.RoleGetReportsTheRole := by
  refine ⟨fun mb s h hr => ?_, fun mb r s h hr => ?_, fun mb args s h ha => domainRoleGet_completes_badArg h ha⟩
  · have hz : leWords (roleWords s) = zeros 8 := by rw [roleWords_of_none hr]; rfl
    exact hz ▸ domainRoleGet_completes h
  · exact roleWords_of_some hr ▸ domainRoleGet_completes h

end Sys2Proof.Machine
end

section
/-! Power ledger (11_power_ledger.md): new settings wait for tick 0, whatever the clock's other work does (R465). -/

namespace Sys2Proof.Machine

open Sys2Proof

/-! ### Parts of a state outside its records and mailboxes -/

theorem power_of_arch {s t : State} (h : s.arch = t.arch) : s.power = t.power :=
  show s.arch.power = t.arch.power from congrArg State.power h

theorem reel_of_arch {s t : State} (h : s.arch = t.arch) : s.reel = t.reel :=
  show s.arch.reel = t.arch.reel from congrArg State.reel h

/-! ### POWER_CONFIG_SET (R465, R470) -/

/-- The settings that the four argument words of POWER_CONFIG_SET spell. -/
def powerCfgArg (w0 w1 w2 w3 : Nat) : PowerCfg :=
  { cap := fld w0 12 0, bank := fld w1 28 16, debt := fld w1 10 0
    recover := fld w2 15 0, imbalance := fld w3 23 16, migrate := fld w3 15 0 }

/-- The ranges outside which POWER_CONFIG_SET is refused (R470). -/
def PowerCfgInRange (n : PowerCfg) (s : State) : Prop :=
  1000 ≤ n.cap ∧ (n.cap : Int) ≤ calEffective s 0x2B ∧ n.bank ≤ 4096 ∧ n.debt ≤ 1024 ∧ 16 ≤ n.recover ∧
    10 ≤ n.imbalance ∧ n.imbalance ≤ 100

/-- The tray with settings stored: cap, BANK and DEBT wait, the balance is clamped to their bounds, and the other three
are in effect. -/
def storePowerCfg (n : PowerCfg) (s : State) : State :=
  modPower (fun p => { p with
    balance := clampBalance (modPower (fun p => { p with cfg := n }) s) p.balance
    cfg := { p.cfg with recover := n.recover, imbalance := n.imbalance, migrate := n.migrate }, cfgNext := some n }) s

/-- The bounds of R445, with a cap, a BANK and a DEBT written out. -/
theorem clampBalance_of_cfg (n : PowerCfg) (s : State) (b : Int) :
    clampBalance (modPower (fun p => { p with cfg := n }) s) b =
      max (-(2 * (n.debt : Int) * (n.cap * 8192))) (min b ((n.bank : Int) * (n.cap * 8192))) := by
  simp [clampBalance, clampI, balanceFloor, balanceBank, turnCredit]

/-- Words in range that are not READ_ONLY are stored, and what is in effect then is reported. -/
theorem powerConfigSetBody_stores {c : Cmd} {s : State} {n : PowerCfg} (hlen : c.len = 16)
    (hset : bit (argW c 0) 31 = false) (hn : n = powerCfgArg (argW c 0) (argW c 1) (argW c 2) (argW c 3))
    (hr : PowerCfgInRange n s) :
    powerConfigSetBody c s =
      .done stOk (leWords (powerCfgWords (storePowerCfg n s).power.cfg)) (storePowerCfg n s) := by
  subst hn
  obtain ⟨hcap, hcap', hbank, hdebt, hrec, himb, himb'⟩ := hr
  simp only [powerCfgArg] at hcap hcap' hbank hdebt hrec himb himb'
  unfold powerConfigSetBody
  rw [lenIs_of_eq hlen, if_neg (by simp [hset])]
  simp only [argChecks, Nat.not_lt.2 hcap, Int.not_lt.2 hcap', Nat.not_lt.2 hbank, Nat.not_lt.2 hdebt,
    Nat.not_lt.2 hrec, Nat.not_lt.2 himb, Nat.not_lt.2 himb', decide_false, Bool.or_false, Bool.false_eq_true, if_false]
  rfl

/-- POWER_CONFIG_SET in range completes with the settings stored. -/
theorem powerConfigSet_completes {mb w0 w1 w2 w3 : Nat} {s : State} (h : Ready 0x0700 mb [w0, w1, w2, w3] s)
    (hset : bit w0 31 = false) (hr : PowerCfgInRange (powerCfgArg w0 w1 w2 w3) s) :
    Completes (.powerConfigSet mb 0) mb s stOk false
      (leWords (powerCfgWords (storePowerCfg (powerCfgArg w0 w1 w2 w3) s).power.cfg))
      (storePowerCfg (powerCfgArg w0 w1 w2 w3) s) := by
  have a0 : argW (cmdOf 0x0700 mb 0 s) 0 = w0 := argW_ready h 0 (by simp)
  have a1 : argW (cmdOf 0x0700 mb 0 s) 1 = w1 := argW_ready h 1 (by simp)
  have a2 : argW (cmdOf 0x0700 mb 0 s) 2 = w2 := argW_ready h 2 (by simp)
  have a3 : argW (cmdOf 0x0700 mb 0 s) 3 = w3 := argW_ready h 3 (by simp)
  have hbody := powerConfigSetBody_stores (s := popOrder s) (n := powerCfgArg w0 w1 w2 w3) (len_ready h)
    (by rw [a0]; exact hset) (by rw [a0, a1, a2, a3]) hr
  exact completes_done' (body := powerConfigSetBody) rfl h (by rw [a0]; exact hset) hbody rfl rfl rfl

/-! ### What the clock's own work leaves alone -/

/-- The receiver's time and the power ledger: what the transmitters, the lanes' adaptation and Crier never change. -/
def State.reelPower (s : State) : Reel × Power := (s.reel, s.power)

/-- What each turn of a repeated operation keeps, the repetition keeps. -/
theorem forAll_keeps {α β : Type} (g : State → β) (l : List α) (f : α → State → State) (s : State)
    (h : ∀ a t, g (f a t) = g t) : g (forAll l f s) = g s := by
  unfold forAll
  induction l generalizing s with
  | nil => rfl
  | cons a l ih => rw [List.foldl_cons, ih, h]

/-- What an operation keeps, it keeps under a guard. -/
theorem onlyIf_keeps {β : Type} (g : State → β) (c : Bool) (f : State → State) (s : State) (h : ∀ t, g (f t) = g t) :
    g (onlyIf c f s) = g s := by
  unfold onlyIf
  split
  · exact h s
  · rfl

@[simp] theorem emit_reelPower (o : Out) (s : State) : (emit o s).reelPower = s.reelPower := rfl
@[simp] theorem countWin_reelPower (k n : Nat) (s : State) : (countWin k n s).reelPower = s.reelPower := rfl
@[simp] theorem modPort_reelPower (u : Nat) (f : Port → Port) (s : State) : (modPort u f s).reelPower = s.reelPower := rfl
@[simp] theorem modLink_reelPower (u : Nat) (f : Link → Link) (s : State) : (modLink u f s).reelPower = s.reelPower := rfl
@[simp] theorem modCrier_reelPower (f : Crier → Crier) (s : State) : (modCrier f s).reelPower = s.reelPower := rfl

@[simp] theorem sendLanes_reelPower (u : Nat) (lanes : List Nat) (f : Nat → Lane → List Int × Lane) (s : State) :
    (sendLanes u lanes f s).reelPower = s.reelPower :=
  forAll_keeps State.reelPower lanes _ s fun _ _ => rfl

@[simp] theorem sendBlock_reelPower (u phase : Nat) (s : State) : (sendBlock u phase s).reelPower = s.reelPower := by
  unfold sendBlock
  rw [sendLanes_reelPower, emit_reelPower]

@[simp] theorem sendPatterns_reelPower (u : Nat) (s : State) : (sendPatterns u s).reelPower = s.reelPower :=
  sendLanes_reelPower _ _ _ s

@[simp] theorem sendPair_reelPower (u : Nat) (idleNext : Bool) (s : State) :
    (sendPair u idleNext s).reelPower = s.reelPower := by
  unfold sendPair
  dsimp only
  rw [sendLanes_reelPower, emit_reelPower, onlyIf_keeps State.reelPower _ _ _ (countWin_reelPower _ _),
    modLink_reelPower, modPort_reelPower]

@[simp] theorem sendNext_reelPower (u : Nat) (s : State) : (sendNext u s).reelPower = s.reelPower := by
  unfold sendNext
  dsimp only
  split
  · simp
  · split
    · simp
    · split <;> simp

@[simp] theorem idleExit_reelPower (u : Nat) (s : State) : (idleExit u s).reelPower = s.reelPower :=
  forAll_keeps State.reelPower _ _ _ fun _ _ => rfl

@[simp] theorem sendTick_reelPower (u : Nat) (s : State) : (sendTick u s).reelPower = s.reelPower := by
  unfold sendTick
  dsimp only
  split
  · split <;> simp
  · split
    · simp
    · split <;> simp

@[simp] theorem egressEnds_reelPower (s : State) : (egressEnds s).reelPower = s.reelPower := by
  obtain ⟨w, hw⟩ := egressEnds_eq s
  rw [hw]
  rfl

@[simp] theorem crierMode_reelPower (s : State) : (crierMode s).reelPower = s.reelPower := by
  unfold crierMode
  split
  · rfl
  · split
    · rfl
    · split <;> rfl

@[simp] theorem backoffWait_reelPower (s : State) : (backoffWait s).reelPower = s.reelPower := by
  unfold backoffWait
  split
  · exact (modCrier_reelPower _ _).trans (modCrier_reelPower _ s)
  · rfl

@[simp] theorem adaptLane_reelPower (u k : Nat) (s : State) : (adaptLane u k s).reelPower = s.reelPower := by
  unfold adaptLane
  dsimp only
  split <;> rfl

@[simp] theorem adaptTurn_reelPower (u : Nat) (s : State) : (adaptTurn u s).reelPower = s.reelPower := by
  unfold adaptTurn
  split
  · split
    · exact forAll_keeps State.reelPower _ _ _ fun k t => adaptLane_reelPower u k t
    · rfl
  · rfl

@[simp] theorem adaptTurns_reelPower (s : State) : (adaptTurns s).reelPower = s.reelPower :=
  forAll_keeps State.reelPower _ _ s adaptTurn_reelPower

/-! ### One tick -/

/-- A tick's work moves the local clock and the marker's age, and leaves the rest of time and the power ledger alone. -/
theorem tickWork_reelPower (s : State) : (tickWork s).reelPower =
    ({ s.reel with clock := s.reel.clock + 1, sinceMarker := s.reel.sinceMarker.map (· + 1) }, s.power) := by
  unfold tickWork
  dsimp only
  rw [backoffWait_reelPower, crierMode_reelPower, forAll_keeps State.reelPower _ _ _ sendTick_reelPower,
    egressEnds_reelPower]
  rfl

theorem tickWork_power (s : State) : (tickWork s).power = s.power := congrArg Prod.snd (tickWork_reelPower s)

theorem tickWork_reel (s : State) : (tickWork s).reel =
    { s.reel with clock := s.reel.clock + 1, sinceMarker := s.reel.sinceMarker.map (· + 1) } :=
  congrArg Prod.fst (tickWork_reelPower s)

@[simp] theorem benchSend_power (s : State) : (benchSend s).power = s.power := by
  unfold benchSend
  split <;> rfl

/-- Within a turn a tick changes nothing of the power ledger. -/
theorem tick_power_of_lt {s : State} (hup : aonUp s = true) (ht : s.reel.tick < 4095) : (tick s).power = s.power := by
  have ht' : (tickWork s).reel.tick < 4095 := by rw [tickWork_reel]; exact ht
  unfold tick
  rw [if_pos hup]
  dsimp only
  rw [if_pos ht', benchSend_power, modReel_power, tickWork_power]

/-- At tick 4,095 without a decided step a tick begins the next turn. -/
theorem tick_eq_turnBoundary {s : State} (hup : aonUp s = true) (ht : s.reel.tick = 4095) (hd : s.reel.step = none) :
    tick s = turnBoundary (nextTurn (tickWork s)) (tickWork s) := by
  have ht' : ¬ (tickWork s).reel.tick < 4095 := by rw [tickWork_reel]; simp [ht]
  have hd' : (tickWork s).reel.step = none := by rw [tickWork_reel]; exact hd
  unfold tick
  rw [if_pos hup]
  dsimp only
  rw [if_neg ht', hd']

/-! ### The turn boundary -/

/-- The power ledger as tick 0 leaves it where settings waited: they are in effect, and so are the overlays that
waited. -/
def boundaryPower (n : PowerCfg) (p : Power) : Power :=
  { p with
    cfg := n, cfgNext := none
    overlays := p.overlaysNext.foldl (fun t e => tabSet 0 t e.1 e.2) p.overlays, overlaysNext := [] }

@[simp] theorem powerBoundary_reel (s : State) : (powerBoundary s).reel = s.reel := by
  unfold powerBoundary
  split <;> rfl

theorem powerBoundary_power {s : State} {p : Power} {n : PowerCfg} (hp : s.power = p) (hn : p.cfgNext = some n) :
    (powerBoundary s).power = boundaryPower n p := by
  subst hp
  unfold powerBoundary
  rw [hn]
  rfl

@[simp] theorem countMove_power (expected new : Nat) (s : State) : (countMove expected new s).power = s.power := by
  unfold countMove
  split <;> rfl

@[simp] theorem benchMarker_power (s : State) : (benchMarker s).power = s.power := by
  unfold benchMarker
  split <;> rfl

@[simp] theorem benchMarker_tick (s : State) : (benchMarker s).reel.tick = s.reel.tick := by
  unfold benchMarker
  split <;> rfl

theorem crierMode_power (s : State) : (crierMode s).power = s.power := congrArg Prod.snd (crierMode_reelPower s)
theorem crierMode_reel (s : State) : (crierMode s).reel = s.reel := congrArg Prod.fst (crierMode_reelPower s)
theorem adaptTurns_power (s : State) : (adaptTurns s).power = s.power := congrArg Prod.snd (adaptTurns_reelPower s)
theorem adaptTurns_reel (s : State) : (adaptTurns s).reel = s.reel := congrArg Prod.fst (adaptTurns_reelPower s)

/-- At a turn boundary the settings that wait take effect, and nothing else touches the power ledger but the overlays
that waited. -/
theorem turnBoundary_power {s : State} {n : PowerCfg} (new : Nat) (hn : s.power.cfgNext = some n) :
    (turnBoundary new s).power = boundaryPower n s.power := by
  unfold turnBoundary
  dsimp only
  rw [adaptTurns_power, benchMarker_power, crierMode_power]
  refine powerBoundary_power ?_ hn
  rw [onlyIf_keeps State.power _ _ _ (raise_power _ _), modLedger_power, modCtr_power, modReel_power, countMove_power]

/-- A turn begins at its tick 0 (R63). -/
theorem turnBoundary_tick (new : Nat) (s : State) : (turnBoundary new s).reel.tick = 0 := by
  unfold turnBoundary
  dsimp only
  rw [adaptTurns_reel, benchMarker_tick, crierMode_reel, powerBoundary_reel,
    onlyIf_keeps State.reel _ _ _ (raise_reel _ _), modLedger_reel, modCtr_reel, modReel_reel]

/-! ### The step of an empty queue -/

theorem finish_power (s t : State) : (finish s t).power = t.power := power_of_arch (finish_arch s t)
theorem finish_reel (s t : State) : (finish s t).reel = t.reel := reel_of_arch (finish_arch s t)

/-- With nothing waiting a step is one tick and its end. -/
theorem step_of_pending_nil {s : State} (h : s.pending = []) : step s = .next (finish s (tick s)) := by
  unfold step
  rw [h]
  rfl

/-- Settles O8: POWER_CONFIG_SET leaves `storePowerCfg`, in which cap, BANK and DEBT only wait; a tick within a turn
leaves the power ledger alone; and the tick that begins a turn puts what waits in effect by `boundaryPower`, which
keeps the grants and the balance. -/
theorem powerSettingsTakeEffectAtTickZero : Obligations.PowerSettingsTakeEffectAtTickZero := by
  refine ⟨?stored, ?waits, ?inEffect⟩
  case stored =>
    intro mb w0 w1 w2 w3 s h hset hcap hcap' hbank hdebt hrec himb himb'
    obtain ⟨u, hu, harch, -⟩ := powerConfigSet_completes h hset ⟨hcap, hcap', hbank, hdebt, hrec, himb, himb'⟩
    have hpower : u.power = (storePowerCfg (powerCfgArg w0 w1 w2 w3) s).power := power_of_arch harch
    refine ⟨u, hu, ?_⟩
    rw [hpower]
    exact ⟨rfl, rfl, rfl, clampBalance_of_cfg (powerCfgArg w0 w1 w2 w3) s s.power.balance⟩
  case waits =>
    intro n s hq hup ht _
    exact ⟨_, step_of_pending_nil hq, by rw [finish_power, tick_power_of_lt hup ht]⟩
  case inEffect =>
    intro n s hq hup ht hd hn
    have hpower : (tick s).power = boundaryPower n s.power := by
      have hn' : (tickWork s).power.cfgNext = some n := by rw [tickWork_power]; exact hn
      rw [tick_eq_turnBoundary hup ht hd, turnBoundary_power _ hn', tickWork_power]
    have htick : (tick s).reel.tick = 0 := by rw [tick_eq_turnBoundary hup ht hd, turnBoundary_tick]
    refine ⟨_, step_of_pending_nil hq, ?_⟩
    rw [finish_power, finish_reel, hpower, htick]
    exact ⟨rfl, rfl, rfl, rfl, rfl⟩

end Sys2Proof.Machine
end

section
/-! Registers, counters and events (16_registers_counters_events.md): the counter window's frozen copy (R635), masked
events (R641), and the event ring's registers (R645, R647). -/

namespace Sys2Proof.Machine

open Sys2Proof

/-! ### One bit of a register word -/

theorem bit_toNat (w : W32) (n : Nat) : bit w.toNat n = w.getLsbD n := by
  have hone : n + 1 - n = 1 := by omega
  rw [BitVec.getLsbD, Nat.testBit_eq_decide_div_mod_eq]
  simp only [bit, fld, hone, pow_one]
  rfl

/-! ### Placing one event (R640, R641, R643) -/

/-- An event is counted and takes its SEQ value. -/
def takeSeq (s : State) : State :=
  modEv (fun e => { e with nextSeq := (e.nextSeq + 1) % 2 ^ 32 }) (count (eventCtr 0) 1 s)

/-- Where a numbered record goes: to AON, to the ring, to the backlog, or nowhere. -/
def storeRecord (rec' : EvRec) (s : State) : State :=
  if !coreUp s && !s.tray.recovery then
    if s.ev.held.length < 16 then modEv (fun e => { e with held := e.held ++ [rec'], lostRun := 0 }) s
    else loseEvent s
  else if ringOpen s && s.ev.backlog.isEmpty then
    ringWrite rec' (modEv (fun e => { e with lostRun := 0 }) s)
  else if s.ev.backlog.length < 1024 then
    modEv (fun e => { e with backlog := e.backlog ++ [rec'], lostRun := 0 }) s
  else loseEvent s

theorem placeEvent_of_enabled {r : Raised} {s : State} (h : s.ev.rangeEn.getLsbD (r.code / 256) = true) :
    placeEvent r s = storeRecord (evRecord s r) (takeSeq s) :=
  if_neg fun hmasked => by
    rw [count_ev, ← BitVec.getLsbD, h] at hmasked
    cases hmasked

theorem placeEvent_of_disabled {r : Raised} {s : State} (h : s.ev.rangeEn.getLsbD (r.code / 256) = false) :
    placeEvent r s =
      count (eventCtr 2) 1 (modEv (fun e => { e with masked := sat 32 (e.masked + 1) }) (count (eventCtr 0) 1 s)) :=
  if_pos (by rw [count_ev, ← BitVec.getLsbD, h]; rfl)

/-! ### The end of a step and the counter window -/

/-- The counter window without the live counters: what is selected, the frozen copy and the shadow. -/
def State.window (s : State) : Counters := { s.ctr with live := [] }

@[simp] theorem modEv_window (f : Events → Events) (s : State) : (modEv f s).window = s.window := rfl
@[simp] theorem stick_window (n : Nat) (s : State) : (stick n s).window = s.window := rfl
@[simp] theorem count_window (key n : Nat) (s : State) : (count key n s).window = s.window := rfl

@[simp] theorem msix_window (v : Nat) (s : State) : (msix v s).window = s.window := by
  unfold msix
  split
  · split <;> rfl
  · rfl

@[simp] theorem loseEvent_window (s : State) : (loseEvent s).window = s.window := by
  unfold loseEvent
  rw [count_window, stick_window, modEv_window]

@[simp] theorem ringWrite_window (r : EvRec) (s : State) : (ringWrite r s).window = s.window := by
  unfold ringWrite
  dsimp only
  split
  · rw [msix_window, count_window]; rfl
  · rw [count_window]; rfl

@[simp] theorem storeRecord_window (rec' : EvRec) (s : State) : (storeRecord rec' s).window = s.window := by
  unfold storeRecord
  split
  · split <;> simp
  · split
    · simp
    · split <;> simp

@[simp] theorem placeEvent_window (r : Raised) (s : State) : (placeEvent r s).window = s.window := by
  cases h : s.ev.rangeEn.getLsbD (r.code / 256) with
  | false => rw [placeEvent_of_disabled h, count_window, modEv_window, count_window]
  | true => rw [placeEvent_of_enabled h, storeRecord_window]; rfl

@[simp] theorem flushEvents_window (s : State) : (flushEvents s).window = s.window :=
  forAll_keeps State.window (sortBy evLe s.ev.batch) placeEvent (modEv (fun e => { e with batch := [] }) s)
    placeEvent_window

/-- Placing the events of a step touches no more of the counter window than the live counters. -/
theorem finish_window (s t : State) : (finish s t).window = t.window := flushEvents_window _

theorem snap_of_window {s t : State} (h : s.window = t.window) : s.ctr.snap = t.ctr.snap :=
  show s.window.snap = t.window.snap from congrArg Counters.snap h

theorem select_of_window {s t : State} (h : s.window = t.window) : s.ctr.select = t.ctr.select :=
  show s.window.select = t.window.select from congrArg Counters.select h

theorem frozen_of_window {s t : State} (h : s.window = t.window) : s.ctr.frozen = t.ctr.frozen :=
  show s.window.frozen = t.window.frozen from congrArg Counters.frozen h

theorem snapTurn_of_window {s t : State} (h : s.window = t.window) : s.ctr.snapTurn = t.ctr.snapTurn :=
  show s.window.snapTurn = t.window.snapTurn from congrArg Counters.snapTurn h

theorem snapTick_of_window {s t : State} (h : s.window = t.window) : s.ctr.snapTick = t.ctr.snapTick :=
  show s.window.snapTick = t.window.snapTick from congrArg Counters.snapTick h

/-! ### What the window shows (R635) -/

theorem windowCounter_of_snap {s : State} (h : s.ctr.snap = true) (k : Nat) :
    windowCounter s k = s.ctr.frozen.getD k 0 := if_pos h

theorem windowCounter_of_not_snap {s : State} (h : s.ctr.snap = false) (k : Nat) :
    windowCounter s k = liveCounter s s.ctr.select.toNat k := by
  unfold windowCounter
  rw [h]
  rfl

/-- A window without a frozen copy, as SNAP = 0 leaves it. -/
def cwThaw (s : State) : State := modCtr (fun c => { c with snap := false, frozen := [] }) s

/-- A write to 0x4004 by its bits: SNAP first, then CLEAR. -/
theorem cwControl_toNat (w : W32) (s : State) :
    cwControl w.toNat s = onlyIf (w.getLsbD 30) cwClear (if w.getLsbD 31 then cwFreeze s else cwThaw s) := by
  unfold cwControl
  rw [bit_toNat, bit_toNat]
  rfl

theorem cwFreeze_frozen (s : State) {k : Nat} (hk : k < 64) :
    (cwFreeze s).ctr.frozen.getD k 0 = liveCounter s s.ctr.select.toNat k := by
  simp [cwFreeze, hk]

theorem exec_cwSnap {v : W32} {s : State} (hup : coreUp s = true) (hclear : v.getLsbD 30 = false) :
    exec (.cwSnap v) s = .next (finish s (cwFreeze s)) := by
  have h30 : (v ||| 0x80000000#32).getLsbD 30 = false := by rw [BitVec.getLsbD_or, hclear]; rfl
  have h31 : (v ||| 0x80000000#32).getLsbD 31 = true := by simp
  show act (fun s => onlyIf (coreUp s) (cwControl (v ||| 0x80000000#32).toNat) s) s = _
  simp only [act, hup, cwControl_toNat, h30, h31, onlyIf, if_true, Bool.false_eq_true, if_false]

theorem exec_cwSnapDiscard {v : W32} {s : State} (hup : coreUp s = true) (hclear : v.getLsbD 30 = false) :
    exec (.cwSnapDiscard v) s = .next (finish s (cwThaw s)) := by
  have h30 : (v &&& 0x7FFFFFFF#32).getLsbD 30 = false := by rw [BitVec.getLsbD_and, hclear]; rfl
  have h31 : (v &&& 0x7FFFFFFF#32).getLsbD 31 = false := by simp
  show act (fun s => onlyIf (coreUp s) (cwControl (v &&& 0x7FFFFFFF#32).toNat) s) s = _
  simp only [act, hup, cwControl_toNat, h30, h31, onlyIf, if_true, Bool.false_eq_true, if_false]

theorem exec_cwSelect {v : W32} {s : State} (hup : coreUp s = true) :
    exec (.cwSelect v) s = .next (finish s (cwSelect v s)) := by
  show act (fun s => onlyIf (coreUp s) (cwSelect v) s) s = _
  simp only [act, onlyIf, hup, if_true]

/-- Settles O9: SNAP = 1 leaves `cwFreeze`, whose copy lists the live counters, and neither the events of the step's end
nor a later count reach the copy; SNAP = 0 and CW_SELECT leave a window with no copy, which shows what is live. -/
theorem snapshotFreezesThePage : Obligations.SnapshotFreezesThePage := by
  refine ⟨?freeze, ?discard, ?select⟩
  case freeze =>
    intro v s hup hclear
    have hw := finish_window s (cwFreeze s)
    have hsnap : (finish s (cwFreeze s)).ctr.snap = true := snap_of_window hw
    refine ⟨_, exec_cwSnap hup hclear, hsnap, snapTurn_of_window hw, snapTick_of_window hw, ?_, ?_⟩
    · intro k hk
      rw [windowCounter_of_snap hsnap, frozen_of_window hw, cwFreeze_frozen s hk]
    · intro key n k
      have hcount : (count key n (finish s (cwFreeze s))).ctr.snap = true := hsnap
      exact ⟨by rw [windowCounter_of_snap hcount, windowCounter_of_snap hsnap]; rfl, rfl⟩
  case discard =>
    intro v s hup hclear
    have hsnap : (finish s (cwThaw s)).ctr.snap = false := snap_of_window (finish_window s (cwThaw s))
    exact ⟨_, exec_cwSnapDiscard hup hclear, hsnap, windowCounter_of_not_snap hsnap⟩
  case select =>
    intro v s hup
    have hw := finish_window s (cwSelect v s)
    have hsnap : (finish s (cwSelect v s)).ctr.snap = false := snap_of_window hw
    have hselect : (finish s (cwSelect v s)).ctr.select = v := select_of_window hw
    refine ⟨_, exec_cwSelect hup, hsnap, hselect, fun k => ?_⟩
    rw [windowCounter_of_not_snap hsnap, hselect]

/-! ### Which events are numbered and which are masked (R641) -/

/-- The next SEQ value and EV_MASKED. -/
def State.numbering (s : State) : Nat × Nat := (s.ev.nextSeq, s.ev.masked)

@[simp] theorem count_numbering (key n : Nat) (s : State) : (count key n s).numbering = s.numbering := rfl

@[simp] theorem msix_numbering (v : Nat) (s : State) : (msix v s).numbering = s.numbering := by
  unfold msix
  split
  · split <;> rfl
  · rfl

@[simp] theorem loseEvent_numbering (s : State) : (loseEvent s).numbering = s.numbering := rfl

@[simp] theorem ringWrite_numbering (r : EvRec) (s : State) : (ringWrite r s).numbering = s.numbering := by
  unfold ringWrite
  dsimp only
  split
  · rw [msix_numbering, count_numbering]; rfl
  · rw [count_numbering]; rfl

/-- A record has its number wherever it goes. -/
theorem storeRecord_numbering (rec' : EvRec) (s : State) : (storeRecord rec' s).numbering = s.numbering := by
  unfold storeRecord
  split
  · split
    · rfl
    · rw [loseEvent_numbering]
  · split
    · rw [ringWrite_numbering]; rfl
    · split
      · rfl
      · rw [loseEvent_numbering]

theorem placeEvent_numbering_of_enabled {r : Raised} {s : State} (h : s.ev.rangeEn.getLsbD (r.code / 256) = true) :
    (placeEvent r s).numbering = ((s.ev.nextSeq + 1) % 2 ^ 32, s.ev.masked) := by
  rw [placeEvent_of_enabled h, storeRecord_numbering]
  rfl

theorem placeEvent_ev_of_disabled {r : Raised} {s : State} (h : s.ev.rangeEn.getLsbD (r.code / 256) = false) :
    (placeEvent r s).ev = { s.ev with masked := sat 32 (s.ev.masked + 1) } := by
  rw [placeEvent_of_disabled h, count_ev, modEv_ev, count_ev]

/-- Settles O10: an enabled event moves the next SEQ value and leaves EV_MASKED on each of its four ways, and a
disabled one changes EV_MASKED alone. -/
theorem maskedEventsAreCounted : Obligations.MaskedEventsAreCounted := by
  intro e s _
  refine ⟨fun h => ?_, placeEvent_ev_of_disabled⟩
  exact Prod.ext_iff.mp (placeEvent_numbering_of_enabled h)

/-! ### Events while the ring is disabled (R643) -/

theorem ringOpen_of_not_enable {s : State} (h : s.ev.enable = false) : ringOpen s = false := by
  simp [ringOpen, h]

/-- In CORE and later a record finds the ring closed while ENABLE = 0, and goes to the backlog while that has room. -/
theorem storeRecord_of_not_enable {rec' : EvRec} {s : State} (hup : coreUp s = true) (hoff : s.ev.enable = false)
    (hroom : s.ev.backlog.length < 1024) :
    storeRecord rec' s = modEv (fun e => { e with backlog := e.backlog ++ [rec'], lostRun := 0 }) s := by
  simp [storeRecord, hup, ringOpen_of_not_enable hoff, hroom]

theorem placeEvent_backlog_of_not_enable {r : Raised} {s : State} (hup : coreUp s = true) (hoff : s.ev.enable = false)
    (hen : s.ev.rangeEn.getLsbD (r.code / 256) = true) (hroom : s.ev.backlog.length < 1024) :
    (placeEvent r s).ev.backlog = s.ev.backlog ++ [evRecord s r] := by
  have htake : (takeSeq s).ev.backlog = s.ev.backlog := rfl
  have hstore := storeRecord_of_not_enable (rec' := evRecord s r) (s := takeSeq s) hup hoff hroom
  rw [placeEvent_of_enabled hen, hstore, modEv_ev, htake]

/-! ### Steps that raise no event -/

theorem coreUp_of_arch {s t : State} (h : s.arch = t.arch) : coreUp s = coreUp t :=
  show coreUp s.arch = coreUp t.arch from congrArg coreUp h

theorem flushEvents_ev_of_batch_nil {s : State} (h : s.ev.batch = []) : (flushEvents s).ev = s.ev := by
  unfold flushEvents
  rw [h]
  show { s.ev with batch := [] } = s.ev
  rw [← h]

/-- A step that raises no event leaves the event registers as its meaning has them. -/
theorem finish_ev_of_batch_nil {s t : State} (h : t.ev.batch = []) : (finish s t).ev = t.ev := by
  have hflush : ∀ u : State, u.ev = t.ev → { (flushEvents u).ev with batch := [] } = t.ev := by
    intro u hu
    rw [flushEvents_ev_of_batch_nil (hu ▸ h), hu, ← h]
  exact hflush _ rfl

/-! ### The reset of the PCI Express endpoint (R616, R645) -/

theorem linkResetPcie_arch (perst : Bool) (s : State) : (linkResetPcie perst s).arch = s.arch := by
  unfold linkResetPcie
  dsimp only
  split
  · rw [forAll_keeps State.arch _ _ _ fun n t => modBox_arch n _ t]; rfl
  · rfl

/-- The event registers after the reset: the ring disabled, Bus Master Enable and the MSI-X state as at power-on. -/
def Events.afterLinkReset (e : Events) : Events :=
  { e with
    enable := false, busMaster := false, msixOn := false, vecHush := false, vecMask := 0xFFFFFFFF, vecPend := 0 }

theorem linkResetPcie_ev (perst : Bool) (s : State) : (linkResetPcie perst s).ev = s.ev.afterLinkReset := by
  unfold linkResetPcie
  dsimp only
  split
  · exact forAll_keeps State.ev _ _ _ fun _ _ => rfl
  · rfl

theorem exec_pcieLinkReset {perst : Bool} {s : State} (hup : coreUp s = true) :
    exec (.pcieLinkReset perst) s = .next (finish s (linkResetPcie perst s)) := by
  show act (fun s => onlyIf (coreUp s) (linkResetPcie perst) s) s = _
  simp only [act, onlyIf, hup, if_true]

/-- Settles O11: the reset clears ENABLE and the endpoint's MSI-X state among the event registers, and with ENABLE = 0
the ring is closed, so an event goes to the backlog. -/
theorem linkResetStopsTheRing : Obligations.LinkResetStopsTheRing := by
  intro perst s ⟨_, _, _, hbatch, _⟩ hup
  have hev : (finish s (linkResetPcie perst s)).ev = s.ev.afterLinkReset := by
    rw [finish_ev_of_batch_nil, linkResetPcie_ev]
    rw [linkResetPcie_ev]
    exact hbatch
  have hup' : coreUp (finish s (linkResetPcie perst s)) = true := by
    rw [coreUp_of_arch ((finish_arch _ _).trans (linkResetPcie_arch perst s)), hup]
  have hoff : (finish s (linkResetPcie perst s)).ev.enable = false := by rw [hev]; rfl
  refine ⟨_, exec_pcieLinkReset hup, hoff, ?_, ?_, ?_, ?_, ?_,
    fun e hen hroom => placeEvent_backlog_of_not_enable hup' hoff hen hroom⟩ <;> (rw [hev]; rfl)

/-! ### EV_READ (R647) -/

theorem evReadWrite_of_outOfRange {v : Nat} {s : State}
    (h : ringSize s.ev < (s.ev.write + 2 ^ 32 - v % 2 ^ 32) % 2 ^ 32) :
    evReadWrite v s = cfgError s := if_neg (Nat.not_le.mpr h)

theorem exec_evRead {v : W32} {s : State} (hup : coreUp s = true) :
    exec (.evRead v) s = .next (finish s (evReadWrite v.toNat s)) := by
  show act (fun s => onlyIf (coreUp s) (evReadWrite v.toNat) s) s = _
  simp only [act, onlyIf, hup, if_true]

/-- Settles O12: a value out of range comes to `cfgError` alone, which sets CFG_ERROR and its sticky bit. -/
theorem evReadOutOfRangeIsIgnored : Obligations.EvReadOutOfRangeIsIgnored := by
  intro v s hs hup hrange
  have hmod : v.toNat % 2 ^ 32 = v.toNat := Nat.mod_eq_of_lt v.isLt
  have hexec : exec (.evRead v) s = .next (finish s (cfgError s)) := by
    rw [exec_evRead hup, evReadWrite_of_outOfRange (by rw [hmod]; exact hrange)]
  have hhull : (finish s (cfgError s)).hull = s.hull := finish_hull hs rfl rfl
  obtain ⟨_, _, _, hbatch, _⟩ := hs
  exact ⟨_, hexec, finish_ev_of_batch_nil hbatch, arch_of_hull hhull, hull_mail hhull⟩

end Sys2Proof.Machine
end

section
/-! Every step stays in range: each step ends in `finish`, which cleans up after whatever its effect was. -/

namespace Sys2Proof.Machine

open Sys2Proof

/-- The end of a step on a state in range is in range, whatever the step's effect `t` was. -/
theorem finish_inRange {s : State} (h : InRange s) (t : State) : InRange (finish s t) :=
  ⟨finish_clean h.1, by rw [finish_number]; exact h.2⟩

theorem powerUp_inRange {s : State} (h : InRange s) (straps : Nat) (t : State) :
    InRange { finish s t with tray := { (finish s t).tray with number := straps % 256 } } :=
  ⟨finish_clean h.1, Nat.mod_lt _ (by decide)⟩

/-- A command's answer is in range: AON power-up alone sets the tray number after `finish`, to 8 bits of the straps. -/
theorem exec_inRange {i : Instr} {s t : State} (h : InRange s) (he : exec i s = .next t) : InRange t := by
  by_cases hi : ∃ straps found jtag, i = .aonPowerUp straps found jtag
  · obtain ⟨straps, found, jtag, rfl⟩ := hi
    rw [exec_aonPowerUp] at he
    split at he
    · cases he
      exact powerUp_inRange h straps _
    · cases he
      exact finish_inRange h s
  · obtain ⟨u, hu⟩ := exec_eq_next_finish i s fun a b c e => hi ⟨a, b, c, e⟩
    rw [hu] at he
    cases he
    exact finish_inRange h u

/-- Settles O4: a tick and every command end in `finish`, which commits what was collected and keeps the tray number;
taking a command from the queue changes nothing of what is in range. -/
theorem everyStepStaysInRange : Obligations.EveryStepStaysInRange := by
  intro s t h hstep
  cases hq : s.pending with
  | nil =>
    rw [step_of_pending_nil hq] at hstep
    cases hstep
    exact finish_inRange h (tick s)
  | cons c rest =>
    have hexec : step s = exec c { s with pending := rest } := by rw [step, hq]
    rw [hexec] at hstep
    exact exec_inRange (s := { s with pending := rest }) h hstep

end Sys2Proof.Machine
end

section
/-! UNIT_ADMIT with a guard that fails (06_ordering_ports_readmission.md R259, 15_mailboxes.md R605): the model clears
an ASIC's table mismatches before it judges the guard. -/

namespace Sys2Proof.Machine

open Sys2Proof

/-- A tray in STANDBY that holds ASIC 0 for two table mismatches, with a UNIT_ADMIT of ASIC 0 at its execution point in
mailbox 0 whose guard names generation 1 while CONFIG_GEN is 0. -/
def staleAdmit : State :=
  { tray := { st := .standby }
    power := { on := [0] }
    asics := [(0, { mismatches := 2 })]
    mail :=
      { boxes := [(0, { boxAtReset 0 with st := .queued })]
        order := [0]
        mem := [(3, 0x09), (8, 12), (15, 0x80), (16, 1), (33, 0x40)] } }

/-- Whatever status such a command ends with, it does not leave the tray as it was. -/
theorem staleAdmit_changes (status : Nat) (result : List Byte) :
    ¬ Completes (.unitAdmit 0 0) 0 staleAdmit status true result staleAdmit := by
  rintro ⟨u, hu, harch, -⟩
  have hanswer : exec (.unitAdmit 0 0) staleAdmit =
    .next (finish staleAdmit (writeCommand 0x0900 0 0 unitAdmitBody (retryLoad 0 staleAdmit))) := rfl
  have hasics : (writeCommand 0x0900 0 0 unitAdmitBody (retryLoad 0 staleAdmit)).asics = [] := by decide
  have hkept : u.asics = staleAdmit.asics := show u.arch.asics = staleAdmit.arch.asics from congrArg State.asics harch
  rw [hanswer] at hu
  cases hu
  have hfinish : (finish staleAdmit (writeCommand 0x0900 0 0 unitAdmitBody (retryLoad 0 staleAdmit))).asics = [] :=
    (show _ = _ from congrArg State.asics (finish_arch staleAdmit _)).trans hasics
  rw [hfinish] at hkept
  cases hkept

/-- Refutes O6: UNIT_ADMIT of an ASIC clears its table mismatches (R259) before its guard is judged, so in `staleAdmit`
the command that ends with STALE_EPOCH has changed the ASIC. -/
theorem not_commandsTurnedAwayChangeNothing : ¬ Obligations.CommandsTurnedAwayChangeNothing := by
  intro h
  obtain ⟨-, hstale, -⟩ := h (.unitAdmit 0 0) 0x0900 0 0 staleAdmit rfl rfl
  obtain ⟨status, result, -, hc⟩ := hstale (by decide) (by decide) rfl (by decide) (by decide)
  exact staleAdmit_changes status result hc

end Sys2Proof.Machine
end

section
/-! How the statements about single commands are met (15_mailboxes.md): what a ready command's argument block reads,
the checks that a body passes, and the completion of a body whose effect does not look at the mailboxes. -/

namespace Sys2Proof.Machine

open Sys2Proof

/-! ### Effects of events -/

/-- A command whose effect on `s` is `t` yields `t`. -/
theorem yields_of {i : Instr} {f : State → State} {s t : State} (he : exec i s = act f s) (h : f s = t) :
    Yields i s t := by
  rw [Yields, he, act, h]

/-- The same, through the function that gives the command its meaning. -/
theorem yields_of_exec {i : Instr} {s t : State} (r : Result) (he : exec i s = r) (h : r = .next (finish s t)) :
    Yields i s t :=
  he.trans h

theorem onlyIf_of_true {c : Bool} (h : c = true) (f : State → State) (s : State) : onlyIf c f s = f s := if_pos h

theorem onlyIf_of_false {c : Bool} (h : c = false) (f : State → State) (s : State) : onlyIf c f s = s :=
  if_neg (by rw [h]; exact Bool.false_ne_true)

/-! ### Argument blocks -/

section Arguments

variable {op mb w0 w1 w2 w3 : Nat} {ws : List Nat} {s : State}

theorem argW_zero (h : Ready op mb (w0 :: ws) s) : argW (cmdOf op mb 0 s) 0 = w0 :=
  argW_ready h 0 (by simp)

theorem argW_one (h : Ready op mb (w0 :: w1 :: ws) s) : argW (cmdOf op mb 0 s) 1 = w1 :=
  argW_ready h 1 (by simp)

theorem argW_two (h : Ready op mb (w0 :: w1 :: w2 :: ws) s) : argW (cmdOf op mb 0 s) 2 = w2 :=
  argW_ready h 2 (by simp)

theorem argW_three (h : Ready op mb (w0 :: w1 :: w2 :: w3 :: ws) s) : argW (cmdOf op mb 0 s) 3 = w3 :=
  argW_ready h 3 (by simp)

end Arguments

/-! ### Checks that pass -/

theorem check_of_false {st : Nat} {c : Bool} {v : Verdict} (h : c = false) : check st c v = v :=
  if_neg (by rw [h]; exact Bool.false_ne_true)

theorem argChecks_of_false {l : List (Nat × Bool)} {v : Verdict} (h : ∀ x ∈ l, x.2 = false) : argChecks l v = v := by
  induction l with
  | nil => rfl
  | cons x l ih =>
    have hx : ¬ x.2 = true := by rw [h x List.mem_cons_self]; exact Bool.false_ne_true
    exact (if_neg hx).trans (ih fun y hy => h y (List.mem_cons_of_mem x hy))

/-- One check of an argument word that passes. -/
theorem argChecks_one {off : Nat} {c : Bool} {v : Verdict} (h : c = false) : argChecks [(off, c)] v = v :=
  argChecks_of_false (by simpa using h)

/-- Two checks of argument words that pass. -/
theorem argChecks_two {off off' : Nat} {c c' : Bool} {v : Verdict} (h : c = false) (h' : c' = false) :
    argChecks [(off, c), (off', c')] v = v :=
  argChecks_of_false (by simp [h, h'])

/-! ### Effects that do not look at the mailboxes -/

/-- An operation that neither reads nor changes the mailboxes. -/
def MailBlind (f : State → State) : Prop := ∀ (g : Mail → Mail) (s : State), f (modMail g s) = modMail g (f s)

/-- Such an operation leaves the mailboxes as they are: they could be put in place after it as well as before it. -/
theorem MailBlind.mail {f : State → State} (h : MailBlind f) (s : State) : (f s).mail = s.mail := by
  have hput : f s = modMail (fun _ => s.mail) (f s) := h (fun _ => s.mail) s
  rw [hput, modMail_mail]

theorem MailBlind.comp {f g : State → State} (hf : MailBlind f) (hg : MailBlind g) : MailBlind (fun s => f (g s)) :=
  fun k s => (congrArg f (hg k s)).trans (hf k (g s))

/-- A ready command that is done, with such an effect, completes with that effect. -/
theorem completes_blind {i : Instr} {op mb : Nat} {args : List Nat} {ro : Cmd → Bool} {onFault : Cmd → State → State}
    {body : Cmd → State → Verdict} {s : State} {st : Nat} {r : Bool} {res : List Byte} {f : State → State}
    (he : exec i s = act (runCommand op mb 0 ro onFault body) s) (h : Ready op mb args s)
    (hr : ro (cmdOf op mb 0 s) = r) (hb : body (cmdOf op mb 0 s) (popOrder s) = .done st res (f (popOrder s)))
    (hf : MailBlind f) : Completes i mb s st r res (f s) :=
  completes_done' he h hr hb (hf.mail _) ((congrArg State.arch (hf _ s)).trans (modMail_arch _ _)) (hf.mail s)

/-- A ready long command that starts, with such an effect, is running with that effect. -/
theorem starts_blind {i : Instr} {op mb subject ticks : Nat} {args : List Nat} {ro : Cmd → Bool}
    {onFault : Cmd → State → State} {body : Cmd → State → Verdict} {s : State} {r : Bool} {f : State → State}
    (he : exec i s = act (runCommand op mb 0 ro onFault body) s) (h : Ready op mb args s)
    (hr : ro (cmdOf op mb 0 s) = r) (hb : body (cmdOf op mb 0 s) (popOrder s) = .start subject ticks (f (popOrder s)))
    (hf : MailBlind f) (hc : (f s).reel.clock = s.reel.clock) : Starts i op mb subject ticks r s (f s) := by
  have hpop : f (popOrder s) = popOrder (f s) := hf _ s
  have hmail : (f (popOrder s)).mail = (popOrder s).mail := hf.mail _
  refine starts_of he h hr hb ?_ ?_ ?_ (by rw [hmail]; exact h.1.2.1) (by rw [hmail]; exact h.1.2.2.1)
  · rw [hpop]; exact hc
  · rw [hpop]; exact modMail_arch _ _
  · rw [hmail, hf.mail s]; rfl

end Sys2Proof.Machine
end

section
/-! The step as a whole: the command at the front of the queue, the tick of an empty queue, the state after reset. -/

namespace Sys2Proof.Machine

open Sys2Proof

/-- Settles O1. -/
theorem stepRunsFrontCommand : Obligations.StepRunsFrontCommand := fun _ _ => rfl

/-! ### One tick, by where it stands in the turn (R62, R63, R85, R94) -/

theorem tick_of_not_aonUp {s : State} (h : aonUp s = false) : tick s = s := if_neg (by rw [h]; exact Bool.false_ne_true)

/-- A tick within a turn. -/
theorem tick_of_lt {s : State} (hup : aonUp s = true) (ht : s.reel.tick < 4095) :
    tick s = benchSend (modReel (fun r =>
      { r with tick := s.reel.tick + 1, freqPause := r.freqPause && s.reel.tick != 127 }) (tickWork s)) := by
  have htick : (tickWork s).reel.tick = s.reel.tick := by rw [tickWork_reel]
  unfold tick
  rw [if_pos hup]
  dsimp only
  rw [if_pos (by rw [htick]; exact ht)]
  simp only [modReel, htick]

/-- The last tick of a turn where a step is decided. -/
theorem tick_of_step {s : State} {d : RStep} (hup : aonUp s = true) (ht : s.reel.tick = 4095)
    (hd : s.reel.step = some d) :
    tick s = if s.reel.st = .bench then takeStep d (tickWork s)
      else modReel (fun r => { r with held := r.held + 1 }) (tickWork s) := by
  have ht' : ¬ (tickWork s).reel.tick < 4095 := by rw [tickWork_reel]; simp [ht]
  have hd' : (tickWork s).reel.step = some d := by rw [tickWork_reel]; exact hd
  have hst : (tickWork s).reel.st = s.reel.st := by rw [tickWork_reel]
  unfold tick
  rw [if_pos hup]
  dsimp only
  rw [if_neg ht', hd', hst]

/-- Settles O2: `step_of_pending_nil`, with the tick by where it stands in the turn. -/
theorem emptyQueuePassesATick : Obligations.EmptyQueuePassesATick := by
  intro s hq
  have hstep := step_of_pending_nil hq
  refine ⟨fun hup => ?_, fun hup ht => ?_, fun hup ht hd => ?_, fun d hup ht hd hst => ?_, fun d hup ht hd hst => ?_⟩
  · rw [hstep, tick_of_not_aonUp hup]
  · rw [hstep, tick_of_lt hup ht]
  · rw [hstep, tick_eq_turnBoundary hup ht hd]
  · rw [hstep, tick_of_step hup ht hd, if_neg hst]
  · rw [hstep, tick_of_step hup ht hd, if_pos hst]

/-! ### Reset -/

/-- A mailbox that no entry of the table names is as after reset. -/
theorem box_reset (n : Nat) : box State.reset n = boxAtReset n := rfl

/-- Settles O3. -/
theorem resetState : Obligations.ResetState := by
  refine ⟨⟨⟨rfl, rfl, rfl, rfl, rfl⟩, ?_⟩, rfl, rfl, rfl, rfl, rfl, fun n _ => ?_, rfl, rfl, by decide, by decide, by decide⟩
  · decide
  · rw [box_reset]
    exact ⟨rfl, rfl, rfl, rfl⟩

end Sys2Proof.Machine
end

section
/-! Training of a port end (R109 to R113): what a port reads after a change, the guards of the training events, and
how a training step goes on. -/

namespace Sys2Proof.Machine

open Sys2Proof

/-! ### What a port reads after a change -/

/-- A port that is not left in its default reads as what it was changed to. -/
theorem port_modPort_self {u : Nat} {f : Port → Port} {s : State} (h : f (port s u) ≠ {}) :
    port (modPort u f s) u = f (port s u) :=
  tabGet_tabSet_self _ _ _ _ h

theorem port_ne_default {p : Port} (h : p.st ≠ .dark) : p ≠ {} := fun hp => h (congrArg Port.st hp)

/-- A port that is not left DARK reads as what it was changed to. -/
theorem port_modPort_of_st {u : Nat} {f : Port → Port} {s : State} (h : (f (port s u)).st ≠ .dark) :
    port (modPort u f s) u = f (port s u) :=
  port_modPort_self (port_ne_default h)

/-- The step's end leaves the ports. -/
theorem finish_port (s t : State) (u : Nat) : port (finish s t) u = port t u := by
  change port (finish s t).arch u = port t.arch u
  rw [finish_arch]

/-- The step's end leaves the port units. -/
theorem finish_punit (s t : State) (u : Nat) : punit (finish s t) u = punit t u := by
  change punit (finish s t).arch u = punit t.arch u
  rw [finish_arch]

/-! ### The lanes of a port end -/

theorem laneOf_modLanes {p : Port} {f : Nat → Lane → Lane} : ∀ {k : Nat}, k < 4 →
    laneOf (modLanes p f) k = f k (laneOf p k)
  | 0, _ => rfl
  | 1, _ => rfl
  | 2, _ => rfl
  | 3, _ => rfl
  | _ + 4, h => absurd h (by omega)

theorem lanesOf_le_four (w : Nat) : lanesOf w ≤ 4 := by
  unfold lanesOf
  split
  · decide
  · split <;> decide

theorem laneCount_le_four (p : Port) : laneCount p ≤ 4 := lanesOf_le_four _

theorem allLanes_iff {p : Port} {t : Nat → Bool} : allLanes p t = true ↔ ∀ k < laneCount p, t k = true := by
  simp [allLanes]

/-! ### A training step (R109) -/

/-- What the lanes of the set show of an observation. -/
abbrev seeLanes (o : TrainObs) (p : Port) : Port :=
  modLanes p fun k l => if k < laneCount p then seeLane o k l else l

theorem trains_st {s : State} {p : Port} (h : trains s p = true) : p.st ≠ .dark := by
  intro hp
  simp [trains, hp] at h

/-- The port end after its lanes were noted. -/
theorem port_seeLanes {u : Nat} {o : TrainObs} {s : State} (h : trains s (port s u) = true) :
    port (modPort u (seeLanes o) s) u = seeLanes o (port s u) :=
  port_modPort_of_st (f := seeLanes o) (trains_st h)

theorem laneOf_seeLanes {o : TrainObs} {p : Port} {k : Nat} (hk : k < laneCount p) :
    laneOf (seeLanes o p) k = seeLane o k (laneOf p k) := by
  rw [seeLanes, laneOf_modLanes (hk.trans_le (laneCount_le_four p)), if_pos hk]

/-- What a marker notes leaves SIGNAL as it is. -/
theorem noteMarker_signal (x : Marker) (l : Lane) : (noteMarker x l).signal = l.signal := by
  unfold noteMarker
  dsimp only
  split <;> rfl

theorem seeLane_signal (o : TrainObs) (k : Nat) (l : Lane) : (seeLane o k l).signal = o.signal.getD k l.signal := by
  unfold seeLane
  dsimp only
  split
  · exact noteMarker_signal _ _
  · rfl

section Steps

variable {u : Nat} {o : TrainObs} {s : State}

theorem exec_trainingStepDone (hu : isPortEnd u = true) (hr : trainingRuns s = true) (ht : trains s (port s u) = true) :
    Yields (.trainingStepDone u o) s (trainStep u o s) :=
  yields_of rfl (if_pos (by simp [hu, hr, ht]))

variable (ht : trains s (port s u) = true)
include ht

/-- SIGNAL on every lane of the set ends step 0. -/
theorem trainStep_signal (h0 : (port s u).step = 0)
    (hsig : ∀ k < laneCount (port s u), o.signal.getD k (laneOf (port s u) k).signal = true) :
    trainStep u o s =
      modPort u (fun p => { p with step := 1, stepAt := s.reel.clock }) (modPort u (seeLanes o) s) := by
  have hport := port_seeLanes (o := o) ht
  have hstep : (port (modPort u (seeLanes o) s) u).step = 0 := by rw [hport]; exact h0
  unfold trainStep
  dsimp only
  rw [hstep]
  refine if_pos (allLanes_iff.2 fun k hk => ?_)
  rw [hport] at hk ⊢
  have hk' : k < laneCount (port s u) := hk
  rw [laneOf_seeLanes hk', seeLane_signal]
  exact hsig k hk'

/-- CDR lock within one turn of SIGNAL ends step 1. -/
theorem trainStep_lock (h1 : (port s u).step = 1) (hlock : o.lock = true) (htime : s.reel.clock < (port s u).stepAt + 4096) :
    trainStep u o s = modPort u (fun p => { p with step := 2 }) (modPort u (seeLanes o) s) := by
  have hport := port_seeLanes (o := o) ht
  have hstep : (port (modPort u (seeLanes o) s) u).step = 1 := by rw [hport]; exact h1
  unfold trainStep
  dsimp only
  rw [hstep]
  refine if_pos ?_
  rw [hport, hlock]
  exact decide_eq_true htime

/-- FRAME alignment ends step 2. -/
theorem trainStep_aligned (h2 : (port s u).step = 2) (hal : o.aligned = true) :
    trainStep u o s = modPort u (fun p => { p with step := 3 }) (modPort u (seeLanes o) s) := by
  have hstep : (port (modPort u (seeLanes o) s) u).step = 2 := by rw [port_seeLanes ht]; exact h2
  unfold trainStep
  dsimp only
  rw [hstep]
  exact if_pos hal

/-- Step 4 looks at the skew. -/
theorem trainStep_skew (h4 : (port s u).step = 4) :
    trainStep u o s =
      if o.skew ≤ 16 then modPort u (fun p => { p with step := 5 }) (modPort u (seeLanes o) s)
      else restartAttempt u 4 (raise 0x0102 [iUnit u, (16, o.skew)] (modPort u (seeLanes o) s)) := by
  have hstep : (port (modPort u (seeLanes o) s) u).step = 4 := by rw [port_seeLanes ht]; exact h4
  unfold trainStep
  dsimp only
  rw [hstep]
  rfl

end Steps

/-- Settles O18: the guard of a training step, then `trainStep` by the step the receiver is in. -/
theorem trainingStepsAdvance : Obligations.TrainingStepsAdvance := by
  intro u o s hu hr ht n
  have hexec : Yields (.trainingStepDone u o) s (trainStep u o s) := exec_trainingStepDone hu hr ht
  refine ⟨hexec, fun h0 hsig => ?_, fun h1 hlock htime => ?_, fun h2 hal => ?_, fun h4 hskew => ?_, fun h4 hskew => ?_⟩
  · rwa [trainStep_signal ht h0 hsig] at hexec
  · rwa [trainStep_lock ht h1 hlock htime] at hexec
  · rwa [trainStep_aligned ht h2 hal] at hexec
  · rwa [trainStep_skew ht h4, if_pos hskew] at hexec
  · rwa [trainStep_skew ht h4, if_neg (by omega)] at hexec

/-! ### Step CHECK (R109, R110) -/

/-- The word of the marker that lane k showed; 0 where it showed none. -/
abbrev markerAt (o : TrainObs) (k : Nat) : Nat := ((o.markers.getD k none).map fun x => x.word.toNat).getD 0

theorem noteMarker_mkLane {x : Marker} (l : Lane) (h : markerOk x.word.toNat = true) :
    (noteMarker x l).mkLane = fld x.word.toNat 23 22 := by
  unfold noteMarker
  dsimp only
  rw [if_pos h]

/-- A lane that showed a valid marker carries its LANE field. -/
theorem seeLane_mkLane {o : TrainObs} {k : Nat} (l : Lane) (h : markerOk (markerAt o k) = true) :
    (seeLane o k l).mkLane = fld (markerAt o k) 23 22 := by
  unfold seeLane markerAt at *
  dsimp only
  generalize o.markers.getD k none = m at *
  cases m with
  | none => exact absurd h (by decide)
  | some x => exact noteMarker_mkLane _ h

/-- Different numbers below n, one for each number below n, are all the numbers below n. -/
theorem exists_of_injective_below {n : Nat} {g : Nat → Nat} (hlt : ∀ k < n, g k < n) (hinj : ∀ k < n, ∀ j < k, g j ≠ g k)
    {k : Nat} (hk : k < n) : ∃ j < n, g j = k := by
  let f : Fin n → Fin n := fun i => ⟨g i, hlt i i.2⟩
  have hf : Function.Injective f := fun a b hab => by
    have hg : g a = g b := congrArg Fin.val hab
    rcases Nat.lt_trichotomy a b with hlt' | heq | hlt'
    · exact absurd hg (hinj b b.2 a hlt')
    · exact Fin.ext heq
    · exact absurd hg.symm (hinj a a.2 b hlt')
  obtain ⟨j, hj⟩ := Finite.surjective_of_injective hf ⟨k, hk⟩
  exact ⟨j, j.2, congrArg Fin.val hj⟩

/-- Once some lane of the set carries LANE = k, lane k is such a lane. -/
theorem laneOf_swapLanes_mkLane {p : Port} {k j : Nat} (hk : k < laneCount p) (hj : j < laneCount p)
    (h : (laneOf p j).mkLane = k) : (laneOf (swapLanes p) k).mkLane = k := by
  rw [swapLanes, laneOf_modLanes (hk.trans_le (laneCount_le_four p))]
  cases hfind : (List.range (laneCount p)).find? fun j => decide (k < laneCount p) && (laneOf p j).mkLane == k with
  | none => exact absurd (List.find?_eq_none.1 hfind j (List.mem_range.2 hj)) (by simp [hk, h])
  | some i =>
    have hi := List.find?_some hfind
    simp only [Bool.and_eq_true, beq_iff_eq] at hi
    exact hi.2

/-- What the markers that step CHECK compares show at lane k. -/
theorem markers_getD (o : TrainObs) (k : Nat) :
    (o.markers.map fun x => (x.map fun y => y.word.toNat).getD 0).getD k 0 = markerAt o k := by
  rw [List.getD_eq_getElem?_getD, List.getElem?_map, markerAt, List.getD_eq_getElem?_getD]
  cases o.markers[k]? <;> rfl

/-- The port end that step CHECK leaves where every marker is as it should be. -/
def checked (p : Port) : Port := { swapLanes (modLanes p fun _ l => { l with mismatch := false }) with step := 4 }

theorem checked_st (p : Port) : (checked p).st = p.st := rfl

theorem checked_step (p : Port) : (checked p).step = 4 := rfl

theorem laneOf_of_step (p : Port) (n : Nat) : ∀ k, laneOf { p with step := n } k = laneOf p k
  | 0 => rfl
  | 1 => rfl
  | 2 => rfl
  | _ + 3 => rfl

theorem laneOf_checked_mkLane {p : Port} {k j : Nat} (hk : k < laneCount p) (hj : j < laneCount p)
    (h : (laneOf p j).mkLane = k) : (laneOf (checked p) k).mkLane = k := by
  let q := modLanes p fun _ l => { l with mismatch := false }
  have hq : (laneOf q j).mkLane = k := by
    rw [laneOf_modLanes (hj.trans_le (laneCount_le_four p))]
    exact h
  have hswap : (laneOf (swapLanes q) k).mkLane = k := laneOf_swapLanes_mkLane (p := q) hk hj hq
  rw [checked, laneOf_of_step]
  exact hswap

section Check

variable {u : Nat} {o : TrainObs} {s : State}

/-- Step CHECK, where the markers that the observation shows are one for each lane of the set, of the port's own RATE and
WIDTH. -/
theorem trainStep_check (ht : trains s (port s u) = true) (h3 : (port s u).step = 3)
    (hlen : o.markers.length = laneCount (port s u)) (hok : ∀ k < laneCount (port s u), markerOk (markerAt o k) = true)
    (hset : ∀ k < laneCount (port s u), fld (markerAt o k) 19 18 = (port s u).set.rate ∧
      fld (markerAt o k) 21 20 = (port s u).set.width ∧ fld (markerAt o k) 23 22 < laneCount (port s u) ∧
      ∀ j < k, fld (markerAt o j) 23 22 ≠ fld (markerAt o k) 23 22) :
    trainStep u o s = modPort u checked (modPort u (seeLanes o) s) := by
  have hport := port_seeLanes (o := o) ht
  have hstep : (port (modPort u (seeLanes o) s) u).step = 3 := by rw [hport]; exact h3
  unfold trainStep
  dsimp only
  rw [hstep, hport]
  have hgo : (decide ((o.markers.map fun x => (x.map fun y => y.word.toNat).getD 0).length = laneCount (port s u)) &&
      (o.markers.map fun x => (x.map fun y => y.word.toNat).getD 0).all markerOk) = true := by
    simp only [Bool.and_eq_true, decide_eq_true_eq, List.length_map, List.all_eq_true]
    refine ⟨hlen, fun m hm => ?_⟩
    obtain ⟨k, hk, rfl⟩ := List.getElem_of_mem hm
    have hk' : k < laneCount (port s u) := by rw [← hlen]; simpa using hk
    rw [← List.getD_eq_getElem _ 0 hk, markers_getD]
    exact hok k hk'
  refine (if_pos hgo).trans ?_
  unfold checkStep
  dsimp only
  rw [hport, List.find?_eq_none.2]
  · rfl
  intro k hk
  have hk' : k < laneCount (port s u) := List.mem_range.1 hk
  obtain ⟨hrate, hwidth, hlane, hne⟩ := hset k hk'
  have hother : ((o.markers.map fun x => (x.map fun y => y.word.toNat).getD 0).take k).any
      (fun m => fld m 23 22 == fld (markerAt o k) 23 22) = false := by
    refine List.any_eq_false.2 fun m hm => ?_
    obtain ⟨j, hj, rfl⟩ := List.mem_take_iff_getElem.1 hm
    have hlt : j < (o.markers.map fun x => (x.map fun y => y.word.toNat).getD 0).length := by omega
    rw [← List.getD_eq_getElem _ 0 hlt, markers_getD]
    simpa using hne j (by omega)
  rw [markers_getD, hother]
  intro hwrong
  simp only [Bool.or_eq_true, bne_iff_ne, decide_eq_true_eq] at hwrong
  rcases hwrong with ((hne | hne) | hle) | hfalse
  · exact hne hrate
  · exact hne hwidth
  · exact absurd hlane (Nat.not_lt.2 hle)
  · exact Bool.noConfusion hfalse

end Check

/-- Settles O19: the markers pass step CHECK, and as their LANE fields are different numbers below the number of lanes, every
lane number is among them. -/
theorem markersNameTheLanes : Obligations.MarkersNameTheLanes := by
  intro u o s hu hr ht h3 p w hlen hmark
  have hstep : trainStep u o s = modPort u checked (modPort u (seeLanes o) s) :=
    trainStep_check ht h3 hlen (fun k hk => (hmark k hk).1) fun k hk => (hmark k hk).2
  have hsee := port_seeLanes (o := o) ht
  have hport : port (modPort u checked (modPort u (seeLanes o) s)) u = checked (seeLanes o (port s u)) := by
    have hst : (checked (port (modPort u (seeLanes o) s) u)).st ≠ .dark := by
      rw [hsee, checked_st]
      exact trains_st ht
    rw [port_modPort_of_st hst, hsee]
  refine ⟨_, exec_trainingStepDone hu hr ht, ?_, fun k hk => ?_⟩
  · rw [finish_port, hstep, hport, checked_step]
  · obtain ⟨j, hj, hjk⟩ := exists_of_injective_below (fun k hk => (hmark k hk).2.2.2.1)
      (fun k hk => (hmark k hk).2.2.2.2) hk
    rw [finish_port, hstep, hport]
    refine laneOf_checked_mkLane (p := seeLanes o (port s u)) hk hj ?_
    rw [laneOf_seeLanes hj, seeLane_mkLane _ (hmark j hj).1]
    exact hjk

end Sys2Proof.Machine
end

section
/-! The lane events (R109 to R113, R119 to R130, R282): the guard of each event, and what it leaves. -/

namespace Sys2Proof.Machine

open Sys2Proof

/-! ### The events of a training attempt (R109, R111 to R113) -/

section Training

variable {u k : Nat} {s : State} (hu : isPortEnd u = true) (hr : trainingRuns s = true)
include hu hr

theorem cdrLockTimeout_yields (ht : trains s (port s u) = true) (h1 : (port s u).step = 1)
    (htime : (port s u).stepAt + 4096 ≤ s.reel.clock) : Yields (.cdrLockTimeout u) s (restartAttempt u 1 s) :=
  yields_of rfl (if_pos (by simp [hu, hr, ht, h1, htime]))

/-- A lane in FRAME of an AUTO attempt takes a round of the slip loop. -/
theorem bitslipRound_yields {seen : Option Marker} {before now : Bool} (ht : trains s (port s u) = true)
    (h2 : (port s u).step = 2) (hauto : (port s u).manual = false ∨ (port s u).st = .relock)
    (hk : k < laneCount (port s u)) :
    Yields (.bitslipRound u k seen before now) s (bitslipStep u k seen (before && now) s) := by
  have hnot : ((port s u).manual && (port s u).st == .training) = false := by
    rcases hauto with hm | hst
    · simp [hm]
    · simp [hst]
  exact yields_of rfl (if_pos (by simp [hu, hr, ht, h2, hnot, hk]))

theorem trainingTimeout_yields (hd : stepsDone s = true) (hst : (port s u).st = .training)
    (hrx : (port s u).rxReady = false) (htime : (port s u).attemptAt + (port s u).timeout ≤ s.reel.bounds) :
    Yields (.trainingTimeout u) s (restartAttempt u (port s u).step s) :=
  yields_of rfl (if_pos (by simp [hu, hr, hd, hst, hrx, htime]))

theorem farReady_yields (hst : (port s u).st = .training) (hrx : (port s u).rxReady = true)
    (hend : (port s u).txEnded = false) :
    Yields (.farReady u) s (modPort u (fun p =>
      sendEnd (modLanes p fun k l => if k < laneCount p then { l with farReady := true } else l) s) s) :=
  yields_of rfl (if_pos (by simp [hu, hr, hst, hrx, hend]))

theorem endReceived_yields (hst : (port s u).st = .training) (hrx : (port s u).rxReady = true) :
    Yields (.endReceived u) s (asicCheck (uAsic u) (newStampLag u (portTo u .probation
      (if (port s u).txEnded then s else modPort u (fun p => sendEnd p s) s)))) := by
  refine yields_of rfl ((if_pos (by simp [hu, hr, hst, hrx])).trans ?_)
  dsimp only
  cases (port s u).txEnded <;> rfl

end Training

/-- The lane after a round of the slip loop that captured a marker. -/
def slipped (x : Marker) (l : Lane) : Lane :=
  { noteMarker x l with
    slip := (l.slip + x.offset) % 2720, invert := l.invert != x.inverted, rounds := l.rounds + 1 }

theorem noteMarker_slip (x : Marker) (l : Lane) : (noteMarker x l).slip = l.slip := by
  unfold noteMarker
  dsimp only
  split <;> rfl

/-- What the model does with the lane is that. -/
theorem slipLane_noteMarker (x : Marker) (l : Lane) :
    { slipLane x.offset (some (l.invert != x.inverted)) (noteMarker x l) with rounds := l.rounds + 1 } = slipped x l := by
  simp only [slipLane, slipped, noteMarker_slip, Option.getD_some]

/-- A round of the slip loop that captured a marker. -/
theorem bitslipStep_some {x : Marker} (u k : Nat) (s : State) (h : markerOk x.word.toNat = true) :
    bitslipStep u k (some x) false s =
      if (laneOf (port s u) k).rounds + 1 = 8 then restartAttempt u 2 (modPort u (fun p => modLaneOf p k (slipped x)) s)
      else modPort u (fun p => modLaneOf p k (slipped x)) s := by
  unfold bitslipStep
  dsimp only
  rw [Option.filter_some_pos (p := fun y : Marker => markerOk y.word.toNat) h]
  simp only [Bool.false_eq_true, if_false, slipLane_noteMarker]

/-- Settles O20: the guard of each event, and for BITSLIP_ROUND the slip loop's round by whether it captured a marker. -/
theorem trainingEventsComplete : Obligations.TrainingEventsComplete := by
  refine ⟨fun u s hu hr ht h1 htime => cdrLockTimeout_yields hu hr ht h1 htime,
    fun u k x before now s hal hu hr ht h2 hauto hk hx => ?_,
    fun u s hu hr hd hst hrx htime => trainingTimeout_yields hu hr hd hst hrx htime,
    fun u s hu hr hst hrx hend => farReady_yields hu hr hst hrx hend,
    fun u s hu hr hst hrx => endReceived_yields hu hr hst hrx⟩
  intro t
  have hround {seen : Option Marker} :
      Yields (.bitslipRound u k seen before now) s (bitslipStep u k seen false s) := by
    have hyield := bitslipRound_yields (seen := seen) (before := before) (now := now) hu hr ht h2 hauto hk
    rwa [hal] at hyield
  refine ⟨fun hlt => ?_, fun hlast => ?_, hround⟩
  · have hyield := hround (seen := some x)
    rwa [bitslipStep_some u k s hx, if_neg (by omega)] at hyield
  · have hyield := hround (seen := some x)
    rwa [bitslipStep_some u k s hx, if_pos (by omega)] at hyield

/-! ### Lane changes, RELOCK and loss of signal (R126 to R132) -/

theorem laneChange_yields {u : Nat} {a : Sched} {ls : LaneSet} {s : State} (hd : dueAction .laneChange (some u) s = some a)
    (ha : a.arg = .lane ls) : Yields (.laneChange u) s (applyLaneChange u ls (schedRemove a s)) := by
  refine yields_of_exec (execLaneChange u s) rfl ?_
  unfold execLaneChange act
  dsimp only
  rw [hd]
  dsimp only
  rw [ha]

theorem relockDeadline_yields {u : Nat} {s : State} (hu : isPortEnd u = true) (hst : (port s u).st = .relock)
    (htime : (port s u).relockAt + 1024 ≤ s.reel.clock) :
    Yields (.relockDeadline u) s (if (port s u).rxReady then relockReturn u s else portTo u .training s) :=
  yields_of rfl (if_pos (by simp [hu, hst, htime]))

/-- Settles O21. -/
theorem laneServiceEventsComplete : Obligations.LaneServiceEventsComplete := by
  refine ⟨fun u a ls s hd ha => laneChange_yields hd ha, fun u s hu hst htime => relockDeadline_yields hu hst htime,
    fun u lanes s hu hs => ?_⟩
  intro t
  have hguard : (isPortEnd u && inService (port s u)) = true := by rw [hu, hs]; rfl
  refine ⟨fun hrx => ?_, fun hrx => ?_, yields_of rfl (if_pos hguard), yields_of rfl (if_pos hguard)⟩
  · refine yields_of rfl ((if_pos hguard).trans ?_)
    dsimp only
    rw [hrx]
    rfl
  · refine yields_of rfl ((if_pos hguard).trans ?_)
    dsimp only
    rw [hrx]
    rfl

end Sys2Proof.Machine
end

section
/-! Electrical idle (R123 to R125, R130, R282) and adaptation (R119, R120, R244). -/

namespace Sys2Proof.Machine

open Sys2Proof

/-! ### Entry -/

section Entry

variable {u : Nat} {s : State}

theorem idleEntry_yields (hu : isPortEnd u = true) (hst : (port s u).st = .standby ∨ (port s u).st = .admitted)
    (htx : (port s u).txIdle = false) (hafter : (port s u).set.idleAfter ≠ 0) (hbusy : (port s u).busyUntil ≤ s.reel.clock)
    (hquiet : (port s u).fillFrom + (port s u).set.idleAfter ≤ s.reel.clock) (hallow : idleAllowed s u = true)
    (hstream : (link s u).stream = []) (hwait : (link s u).waiting = none) :
    Yields (.idleEntry u) s (forAll (List.range (laneCount (port s u))) (fun k => count (laneCtr u k 5) 1)
      (modPort u (fun p => { p with txIdle := true, idleAt := (sendPair u true s).reel.clock })
        (sendBlock u 3 (sendPair u true s)))) :=
  yields_of rfl (if_pos (by simp [hu, hst, htx, hafter, hbusy, hquiet, hallow, hstream, hwait]))

end Entry

/-! ### Exit -/

/-- Counting a lane's ticks leaves the ports. -/
theorem forAll_count_port {α : Type} (l : List α) (key n : α → Nat) (s : State) (u : Nat) :
    port (forAll l (fun k => count (key k) (n k)) s) u = port s u :=
  forAll_keeps (fun s => port s u) _ _ _ fun _ _ => rfl

theorem inService_st {p : Port} (h : inService p = true) : p.st ≠ .dark := by
  intro hp
  simp [inService, hp] at h

/-- A transmitter that leaves electrical idle at once. -/
theorem port_idleExit {u : Nat} {s : State} (h : (port s u).st ≠ .dark) :
    (port (idleExit u s) u).txIdle = false ∧ (port (idleExit u s) u).blocks = [1, 1, 1, 1, 2] ∧
      s.reel.clock + exitTicks (port s u).set.rate ≤ (port (idleExit u s) u).busyUntil := by
  unfold idleExit
  dsimp only
  rw [forAll_count_port, port_modPort_of_st]
  · exact ⟨rfl, rfl, le_max_right _ _⟩
  · exact h

/-- An idle transmitter in service whose minimum dwell has passed begins its exit. -/
theorem wakePort_of_dwelt {u : Nat} {s : State} (hs : inService (port s u) = true) (htx : (port s u).txIdle = true)
    (hw : (port s u).wakeAt = none) (hd : dwellLeft s (port s u) = 0) : wakePort u s = idleExit u s := by
  unfold wakePort
  dsimp only
  rw [if_neg (by simp [hs, htx, hw]), if_pos hd]

/-- One whose dwell has not passed waits for it. -/
theorem port_wakePort_of_dwelling {u : Nat} {s : State} (hs : inService (port s u) = true)
    (htx : (port s u).txIdle = true) (hw : (port s u).wakeAt = none) (hd : dwellLeft s (port s u) ≠ 0) :
    port (wakePort u s) u =
      { port s u with
        wakeAt := some (s.reel.clock + dwellLeft s (port s u)), busyUntil := s.reel.clock + wakeTicks s (port s u)
        fillFrom := s.reel.clock + wakeTicks s (port s u) } := by
  unfold wakePort
  dsimp only
  rw [if_neg (by simp [hs, htx, hw]), if_neg hd, port_modPort_of_st]
  exact inService_st hs

theorem wakeTicks_of_idle {s : State} {p : Port} (h : p.txIdle = true) :
    wakeTicks s p = dwellLeft s p + exitTicks p.set.rate := if_pos h

section Prewake

variable {u : Nat} {s : State} (hu : isPortEnd u = true) (hs : inService (port s u) = true)
include hu hs

theorem prewake_yields (hside : uSide u = 0) (htx : (port s u).txIdle = true) (hst : s.tray.st ≠ .unscheduled)
    (hp : prewakeStarts s u (dwellLeft s (port s u) + exitTicks (port s u).set.rate) = true) :
    Yields (.prewake u) s (wakePort u s) :=
  yields_of rfl (if_pos (by simp [hu, hs, hside, htx, hst, wakeTicks_of_idle htx, hp]))

/-- The lanes judged, the port retrains where one was displaced. -/
theorem idleExitCheck_yields {vs : List (Nat × Int)} (hrx : (port s u).rxIdle = true) :
    Yields (.idleExitCheck u vs) s
      (onlyIf ((List.range (laneCount (port s u))).any fun k => (vs.getD k (0, 0)).1 == 2) (portRetrain u 2)
        (forAll (List.range (laneCount (port s u)))
          (fun k => exitLane u k (vs.getD k (0, 0)).1 (vs.getD k (0, 0)).2)
          (modPort u (fun p => { p with rxIdle := false }) s))) :=
  yields_of rfl (if_pos (by simp [hu, hs, hrx]))

end Prewake

/-- Settles O22: the guard of each event; a transmitter that wakes begins its exit by whether its dwell has passed, and the
judged lanes retrain the port by whether one was displaced. -/
theorem electricalIdleEventsComplete : Obligations.ElectricalIdleEventsComplete := by
  refine ⟨fun u s hu hst htx hafter hbusy hquiet hallow hstream hwait =>
      idleEntry_yields hu hst htx hafter hbusy hquiet hallow hstream hwait,
    fun u s hu hside hs htx hst hw hp => ?_, fun u vs s hu hs hrx hv => ?_, fun u vs s hu hs hrx hv => ?_⟩
  · refine ⟨_, prewake_yields hu hs hside htx hst hp, fun hd => ?_, fun hd => ?_⟩
    · rw [finish_port, wakePort_of_dwelt hs htx hw hd]
      exact port_idleExit (inService_st hs)
    · rw [finish_port, port_wakePort_of_dwelling hs htx hw hd, wakeTicks_of_idle htx]
      exact ⟨htx, rfl, (Nat.add_assoc _ _ _).symm⟩
  · have hyield := idleExitCheck_yields (vs := vs) hu hs hrx
    rwa [onlyIf_of_false (by simpa using hv)] at hyield
  · have hyield := idleExitCheck_yields (vs := vs) hu hs hrx
    rwa [onlyIf_of_true (by simpa using hv)] at hyield

/-! ### A turn of probation -/

/-- A port end in PROBATION with one lane, which has PRBS lock. Its unit is listed twice: first as an unlisted one reads,
then with 5 clean turns. -/
def doubleEntry : State :=
  { reel := { clock := 4096 }
    ports := [(0, { st := .probation, set := { width := 0 }, l0 := { run := 512 } })]
    punits := [(0, {}), (0, { clean := 5 })] }

/-- The clean turn writes the unit of `doubleEntry` back as it was, which takes the first entry out; then it counts on the
second. -/
theorem doubleEntry_clean : (punit (probationTurn 0 [] [96] doubleEntry) 0).clean = 6 := by decide

/-- Refutes O23: its last clause also speaks of tables in which a unit is listed twice; in `doubleEntry` the count of clean
turns goes from 0 to 6. -/
theorem not_adaptationEventsComplete : ¬ Obligations.AdaptationEventsComplete := by
  rintro ⟨-, -, -, -, hturn⟩
  obtain ⟨t, ht, hclean, -⟩ := hturn 0 [] [96] doubleEntry (by decide) (by decide) (by decide) (by decide) (by decide)
    (by decide) (by decide) (by decide) (by decide)
  have hexec : exec (.probationTurn 0 [] [96]) doubleEntry = .next (finish doubleEntry (probationTurn 0 [] [96] doubleEntry)) :=
    yields_of rfl (if_pos (by decide))
  rw [hexec] at ht
  cases ht
  rw [finish_punit, doubleEntry_clean] at hclean
  exact absurd hclean (by decide)

end Sys2Proof.Machine
end

section
/-! Links, queues, losses and units (04_frames_and_link.md, 05_forwarding_core.md, 06_ordering_ports_readmission.md): the
guard of each event. -/

namespace Sys2Proof.Machine

open Sys2Proof

/-! ### Links (R114, R153, R156, R158, R173) -/

section Links

variable {u : Nat} {s : State} (hu : isPortEnd u = true)
include hu

/-- A pair taken at a port that carries pairs, by whether it is bad. -/
theorem pairReceive_yields {lcw : BitVec 40} {stream : List Byte} {bad holds : Bool} {corr : List Nat}
    (hs : inService (port s u) = true) :
    Yields (.pairReceive u lcw stream bad holds corr) s
      (if bad then badPair u holds (pairLanes u corr s) else goodPair u lcw.toNat stream holds (pairLanes u corr s)) :=
  yields_of rfl (if_pos (by simp [hu, hs]))

theorem ackTimeout_yields (hs : inService (port s u) = true) (hun : (link s u).unacked ≠ [])
    (htime : (link s u).lastAdvance + 256 ≤ s.reel.clock) :
    Yields (.ackTimeout u) s
      (replay u (countWin (linkCtr u 9) 1 (modLink u (fun l => { l with lastAdvance := s.reel.clock }) s))) :=
  yields_of rfl (if_pos (by simp [hu, hs, hun, htime]))

theorem frameIngress_yields {x : Arrival} {t : List Arrival} (hside : uSide u = 0) (ha : (link s u).arrived = x :: t) :
    Yields (.frameIngress u) s
      (spillHeld (uAsic u) (asicFrames (ingress u x (modLink u (fun l => { l with arrived := t }) s)) (uAsic u)).length
        (ingress u x (modLink u (fun l => { l with arrived := t }) s))) := by
  refine yields_of_exec (execFrameIngress u s) rfl ?_
  unfold execFrameIngress act
  dsimp only
  rw [ha]
  dsimp only
  rw [if_pos (by simp [hu, hside])]

end Links

/-- Settles O25. -/
theorem linkEventsComplete : Obligations.LinkEventsComplete :=
  ⟨fun _ _ _ _ _ _ hu hs => pairReceive_yields hu hs, fun _ _ _ _ _ _ hu hs => pairReceive_yields hu hs,
    fun _ _ hu hs hun htime => ackTimeout_yields hu hs hun htime,
    fun _ _ _ _ hu hside ha => frameIngress_yields hu hside ha⟩

/-! ### Queues (R75, R191, R198, R203, R274, R277, R297) -/

/-- A port that is free decides, in pitch 0 once the changes of the turn are made. -/
theorem egressDecision_yields {u : Nat} {s : State} (hu : isPortEnd u = true) (hs : inService (port s u) = true)
    (hbusy : (port s u).busyUntil ≤ s.reel.clock) (hwait : (link s u).waiting = none)
    (hpitch : stepsDone s = true ∨ 64 ≤ s.reel.tick) : Yields (.egressDecision u) s (decideEgress u s) :=
  yields_of rfl (if_pos (by simp [hu, hs, hbusy, hwait, hpitch]))

/-- The oldest spilled frame of a queue comes back where its queue has room and nothing holds its port. -/
theorem spillReturn_yields {a p cls : Nat} {reads : List Nat} {g : SpillPage} {q : QFrame} {s : State} (ha : a < 4)
    (hp : p < 92) (hcls : cls < 5)
    (hg : (spillOf s a).pages.find? (fun g => g.frames.any fun e => e.1 == unitOf a p * 8 + cls) = some g)
    (hq : g.frames.find? (fun e => e.1 == unitOf a p * 8 + cls) = some (unitOf a p * 8 + cls, q))
    (hhold : (punit s (unitOf a p)).hold = none) (hreach : hc8Reach s a = true)
    (hroom : 16 * depth s (unitOf a p) cls ≤ (queueCfg s (unitOf a p) cls).unspill * (queueCfg s (unitOf a p) cls).limit)
    (hcells : frameCells q.f ≤ freeCells s a) :
    Yields (.spillReturn a p cls reads) s (withReads reads (spillBack (unitOf a p) cls q) s) := by
  let r := modPool (fun p => { p with reads := reads }) s
  have hg' : (spillOf r a).pages.find? (fun g => g.frames.any fun e => e.1 == unitOf a p * 8 + cls) = some g := hg
  have hguard : (decide (a < 4) && decide (p < 92) && decide (cls < 5) && (punit r (unitOf a p)).hold.isNone &&
      hc8Reach r a && decide (16 * depth r (unitOf a p) cls ≤
        (queueCfg r (unitOf a p) cls).unspill * (queueCfg r (unitOf a p) cls).limit) &&
      decide (frameCells q.f ≤ freeCells r a)) = true := by
    have hhold' : (punit r (unitOf a p)).hold = none := hhold
    have hreach' : hc8Reach r a = true := hreach
    simp only [Bool.and_eq_true, decide_eq_true_eq, Option.isNone_iff_eq_none]
    exact ⟨⟨⟨⟨⟨⟨ha, hp⟩, hcls⟩, hhold'⟩, hreach'⟩, hroom⟩, hcells⟩
  refine yields_of_exec (execSpillReturn a p cls reads s) rfl ?_
  unfold execSpillReturn act withReads
  dsimp only
  rw [hg']
  dsimp only
  rw [hq]
  dsimp only
  rw [if_pos hguard]

theorem planNoFit_yields {a p cls : Nat} {q : QFrame} {s : State} (ha : a < 4) (hp : p < 92) (hcls : cls < 5)
    (hq : headOf s (unitOf a p) cls = some q) (hst : s.tray.st ≠ .unscheduled) (hbolt : wholeBolt s q = true) :
    Yields (.planNoFit a p cls) s (onlyIf q.diverted (retire a q)
      (raiseOnce (eventKey 0x0302 + unitOf a p) 0x0302 [iUnit (unitOf a p), (3, cls)]
        (countWin (planCtr (unitOf a p) 5) 1 (dropFrame dropNoSpace (unitOf a p) q.f (dequeue (unitOf a p) q s))))) := by
  refine yields_of_exec (execPlanNoFit a p cls s) rfl ?_
  unfold execPlanNoFit act
  dsimp only
  rw [hq]
  dsimp only
  rw [if_pos (by simp [ha, hp, hcls, hst, hbolt])]

theorem graceRuns_of_reached {s : State}
    (h : reached ((s.fwd.tables.switchTurn + s.fwd.tables.grace) % 2 ^ 48) s.reel.turn = true) : graceRuns s = false := by
  unfold graceRuns
  rw [h, Bool.not_true, Bool.and_false]

theorem tableGraceEnd_yields {s : State} (hin : s.fwd.tables.inGrace = true) (hover : graceRuns s = false) :
    Yields .tableGraceEnd s (modFwd (fun w => { w with tables := { w.tables with inGrace := false } }) s) := by
  refine yields_of_exec (execTableGraceEnd s) rfl ?_
  unfold execTableGraceEnd act
  dsimp only
  rw [hin, hover]
  rfl

/-! ### Losses (R235, R236) -/

/-- The state in which the notice of a loss group is decided: the group taken out of the losses, the pool reads at hand. -/
abbrev takeLosses (flow b : Nat) (reads : List Nat) (s : State) : State :=
  withReads reads (modFwd fun w => { w with losses := w.losses.filter fun l => !(l.flow == flow && l.bound == b) }) s

/-- What becomes of the losses of a flow's oldest turn that has ended, for the tray with this EID. -/
def noticeOf (own flow : Nat) (ls : List Loss) (t : State) : State :=
  let a := lossArgs flow ls
  let r := hc8Send (ctrlFrame own (flow / 2 ^ 15) 0 4 ((ls.head?.elim 0 (·.turn)) % 65536)
    a.1 a.2.1 a.2.2.1 a.2.2.2 []) t
  if flow / 2 ^ 15 = own then ownLost a.1 a.2.1 a.2.2.1 a.2.2.2 t
  else if r.1 then count (hc8Ctr 0) 1 r.2 else noticeLost (flow / 2 ^ 15) t

theorem lossNotice_yields {flow b : Nat} {ls : List Loss} {reads : List Nat} {s : State} (hc : coreUp s = true)
    (hg : lossGroup s flow = some (b, ls)) :
    Yields (.lossNotice ⟨flow, reads⟩) s (noticeOf (ownEid s) flow ls (takeLosses flow b reads s)) := by
  let r := modPool (fun p => { p with reads := reads }) s
  have hc' : (!coreUp r) = false := by rw [show coreUp r = true from hc]; rfl
  have hg' : lossGroup r flow = some (b, ls) := hg
  refine yields_of_exec (execLossNotice ⟨flow, reads⟩ s) rfl ?_
  unfold execLossNotice act withReads
  dsimp only
  rw [hc', if_neg Bool.false_ne_true, hg']
  rfl

/-- The first waiting frame that a function of the HC-8 takes is handed to it. -/
theorem hc8Take_of_find {ifc : Nat} {p : Frame → Bool} {k : Frame → State → State} {f : Frame} {s : State}
    (hc : coreUp s = true) (hr : s.tray.restart ≠ .warming) (hf : (link s (ifcUnit ifc)).rxq.find? p = some f) :
    hc8Take ifc p k s = k f (modLink (ifcUnit ifc) (fun l => { l with rxq := l.rxq.erase f }) s) := by
  unfold hc8Take
  dsimp only
  rw [hf]
  dsimp only
  rw [if_neg (by simp [hc]), if_neg hr]

/-- Settles O26: the guard of each event; a loss group is handed on by whether its frames are this tray's own. -/
theorem queueAndLossEventsComplete : Obligations.QueueAndLossEventsComplete := by
  refine ⟨fun u s hu hs hbusy hwait hpitch => egressDecision_yields hu hs hbusy hwait hpitch,
    fun a p cls reads g q s ha hp hcls => ?_, fun a p cls q s ha hp hcls hq hst hbolt => ?_,
    fun s hin hover => tableGraceEnd_yields hin (graceRuns_of_reached hover), fun flow b ls reads s hc hg => ?_,
    fun ifc f reads s hc hr hf => ?_⟩
  · exact fun hg hq hhold hreach hroom hcells => spillReturn_yields ha hp hcls hg hq hhold hreach hroom hcells
  · exact planNoFit_yields ha hp hcls hq hst hbolt
  · have hyield := lossNotice_yields (reads := reads) hc hg
    refine ⟨fun hown => ?_, fun hother hsent => ?_⟩
    · rwa [noticeOf, if_pos hown] at hyield
    · rwa [noticeOf, if_neg hother, if_pos hsent] at hyield
  · refine yields_of rfl ?_
    exact hc8Take_of_find (k := noticeArrive) (s := modPool (fun p => { p with reads := reads }) s) hc hr hf

/-! ### Units (R239, R241, R246, R249, R250, R259) -/

theorem unitAdmission_yields {u : Nat} {a : Sched} {s : State} (h : dueAction .admission (some u) s = some a) :
    Yields (.unitAdmission u) s (admitUnit u a.turn (schedRemove a s)) := by
  refine yields_of_exec (execUnitAdmission u s) rfl ?_
  unfold execUnitAdmission act
  dsimp only
  rw [h]

theorem unitWithdrawal_yields {u : Nat} {a : Sched} {s : State} (h : dueAction .withdraw (some u) s = some a) :
    Yields (.unitWithdrawal u) s (withdrawUnit u a.turn (schedRemove a s)) := by
  refine yields_of_exec (execUnitWithdrawal u s) rfl ?_
  unfold execUnitWithdrawal act
  dsimp only
  rw [h]

theorem withdrawalDrained_yields {u t : Nat} {s : State} (hd : drains s u = some t)
    (ht : reached t s.reel.turn = true) (h0 : s.reel.tick = 0) (hh : unitHolds s u = false) :
    Yields (.withdrawalDrained u) s (withdrawDone u s) := by
  refine yields_of_exec (execWithdrawalDrained u s) rfl ?_
  unfold execWithdrawalDrained act
  dsimp only
  rw [hd]
  dsimp only
  rw [if_pos (by simp [ht, h0, hh])]

/-- The frames that a withdrawn unit still holds at its limit are placed elsewhere. -/
def placeElsewhere (u : Nat) (s r : State) : State :=
  forAll ((servingPorts s u).filter fun v => uSide v == 0 && holdsFrames s v)
    (fun v s => placeHeld v (divertQueued v s)) (withdrawDone u r)

theorem withdrawalDrainLimit_yields {u t : Nat} {reads : List Nat} {s : State} (hd : drains s u = some t)
    (ht : reached ((t + 8) % 2 ^ 48) s.reel.turn = true) :
    Yields (.withdrawalDrainLimit ⟨u, reads⟩) s (withReads reads (placeElsewhere u s) s) := by
  let r := modPool (fun p => { p with reads := reads }) s
  have hd' : drains r u = some t := hd
  have ht' : reached ((t + 8) % 2 ^ 48) r.reel.turn = true := ht
  refine yields_of_exec (execWithdrawalDrainLimit ⟨u, reads⟩ s) rfl ?_
  unfold execWithdrawalDrainLimit act withReads
  dsimp only
  rw [hd']
  dsimp only
  rw [if_pos ht']
  rfl

theorem holdWindowEnd_yields {a p : Nat} {reads : List Nat} {h : Hold} {s : State} (ha : a < 4) (hp : p < 92)
    (hh : (punit s (unitOf a p)).hold = some h) (hd : stepsDone s = true) (hw : windowOver s h = true) :
    Yields (.holdWindowEnd a ⟨p, reads⟩) s (withReads reads (holdExpire (unitOf a p)) s) := by
  let r := modPool (fun p => { p with reads := reads }) s
  have hh' : (punit r (unitOf a p)).hold = some h := hh
  have hw' : windowOver r h = true := hw
  have hd' : stepsDone r = true := hd
  refine yields_of_exec (execHoldWindowEnd a ⟨p, reads⟩ s) rfl ?_
  unfold execHoldWindowEnd act withReads
  dsimp only
  rw [hh']
  dsimp only
  rw [if_pos (by rw [hw', hd']; simp [ha, hp])]

theorem asicAnswer_yields {a : Nat} {s : State} (ha : a < 4) (hst : (asicSt s a).st = .dark)
    (hon : domainOn s (4 + a) = true) :
    Yields (.asicAnswer a) s
      (forAll (bringUpPorts (asicTo a .training (modAsic a (fun x => { x with answered := true, mismatches := 0 }) s)) a)
        trainAuto (asicTo a .training (modAsic a (fun x => { x with answered := true, mismatches := 0 }) s))) :=
  yields_of rfl (if_pos (by simp [ha, hst, hon]))

/-- The tables of an ASIC in PROBATION whose required ports have passed, by how many loads of them did not match. -/
theorem asicTableLoad_yields {a m : Nat} {s : State} (ha : a < 4) (hst : (asicSt s a).st = .probation)
    (hmis : (asicSt s a).mismatches < 2) (hall : (requiredPorts s a).all (fun u => (punit s u).passed) = true) :
    Yields (.asicTableLoad a m) s
      (if 2 ≤ m then raise 0x0907 [iUnit (asicUnit a)] (modAsic a (fun x => { x with mismatches := 2 }) s)
      else forAll (asicPorts a ++ (List.range 8).map fun i => hc8End (unitOf a (72 + i))) probationExit
        (asicTo a .standby (modAsic a (fun x => { x with mismatches := 0 }) s))) :=
  yields_of rfl (if_pos (by rw [hall]; simp [ha, hst, hmis]))

/-- Settles O28. -/
theorem unitEventsComplete : Obligations.UnitEventsComplete := by
  refine ⟨fun u a s h => unitAdmission_yields h, fun u a s h => unitWithdrawal_yields h,
    fun u t s hd ht h0 hh => withdrawalDrained_yields hd ht h0 hh,
    fun u reads t s hd ht => withdrawalDrainLimit_yields hd ht,
    fun a p reads h s ha hp hh hd hw => holdWindowEnd_yields ha hp hh hd (by simpa [windowOver] using hw),
    fun a s ha hst hon => asicAnswer_yields ha hst hon, fun a m s ha hst hmis hall hm => ?_,
    fun a m s ha hst hmis hall hm => ?_⟩
  · have hyield := asicTableLoad_yields (m := m) ha hst hmis hall
    rwa [if_neg (by omega)] at hyield
  · have hyield := asicTableLoad_yields (m := m) ha hst hmis hall
    rwa [if_pos hm] at hyield

end Sys2Proof.Machine
end

section
/-! Collectives, stalls, the pool and the annealing engine (08_collectives.md, 09_session_stalls.md,
10_annealing_engine.md): the guard of each event. -/

namespace Sys2Proof.Machine

open Sys2Proof

/-! ### Collectives (R340, R342 to R345, R352) -/

/-- A group's silent members are noted as failed and reported. -/
def noteMissing (key : Nat) (missing : List Nat) (s : State) : State :=
  forAll missing (fun m => raiseOnce (eventKey 0x0400 + keyGroup key * 4096 + m) 0x0400
    [(12, keyGroup key), (16, keyInstance key), (12, m)])
    (modInst key (fun c => { c with failed := c.failed ++ missing }) s)

/-- An OPEN context whose members stay silent for TIMEOUT turns goes on without them or is abandoned. -/
theorem collTimeout_yields {key : Nat} {reads : List Nat} {s : State} (hst : (instOf s key).st = .opened)
    (htime : (instOf s key).grp.timeout ≤ idleTurns s (instOf s key))
    (hmiss : missingMembers (instOf s key) ≠ [] ∨ waitsForNone (instOf s key) = true) :
    Yields (.collTimeout ⟨key, reads⟩) s
      (withReads reads (fun r =>
        if (instOf s key).grp.onFail && 0 < (instOf s key).op then
          forAll (((incomplete (instOf s key)).map (·.idx)).filter fun i => decide (i < knownChunks (instOf s key)))
            (fun i s => completeReduce key i (ensureChunk key i s)) (noteMissing key (missingMembers (instOf s key)) r)
        else abandon key causeTimeout none (noteMissing key (missingMembers (instOf s key)) r)) s) := by
  have hguard : ((decide ((instOf s key).st = .opened) &&
      decide ((instOf s key).grp.timeout ≤ idleTurns s (instOf s key))) &&
      (!(missingMembers (instOf s key)).isEmpty || waitsForNone (instOf s key))) = true := by
    rw [decide_eq_true hst, decide_eq_true htime]
    simpa [List.isEmpty_iff] using hmiss
  exact yields_of rfl (if_pos hguard)

/-- A chunk of an OPEN context that waits for another tray goes on without it or takes its context along. -/
theorem upstreamWaitEnd_yields {key idx : Nat} {reads : List Nat} {k : Chunk} {s : State}
    (hst : (instOf s key).st = .opened) (hk : (incomplete (instOf s key)).find? (fun k => k.idx == idx) = some k)
    (hwait : waitsUpstream (instOf s key) k = true)
    (htime : (instOf s key).grp.timeout * (traysBefore (instOf s key) (idx % 2) + 1) ≤ idleTurns s (instOf s key)) :
    Yields (.upstreamWaitEnd key ⟨idx, reads⟩) s
      (withReads reads (fun r => if (instOf s key).grp.onFail && 0 < (instOf s key).op then
        completeReduce key idx (modChunk key idx (fun k => { k with upFailed := true }) (ensureChunk key idx r))
      else abandon key causeTimeout none r) s) := by
  let r := modPool (fun p => { p with reads := reads }) s
  have hk' : (incomplete (instOf r key)).find? (fun k => k.idx == idx) = some k := hk
  have hguard : ((decide ((instOf r key).st = .opened) && waitsUpstream (instOf r key) k) &&
      decide ((instOf r key).grp.timeout * (traysBefore (instOf r key) (idx % 2) + 1) ≤ idleTurns r (instOf r key))) =
      true := by
    have hst' : (instOf r key).st = .opened := hst
    have hwait' : waitsUpstream (instOf r key) k = true := hwait
    rw [decide_eq_true hst', hwait']
    exact decide_eq_true htime
  refine yields_of_exec (execUpstreamWaitEnd key ⟨idx, reads⟩ s) rfl ?_
  unfold execUpstreamWaitEnd act withReads
  dsimp only
  rw [hk']
  dsimp only
  rw [if_pos hguard]
  rfl

theorem contextFree_yields {key : Nat} {s : State} (hst : (instOf s key).st = .closed ∨ (instOf s key).st = .abandoned)
    (htime : (instOf s key).stateAt + (instOf s key).grp.timeout ≤ s.reel.bounds) :
    Yields (.contextFree key) s (modTwine (fun t => { t with insts := tabSet {} t.insts key {} }) s) :=
  yields_of rfl (if_pos (by simp [hst, htime]))

/-- Settles O31: the guard of each event, and what becomes of a context by ON_FAIL. -/
theorem collectiveEventsComplete : Obligations.CollectiveEventsComplete := by
  refine ⟨fun ifc reads f s hc hr hf => ?_, fun ifc f s hc hr hf => yields_of rfl (hc8Take_of_find hc hr hf),
    fun key reads s hst htime hmiss => ?_, fun key idx reads k s hst hk hwait htime =>
      upstreamWaitEnd_yields hst hk hwait htime, fun key s hst htime => contextFree_yields hst htime⟩
  · refine yields_of rfl ?_
    exact hc8Take_of_find (k := twineArrive) (s := modPool (fun p => { p with reads := reads }) s) hc hr hf
  · have hyield := collTimeout_yields (reads := reads) hst htime hmiss
    refine ⟨fun hoff => ?_, fun hon hop => ?_⟩
    · have hno : ((instOf s key).grp.onFail && decide (0 < (instOf s key).op)) = false := by
        rcases hoff with hoff | hop
        · simp [hoff]
        · simp [hop]
      rw [hno] at hyield
      exact hyield
    · have hyes : ((instOf s key).grp.onFail && decide (0 < (instOf s key).op)) = true := by simp [hon, hop]
      rw [hyes] at hyield
      exact hyield

/-! ### Stalls (R368, R376, R377, R384, R389, R391) -/

/-- A staged block that is complete is compressed where its staging page can be read; else its push ends. -/
theorem blockCompressed_yields {n b : Nat} {reads : List Nat} {s : State} (hst : (stallOf s n).st = .filling)
    (hpack : (tabGet {} (stallOf s n).staged b).packed = none)
    (hunits : (tabGet {} (stallOf s n).staged b).units.length = 64)
    (hdefer : s.power.packers.contains ((n + b) % 16) = false) :
    let x := stallOf s n
    let page := ((x.stage.find? fun e => e.1 == b / 32).map (·.2)).getD stagingBase
    let got := poolRead page 2048 4 (modPool (fun p => { p with reads := reads }) s)
    Yields (.blockCompressed n ⟨b, reads⟩) s
      (if got.1 then
        packStall n (modStall n (fun y =>
          { y with
            staged := tabSet {} y.staged b
              { units := [], packed := some (compressBlock y.comp y.elem
                  ((List.range 64).flatMap fun i => tabGet [] (tabGet {} x.staged b).units i)) } }) got.2)
      else pushEnds n (retirePage page false got.2)) := by
  have hguard : ((decide ((stallOf s n).st = .filling) && (tabGet {} (stallOf s n).staged b).packed.isNone &&
      (tabGet {} (stallOf s n).staged b).units.length == 64) && !s.power.packers.contains ((n + b) % 16)) = true := by
    rw [decide_eq_true hst, hpack, hunits, hdefer]
    rfl
  exact yields_of rfl (if_pos hguard)

theorem stallPushTimeout_yields {n : Nat} {s : State} (hst : (stallOf s n).st = .filling)
    (htime : (stallOf s n).idleAt + (stallOf s n).timeout ≤ s.reel.bounds) :
    Yields (.stallPushTimeout n) s (pushEnds n s) :=
  yields_of rfl (if_pos (by simp [hst, htime]))

theorem recallProgress_yields {n : Nat} {reads : List Nat} {r : Recall} {s : State} (hr : recallOf s n = some r)
    (hg : r.granted = true) (hh : r.handedAt = none) :
    Yields (.recallProgress n reads) s (withReads reads (recallStep n r) s) := by
  let t := modPool (fun p => { p with reads := reads }) s
  have hr' : recallOf t n = some r := hr
  refine yields_of_exec (execRecallProgress n reads s) rfl ?_
  unfold execRecallProgress act withReads
  dsimp only
  rw [hr']
  dsimp only
  rw [hg, hh]
  rfl

theorem stallRecallDone_yields {n t : Nat} {r : Recall} {s : State} (hr : recallOf s n = some r)
    (hh : r.handedAt = some t) (htime : t + r.linger ≤ s.reel.bounds) : Yields (.stallRecallDone n) s (recallEnds r s) := by
  refine yields_of_exec (execStallRecallDone n s) rfl ?_
  unfold execStallRecallDone act
  dsimp only
  rw [hr]
  dsimp only
  rw [hh]
  dsimp only
  rw [if_pos htime]

/-- Settles O34. -/
theorem stallEventsComplete : Obligations.StallEventsComplete := by
  refine ⟨fun ifc f s hc hr hf => yields_of rfl (hc8Take_of_find hc hr hf), fun n b reads s => ?_,
    fun n s hst htime => stallPushTimeout_yields hst htime, fun n reads r s hr hg hh => recallProgress_yields hr hg hh,
    fun n r t s hr hh htime => stallRecallDone_yields hr hh htime⟩
  intro x g hst hpack hunits hdefer bytes page got
  have hyield := blockCompressed_yields (reads := reads) hst hpack hunits hdefer
  refine ⟨fun hok => ?_, fun hbad => ?_⟩
  · exact hyield.trans (congrArg (fun t => Host.Outcome.next (finish s t)) (if_pos hok))
  · exact hyield.trans (congrArg (fun t => Host.Outcome.next (finish s t))
      (if_neg (by rw [hbad]; exact Bool.false_ne_true)))

/-! ### The pool (R385, R386, R461) -/

theorem pageCopyDone_yields {page old new n : Nat} {retire : Bool} {g : StallPage} {reads : List Nat} {s : State}
    (hcopy : s.pool.copying.find? (fun c => c.1 == page) = some (old, new, retire)) (hown : pageOwner s page = some n)
    (hst : (stallOf s n).st ≠ .recalling) (hpark : retire = false → (stallOf s n).st = .parked)
    (hup : halfUp s (pageHalf new) = true)
    (hgrant : (if retire then s.power.copyGranted else s.power.migrateGranted) = true)
    (hg : ((stallOf s n).pages.find? fun g => g.page == page && !g.lost) = some g) :
    Yields (.pageCopyDone ⟨page, reads⟩) s (withReads reads (copyDone n g new retire) s) := by
  let r := modPool (fun p => { p with reads := reads }) s
  have hcopy' : r.pool.copying.find? (fun c => c.1 == page) = some (old, new, retire) := hcopy
  have hown' : pageOwner r page = some n := hown
  have hg' : ((stallOf r n).pages.find? fun g => g.page == page && !g.lost) = some g := hg
  have hfree : ¬ ((decide ((stallOf r n).st = .recalling) || !halfUp r (pageHalf new) ||
      (!retire && (stallOf r n).st != .parked) || !(if retire then r.power.copyGranted else r.power.migrateGranted)) =
      true) := by
    have hst' : (stallOf r n).st ≠ .recalling := hst
    have hup' : halfUp r (pageHalf new) = true := hup
    have hgrant' : (if retire then r.power.copyGranted else r.power.migrateGranted) = true := hgrant
    have hpark' : (!retire && (stallOf r n).st != .parked) = false := by
      cases retire with
      | false =>
        have hparked : (stallOf r n).st = .parked := hpark rfl
        rw [hparked]
        rfl
      | true => rfl
    rw [decide_eq_false hst', hup', hgrant', hpark']
    exact Bool.false_ne_true
  refine yields_of_exec (execPageCopyDone ⟨page, reads⟩ s) rfl ?_
  unfold execPageCopyDone act withReads
  dsimp only
  rw [hcopy', hown']
  dsimp only
  rw [if_neg hfree, hg']

theorem poolMigration_yields {s : State} (h0 : s.reel.tick = 0) (hpos : 0 < s.reel.bounds)
    (hmod : s.reel.bounds % 2 ^ 20 = 0) (hc : coreUp s = true) (hfirst : firstThisTurn (eventKey 0x0D00) s = true) :
    Yields .poolMigration s
      (modPool (fun p => { p with stackRead := [] })
        (poolLowCheck (migrateHalf 1 (migrateHalf 0 (useTurn (eventKey 0x0D00) s))))) := by
  have hguard : (decide (s.reel.tick = 0) && decide (0 < s.reel.bounds) && s.reel.bounds % 2 ^ 20 == 0 && coreUp s &&
      firstThisTurn (eventKey 0x0D00) s) = true := by
    rw [hc, hfirst, hmod, decide_eq_true h0, decide_eq_true hpos]
    rfl
  refine yields_of_exec (execPoolMigration s) rfl ?_
  unfold execPoolMigration act
  dsimp only
  rw [if_pos hguard]

theorem patrolRead_yields {page result : Nat} {s : State} (hgrant : s.power.patrolGranted = true)
    (hdue : patrolDue (patrolPass s) page = true) :
    Yields (.patrolRead page result) s (patrolPage page result (patrolPass s)) := by
  have hguard : (s.power.patrolGranted && patrolDue (patrolPass s) page) = true := by
    rw [hgrant, hdue, Bool.and_true]
  refine yields_of_exec (execPatrolRead page result s) rfl ?_
  unfold execPatrolRead act
  dsimp only
  rw [if_pos hguard]

/-- Settles O35. -/
theorem poolEventsComplete : Obligations.PoolEventsComplete :=
  ⟨fun _ _ _ hgrant hdue => patrolRead_yields hgrant hdue,
    fun _ _ _ _ _ _ _ _ hcopy hown hst hpark hup hgrant hg =>
      pageCopyDone_yields hcopy hown hst hpark hup hgrant hg,
    fun _ h0 hpos hmod hc hfirst => poolMigration_yields h0 hpos hmod hc hfirst⟩

/-! ### The annealing engine (R419, R425, R426, R428, R431) -/

/-- A step of the continuous phase does not halt a run. -/
theorem contStep_halted (p : Problem) (r : Run) : (contStep p r).halted = r.halted := by
  unfold contStep
  dsimp only
  split <;> rfl

theorem continuous_halted {p : Problem} : ∀ (k : Nat) {r : Run}, r.halted = false →
    (continuous p (fun _ => false) k r).halted = false
  | 0, _, h => h
  | k + 1, r, h => continuous_halted k ((contStep_halted p r).trans h)

/-- Nor does a sweep that nothing halts. -/
theorem sweep_halted {p : Problem} {r : Run} (h : r.halted = false) : (sweep p (fun _ => false) r).halted = false := by
  unfold sweep
  induction List.range p.colours generalizing r with
  | nil => exact h
  | cons c cs ih =>
    rw [List.foldl_cons]
    refine ih ?_
    rw [if_neg (by rw [h]; exact Bool.false_ne_true), if_neg Bool.false_ne_true]
    exact h

theorem polish_halted {p : Problem} : ∀ (k : Nat) {r : Run}, r.halted = false →
    (polish p (fun _ => false) k r).halted = false
  | 0, _, h => h
  | k + 1, r, h => by
    have hs := sweep_halted (p := p) h
    unfold polish
    dsimp only
    rw [if_neg (by rw [hs]; exact Bool.false_ne_true)]
    split
    · exact hs
    · exact polish_halted k hs

theorem runInit_halted (p : Problem) (seed : Nat) : (runInit p seed).halted = false := by
  unfold runInit
  dsimp only
  split <;> rfl

/-- A run that nothing halts ends complete. -/
theorem runProblem_halted (p : Problem) (seed : Nat) : (runProblem p seed fun _ => false).halted = false := by
  have hc := continuous_halted (p := p) p.steps (runInit_halted p seed)
  unfold runProblem
  dsimp only
  rw [hc]
  exact polish_halted _ rfl

/-- The run in a slot that has no lasting fault. -/
theorem runTo_of_faultless {s : State} {n : Nat} (h : s.anneal.faultAt = none) :
    (runTo s n fun _ => false) = runProblem (slotProblem s n) (slotOf s n).seed fun _ => false := by
  unfold runTo
  dsimp only
  rw [h]
  rfl

theorem annealRunStart_yields {n parity k pass : Nat} {rest : List Nat} {s : State} (hrun : s.anneal.running = none)
    (horder : s.anneal.order = n :: rest) (hon : domainOn s 1 = true) (hst : (slotOf s n).st = .queued) :
    Yields (.annealRunStart parity k pass) s
      (onlyIf (parity == 1) (modAnneal fun a => { a with transient := sat 16 (a.transient + 1) })
        (modAnneal (fun a =>
          { a with
            order := rest, running := some n, paused := false, ran := 0, since := s.reel.clock, stopAt := none
            faultAt := if 2 ≤ parity then some (k, pass) else none })
          (modSlot n (fun x => { x with st := .running }) s))) := by
  refine yields_of_exec (execAnnealRunStart parity k pass s) rfl ?_
  unfold execAnnealRunStart act
  dsimp only
  rw [hrun, horder]
  dsimp only
  rw [if_pos (by simp [hon, hst])]
  rfl

/-- A run that is neither paused nor asked to stop ends once the engine has had its time. -/
theorem annealDone_yields {n : Nat} {s : State} (hrun : s.anneal.running = some n) (hstop : s.anneal.stopAt = none)
    (hp : s.anneal.paused = false)
    (htime : (runTo s n fun _ => false).ns ≤
      engineNs s + (if (runTo s n fun _ => false).halted then finalNs (slotProblem s n) else 0)) :
    Yields .annealDone s (endRun n (runTo s n fun _ => false) false s) := by
  refine yields_of_exec (execAnnealDone s) rfl ?_
  unfold execAnnealDone act
  dsimp only
  rw [hrun]
  dsimp only
  rw [hstop, hp, if_neg (by simp), if_pos htime]

theorem annealStopEffect_yields {n t : Nat} {s : State} (hrun : s.anneal.running = some n)
    (hstop : s.anneal.stopAt = some t)
    (htime : s.anneal.paused = true ∨
      (runTo s n fun r => decide (t ≤ r.ns)).ns ≤ engineNs s + finalNs (slotProblem s n)) :
    Yields .annealStopEffect s (endRun n (runTo s n fun r => decide (t ≤ r.ns))
      (decide (t + finalNs (slotProblem s n) ≤ (runTo s n fun r => decide (t ≤ r.ns)).ns)) s) := by
  refine yields_of_exec (execAnnealStopEffect s) rfl ?_
  unfold execAnnealStopEffect act
  dsimp only
  rw [hrun, hstop]
  dsimp only
  rw [if_pos (by simpa using htime)]

/-- Settles O37: the guard of each event; a run without a lasting fault ends complete, one halted at its fault ends there. -/
theorem annealEventsComplete : Obligations.AnnealEventsComplete := by
  refine ⟨fun n rest parity k pass s hrun horder hon hst => annealRunStart_yields hrun horder hon hst,
    fun n s hrun hstop hp => ⟨fun hf => ?_, fun f hf => ?_⟩,
    fun n t s hrun hstop => fun htime => annealStopEffect_yields hrun hstop htime⟩
  · intro r htime
    have hr : (runTo s n fun _ => false) = r := runTo_of_faultless hf
    have hh : r.halted = false := runProblem_halted _ _
    have hyield := annealDone_yields hrun hstop hp (by rw [hr, hh]; exact htime)
    rw [hr, endRun, hf] at hyield
    dsimp only at hyield
    rwa [hh] at hyield
  · intro r hh htime
    have hyield := annealDone_yields hrun hstop hp (by rw [if_pos hh]; exact htime)
    rw [endRun, hf] at hyield
    dsimp only at hyield
    rwa [if_pos (by rw [hh]; rfl)] at hyield

end Sys2Proof.Machine
end

section
/-! Power (11_power_ledger.md): the guard of each event, and the ends of ramps and calibrations. -/

namespace Sys2Proof.Machine

open Sys2Proof

/-! ### Frequency steps, the ledger turn and the voltage loop (R75, R92, R448, R452, R454, R455) -/

theorem freqStep_yields {a : Sched} {s : State} (h : dueAction .freqStep none s = some a) :
    Yields .freqStep s (applyFreqStep a (schedRemove a s)) := by
  refine yields_of_exec (execFreqStep s) rfl ?_
  unfold execFreqStep act
  dsimp only
  rw [h]

theorem ledgerTurn_yields {raw : Option Nat} {s : State} (hc : coreUp s = true) (h0 : s.reel.tick = 0)
    (hfirst : firstThisTurn (eventKey 0x0D01) s = true) (hdue : ∀ a ∈ s.sched, schedDue s a = false) :
    Yields (.ledgerTurn raw) s (ledgerTurnStep raw (useTurn (eventKey 0x0D01) s)) := by
  have hguard : (coreUp s && s.reel.tick == 0 && firstThisTurn (eventKey 0x0D01) s && !(s.sched.any (schedDue s))) =
      true := by
    rw [hc, h0, hfirst, List.any_eq_false.2 fun a ha => by rw [hdue a ha]; exact Bool.false_ne_true]
    rfl
  refine yields_of_exec (execLedgerTurn raw s) rfl ?_
  unfold execLedgerTurn act
  dsimp only
  rw [if_pos hguard]

/-- Whether the voltage loop of an ASIC is to read its monitors. -/
def avsDue (a : Nat) (s : State) : Bool :=
  match tabGet 0 s.power.avsAt a with | 0 => true | t => decide (t + 1023 ≤ s.reel.bounds)

theorem avsDue_iff (a : Nat) (s : State) :
    avsDue a s = true ↔ tabGet 0 s.power.avsAt a = 0 ∨ tabGet 0 s.power.avsAt a + 1023 ≤ s.reel.bounds := by
  unfold avsDue
  split
  · next h => simp [h]
  · next t h => rw [decide_eq_true_eq, or_iff_right h]

theorem avsUpdate_yields {a needed : Nat} {s : State} (ha : a < 4) (hon : domainOn s (4 + a) = true)
    (hq : avsQuiet s = false) (hfw : fwUp s = true) :
    Yields (.avsUpdate a needed) s (avsMove a (if avsDue a s then avsRead a needed s else s)) := by
  have hguard : (decide (a < 4) && domainOn s (4 + a) && !avsQuiet s && fwUp s) = true := by
    rw [decide_eq_true ha, hon, hq, hfw]
    rfl
  refine yields_of_exec (execAvsUpdate a needed s) rfl ?_
  unfold execAvsUpdate act
  dsimp only
  rw [if_pos hguard]
  rfl

/-! ### Sensors, the coolant and the thermal level (R451, R457, R458, R462) -/

theorem thermalThreshold_yields {sensor : Nat} {raw : Int} {s : State} (hc : coreUp s = true) (h : sensor < 32) :
    Yields (.thermalThreshold sensor raw) s
      (if sensor < 26 then thermalAct sensor raw s else sensorSet sensor raw s) := by
  refine yields_of_exec (execThermalThreshold sensor raw s) rfl ?_
  unfold execThermalThreshold act
  dsimp only
  rw [if_neg (by simp [hc, h])]

theorem coolantFault_yields {flow turns : Nat} {s : State} (hc : coreUp s = true) (hf : s.power.coolantFault = false)
    (hflow : sensorCal s 30 flow < 800) (hturns : 244141 ≤ turns) :
    Yields (.coolantFault flow turns) s
      (withLevels 3 (fun p => { p with thermalLevel := 2, coolRun := 0 })
        (stick 25 (raise 0x0705 [(16, enc 16 (sensorCal s 30 flow))]
          (modPower (fun p => { p with coolantFault := true }) (sensorSet 30 flow s))))) := by
  have hguard : (coreUp s && !s.power.coolantFault && decide (sensorCal s 30 flow < minFlow) && decide (244141 ≤ turns)) =
      true := by
    rw [hc, hf, decide_eq_true hturns, decide_eq_true (show sensorCal s 30 flow < minFlow from hflow)]
    rfl
  refine yields_of_exec (execCoolantFault flow turns s) rfl ?_
  unfold execCoolantFault act
  dsimp only
  rw [if_pos hguard]
  rfl

theorem coolantRecovery_yields {flow turns : Nat} {s : State} (hf : s.power.coolantFault = true)
    (hflow : 800 ≤ sensorCal s 30 flow) (hturns : 976563 ≤ turns) :
    Yields (.coolantRecovery flow turns) s
      (sensorSet 30 flow (modPower (fun p => { p with coolantFault := false, coolRun := 0 }) s)) := by
  have hguard : (s.power.coolantFault && decide (minFlow ≤ sensorCal s 30 flow) && decide (inletTurns ≤ turns)) = true := by
    rw [hf, decide_eq_true (show minFlow ≤ sensorCal s 30 flow from hflow),
      decide_eq_true (show inletTurns ≤ turns from hturns)]
    rfl
  refine yields_of_exec (execCoolantRecovery flow turns s) rfl ?_
  unfold execCoolantRecovery act
  dsimp only
  rw [if_pos hguard]

theorem sensorFault_yields {s : State} (hrun : 16 ≤ s.power.badRun) (hf : s.power.sensorFault = false) :
    Yields .sensorFault s (raise 0x0708 [] (modPower (fun p => { p with sensorFault := true }) s)) := by
  refine yields_of_exec (execSensorFault s) rfl ?_
  unfold execSensorFault act
  dsimp only
  rw [if_pos (by simp [hrun, hf])]

theorem thermalRecovery_yields {s : State} (hcool : s.power.cfg.recover ≤ s.power.coolRun)
    (hset : s.power.setLevel < s.power.thermalLevel) (hf : s.power.coolantFault = false) :
    Yields .thermalRecovery s
      (withLevels 2 (fun p => { p with thermalLevel := p.thermalLevel - 1, coolRun := 0 }) s) := by
  refine yields_of_exec (execThermalRecovery s) rfl ?_
  unfold execThermalRecovery act
  dsimp only
  rw [if_pos (by simp [hcool, hset, hf])]

/-- Settles O40. -/
theorem powerEventsComplete : Obligations.PowerEventsComplete := by
  refine ⟨fun a s h => freqStep_yields h, fun s => rfl, fun raw s hc h0 hfirst hdue => ledgerTurn_yields hc h0 hfirst hdue,
    fun a needed s ha hon hq hfw => ⟨fun hdue => ?_, fun hne hlt => ?_⟩,
    fun sensor raw s hc h => thermalThreshold_yields hc h, fun flow turns s hc hf hflow hturns => ?_,
    fun flow turns s hf hflow hturns => coolantRecovery_yields hf hflow hturns,
    fun s hrun hf => sensorFault_yields hrun hf, fun s hcool hset hf => thermalRecovery_yields hcool hset hf⟩
  · have hyield := avsUpdate_yields (needed := needed) ha hon hq hfw
    rwa [if_pos ((avsDue_iff a s).2 hdue)] at hyield
  · have hyield := avsUpdate_yields (needed := needed) ha hon hq hfw
    rwa [if_neg (by rw [avsDue_iff]; omega)] at hyield
  · exact coolantFault_yields hc hf hflow hturns

/-! ### The end of a ramp (R371, R441, R464) -/

theorem hc8Queue_tray (asics : List Nat) (f : Frame) (s : State) : (hc8Queue asics f s).2.tray = s.tray := by
  unfold hc8Queue
  dsimp only
  split <;> rfl

theorem flowSet_tray (dst chan n : Nat) (s : State) : (flowSet dst chan n s).tray = s.tray := by
  unfold flowSet
  split
  · exact forAll_keeps State.tray _ _ _ fun _ _ => rfl
  · rfl

/-- What the HC-8 sends leaves the tray's states. -/
theorem hc8Post_tray (f : Frame) (s : State) : (hc8Post f s).tray = s.tray := by
  have hq := hc8Queue_tray (hc8Asics s f.dst) (hc8Frame s f) s
  unfold hc8Post hc8Send
  dsimp only
  split
  · rw [flowSet_tray]
    exact hq
  · rfl

theorem msix_tray (vector : Nat) (s : State) : (msix vector s).tray = s.tray := by
  unfold msix
  split
  · split <;> rfl
  · rfl

theorem crierQueue_tray (f : CFrame) (s : State) : (crierQueue f s).tray = s.tray := by
  unfold crierQueue
  split <;> rfl

theorem signalDone_tray (n : Nat) (payload : List Byte) (s : State) : (signalDone n payload s).tray = s.tray := by
  unfold signalDone
  dsimp only
  split
  · split
    · exact msix_tray _ _
    · rfl
  · rw [hc8Post_tray]
    rfl
  · rw [crierQueue_tray]
    rfl

theorem flushEvents_booting (s : State) : (flushEvents s).tray.booting = s.tray.booting := by
  change (flushEvents s).hull.tray.booting = s.hull.tray.booting
  rw [flushEvents_hull]

theorem doneState_tray (n : Nat) (header res : List Byte) (s : State) : (doneState n header res s).tray = s.tray := rfl

theorem completeWith_booting (n : Nat) (header res : List Byte) (s : State) :
    (completeWith n header res s).tray.booting = s.tray.booting := by
  have h : completeWith n header res s = signalDone n (header ++ res) (doneState n header res (flushEvents s)) := rfl
  rw [h, signalDone_tray, doneState_tray, flushEvents_booting]

/-- The end of a long command does not end a boot. -/
theorem endLong_booting (l : Long) (status : Nat) (res : List Byte) (s : State) :
    (endLong l status res s).tray.booting = s.tray.booting := by
  unfold endLong
  dsimp only
  rw [completeWith_booting, modMail_tray]

theorem poolLowCheck_tray (s : State) : (poolLowCheck s).tray = s.tray := by
  unfold poolLowCheck
  split
  · split <;> rfl
  · split <;> rfl

theorem parkCheck_tray (n : Nat) (s : State) : (parkCheck n s).tray = s.tray := by
  unfold parkCheck
  dsimp only
  split
  · split <;> rfl
  · rfl

theorem packHalt_tray (n cause : Nat) (s : State) : (packHalt n cause s).tray = s.tray := by
  unfold packHalt
  split <;> rfl

theorem packInto_tray (n : Nat) (blocks : List CBlock) (page : StallPage) (fresh : Bool) (s : State) :
    (packInto n blocks page fresh s).tray = s.tray := by
  unfold packInto poolIo chargePj modStall
  simp only [if_true, count_tray, countWin_tray, modPower_tray, modPool_tray]

theorem packLoop_tray (n : Nat) : ∀ (k : Nat) (s : State), (packLoop n k s).tray = s.tray
  | 0, _ => rfl
  | k + 1, s => by
    unfold packLoop
    dsimp only
    split
    · split
      · rw [packLoop_tray n k, parkCheck_tray, packInto_tray]
      · split
        · exact packHalt_tray n 0 s
        · split
          · exact packHalt_tray n 1 s
          · rw [packLoop_tray n k, parkCheck_tray, poolLowCheck_tray, packInto_tray]
            rfl
    · rfl

theorem resumePacking_tray (s : State) : (resumePacking s).tray = s.tray := by
  unfold resumePacking
  rw [poolLowCheck_tray]
  exact forAll_keeps State.tray _ _ _ fun n t => packLoop_tray n _ _

/-- The end of a ramp, but for cartridge management. -/
theorem domainRampDone_yields {d : Nat} {s : State} (hd : d ≠ 8) (hr : s.power.ramping = some d) :
    let t := modPower (fun p => { p with ramping := none }) s
    let e := onlyIf (d == 2 || d == 3) resumePacking
      (match longOp t 0x0702 with
        | some l => endLong l stOk [] t
        | none => t)
    Yields (.domainRampDone d) s (onlyIf e.tray.booting bootNextDomain e) := by
  intro t e
  have hd' : (d == 8) = false := by simpa using hd
  refine yields_of_exec (execDomainRampDone d s) rfl ?_
  unfold execDomainRampDone act rampDone
  rw [if_pos hr]
  dsimp only
  rw [hd', onlyIf_of_false rfl] <;> rfl

theorem onlyIf_resumePacking_booting (c : Bool) (s : State) :
    (onlyIf c resumePacking s).tray.booting = s.tray.booting := by
  cases c with
  | false => rfl
  | true => exact congrArg Tray.booting (resumePacking_tray s)

/-! ### A domain that fails, and the end of a calibration (R464, R466 to R468) -/

theorem domainFail_yields {d : Nat} {s : State} (h : s.power.on.contains d = true) :
    Yields (.domainFail d) s
      (if d = 0 then coreGone (drawFree s).1 (drawFree s).2 else safeCheck (domainOff d (drawFree s).1 (drawFree s).2)) := by
  refine yields_of_exec (execDomainFail d s) rfl ?_
  unfold execDomainFail act
  dsimp only
  rw [if_pos h]

/-- A calibration that ends well, after one attempt or two. -/
theorem calDone_yields {held : Bool} {readings : List Int} {l : Long} {s : State} (hl : longOp s 0x0708 = some l)
    (hatt : l.attempts = 1 ∨ l.attempts = 2)
    (htrim : l.subject = 0 → l.limit ≤ s.reel.clock + 1000000000 ∧ held = true) :
    let gone := modMail (fun m => { m with long := (m.long.erase l) ++ [l] }) s
    Yields (.calDone true held readings) s
      (endLong l stOk [] (raiseCalDone l stOk (if l.subject = 0 then trimSensors readings gone else gone))) := by
  intro gone
  have hshown : ({ l with attempts := min l.attempts 2 } : Long) = l := by
    have hmin : min l.attempts 2 = l.attempts := by omega
    rw [hmin]
  have hearly : (decide (l.subject = 0) && decide (s.reel.clock + 1000000000 < l.limit)) = false := by
    by_cases hs : l.subject = 0
    · have := (htrim hs).1
      simp [hs, this]
    · simp [hs]
  have hheld : (decide (l.subject = 0) && !held) = false := by
    by_cases hs : l.subject = 0
    · simp [(htrim hs).2]
    · simp [hs]
  have honce : (l.attempts == 3) = false := by
    rcases hatt with h | h <;> rw [h] <;> rfl
  refine yields_of_exec (execCalDone true held readings s) rfl ?_
  unfold execCalDone act
  dsimp only
  rw [hl]
  dsimp only
  rw [hearly, if_neg Bool.false_ne_true, hheld, if_neg Bool.false_ne_true, if_pos rfl, honce, onlyIf_of_false rfl, hshown]

/-- Settles O41: the end of a ramp by whether a POWER_DOMAIN_SET or the boot waits for it; a domain that fails; a
calibration that ends well. -/
theorem powerEndingsComplete : Obligations.PowerEndingsComplete := by
  refine ⟨fun d s hd hr => ?_, fun d s h => domainFail_yields h,
    fun held readings l s hl hatt htrim => calDone_yields hl hatt htrim⟩
  intro t half
  have hyield := domainRampDone_yields hd hr
  refine ⟨fun l hl hboot => ?_, fun hl hboot => ?_⟩
  · have hl' : longOp t 0x0702 = some l := hl
    have hend : (onlyIf (d == 2 || d == 3) resumePacking (endLong l stOk [] t)).tray.booting = false := by
      rw [onlyIf_resumePacking_booting, endLong_booting]
      exact hboot
    dsimp only at hyield
    rw [hl'] at hyield
    dsimp only at hyield
    rwa [hend, onlyIf_of_false rfl] at hyield
  · have hl' : longOp t 0x0702 = none := hl
    have hend : (onlyIf (d == 2 || d == 3) resumePacking t).tray.booting = true := by
      rw [onlyIf_resumePacking_booting]
      exact hboot
    dsimp only at hyield
    rw [hl'] at hyield
    dsimp only at hyield
    rwa [hend, onlyIf_of_true rfl] at hyield

end Sys2Proof.Machine
end

section
/-! The ledger and Crier (02_reel_time.md, 12_crier_and_agreement.md): the guard of each event. -/

namespace Sys2Proof.Machine

open Sys2Proof

/-! ### The ledger exchange (R491, R495, R506, R517) -/

theorem ledgerExchange_yields {s : State} (hsend : ledgerSends s = true) (h0 : s.reel.tick = 0)
    (hperiod : s.reel.turn % checkPeriod s = 0) (hfirst : firstThisTurn (eventKey 0x0D02) s = true)
    (hdone : boundaryDone s = true) :
    Yields .ledgerExchange s
      (ledgerCompare .period (forAll (peersStored s.ledger) (ledgerSend (sampleRecord s.reel.turn s))
        (modLedger (fun l =>
            { l with own := some (sampleRecord s.reel.turn s), peers := peersStored s.ledger, peersNext := none })
          (useTurn (eventKey 0x0D02) s)))) := by
  have hguard : (ledgerSends s && s.reel.tick == 0 && s.reel.turn % checkPeriod s == 0 &&
      firstThisTurn (eventKey 0x0D02) s && boundaryDone s) = true := by
    rw [hsend, h0, hperiod, hfirst, hdone]
    rfl
  refine yields_of_exec (execLedgerExchange s) rfl ?_
  unfold execLedgerExchange act
  dsimp only
  rw [if_pos hguard]
  rfl

theorem ledgerPeerSilent_yields {tray : Nat} {r : Record} {s : State} (hr : recordOf s tray = some r)
    (hc : coreUp s = true) (hpeer : s.ledger.peers.contains tray = true) (hcur : recCurrent s r = false)
    (hsil : s.ledger.silent.contains tray = false) :
    Yields (.ledgerPeerSilent tray) s
      (raise 0x0825 [(8, tray)] (modLedger (fun l => { l with silent := l.silent ++ [tray] }) s)) := by
  have hguard : (coreUp s && s.ledger.peers.contains tray && !recCurrent s r && !s.ledger.silent.contains tray) =
      true := by
    rw [hc, hpeer, hcur, hsil]
    rfl
  refine yields_of_exec (execLedgerPeerSilent tray s) rfl ?_
  unfold execLedgerPeerSilent act
  dsimp only
  rw [hr]
  dsimp only
  rw [if_pos hguard]

/-! ### Agreed actions (R75, R198, R287, R303, R503, R568) -/

theorem tableBankSwitch_yields {a : Sched} {s : State} (h : dueAction .tableSwitch none s = some a) :
    Yields .tableBankSwitch s (applyTableSwitch a s) := by
  refine yields_of_exec (execTableBankSwitch s) rfl ?_
  unfold execTableBankSwitch act
  dsimp only
  rw [h]

theorem planBankSwap_yields {a : Sched} {s : State} (h : dueAction .planSwap none s = some a) :
    Yields .planBankSwap s (applyPlanSwap a s) := by
  refine yields_of_exec (execPlanBankSwap s) rfl ?_
  unfold execPlanBankSwap act
  dsimp only
  rw [h]

theorem unscheduledExit_yields {a : Sched} {s : State} (h : dueAction .resume none s = some a) :
    Yields .unscheduledExit s (applyResume a s) := by
  refine yields_of_exec (execUnscheduledExit s) rfl ?_
  unfold execUnscheduledExit act
  dsimp only
  rw [h]

/-- A resume with no cause against it takes an UNSCHEDULED tray to its return state. -/
theorem applyResume_of_free {a : Sched} {s : State} (hst : s.tray.st = .unscheduled)
    (hreel : s.reel.st = .locked ∨ s.reel.st = .bench)
    (hadm : s.tray.returnSt = .admitted → s.plan.inForce ≠ none ∧ ledgerAgrees s = true) :
    applyResume a s = trayTo s.tray.returnSt (schedRemove a s) := by
  have hst' : ¬ ((schedRemove a s).tray.st != .unscheduled) = true := by
    rw [show (schedRemove a s).tray.st = .unscheduled from hst]
    exact Bool.false_ne_true
  have hreel' : ¬ ((schedRemove a s).reel.st != .locked && (schedRemove a s).reel.st != .bench) = true := by
    rcases hreel with h | h
    · rw [show (schedRemove a s).reel.st = .locked from h]
      exact Bool.false_ne_true
    · rw [show (schedRemove a s).reel.st = .bench from h]
      exact Bool.false_ne_true
  have hplan : ¬ ((schedRemove a s).tray.returnSt == .admitted && (schedRemove a s).plan.inForce.isNone) = true := by
    intro hbad
    rw [Bool.and_eq_true, beq_iff_eq, Option.isNone_iff_eq_none] at hbad
    exact (hadm hbad.1).1 hbad.2
  have hledger : ¬ ((schedRemove a s).tray.returnSt == .admitted && !ledgerAgrees (schedRemove a s)) = true := by
    intro hbad
    rw [Bool.and_eq_true, beq_iff_eq, Bool.not_eq_true'] at hbad
    exact Bool.false_ne_true (hbad.2.symm.trans (hadm hbad.1).2)
  unfold applyResume
  dsimp only
  rw [if_neg hst', if_neg hreel', if_neg hplan, if_neg hledger, if_pos rfl]
  rfl

/-- Settles O44. -/
theorem ledgerAndAgreementEventsComplete : Obligations.LedgerAndAgreementEventsComplete := by
  refine ⟨fun s hsend h0 hperiod hfirst hdone => ledgerExchange_yields hsend h0 hperiod hfirst hdone,
    fun ifc f s hc hr hf => yields_of rfl (hc8Take_of_find hc hr hf),
    fun tray r s hr hc hpeer hcur hsil => ledgerPeerSilent_yields hr hc hpeer hcur hsil,
    fun a s h => tableBankSwitch_yields h, fun a s h => planBankSwap_yields h, fun a s h hst hreel hadm => ?_⟩
  have hyield := unscheduledExit_yields h
  rwa [applyResume_of_free hst hreel hadm] at hyield

/-! ### Sending on Crier (R482, R485 to R487, R489, R492) -/

/-- The mode stands where it is the receiver's. -/
theorem crierMode_of_agreed {s : State} (h : reelTimed s = s.crier.slotted) : crierMode s = s := by
  unfold crierMode
  rw [if_pos (by rw [h]; simp)]

theorem heard_false (s : State) : heard false s = s := rfl

/-- What the tray would send in its slot: nothing of its queue in the slots 0 to 7, which carry its record. -/
def slotFrame (s : State) : Option CFrame :=
  if slotOfTurn s.reel.turn < 8 then none
  else s.crier.queue.head?.filter fun f => decide (crierTicks f ≤ (131072 - s.reel.turn % 131072) * 4096)

/-- Its slot used, for its record or for a queued frame. -/
def useSlot (o : Option CFrame) (s : State) : State :=
  let t := modCrier (fun c => { c with slotSent := some s.reel.turn }) s
  match o with
  | none => crierLedger s.reel.turn t
  | some f => crierStart f (modCrier (fun c => { c with queue := c.queue.drop 1 }) t)

/-- An own slot in which the tray has something to send, with no carrier before it. -/
theorem crierSlotStart_yields {energy : Int} {s : State} (hcar : carrierOn s energy = false) (hsend : crierSends s = true)
    (hslot : s.crier.slotted = true) (htimed : reelTimed s = true) (h0 : s.reel.tick = 0)
    (hturn : s.reel.turn % 8192 = 0) (hown : slotOwner s.reel.turn = busIndex s)
    (hsent : s.crier.slotSent ≠ some s.reel.turn) (hgo : slotOfTurn s.reel.turn < 8 ∨ (slotFrame s).isSome = true) :
    Yields (.crierSlotStart energy) s (useSlot (slotFrame s) s) := by
  have hmode : crierMode s = s := crierMode_of_agreed (htimed.trans hslot.symm)
  have hguard : (crierSends s && s.crier.slotted && s.reel.tick == 0 && s.reel.turn % 8192 == 0 &&
      slotOwner s.reel.turn == busIndex s && s.crier.slotSent != some s.reel.turn) = true := by
    rw [hsend, hslot, h0, hturn, hown]
    simpa using hsent
  have hgo' : (decide (slotOfTurn s.reel.turn < 8) || (slotFrame s).isSome) = true := by simpa using hgo
  refine yields_of_exec (execCrierSlotStart energy s) rfl ?_
  unfold execCrierSlotStart act
  dsimp only
  rw [hmode, hcar, if_pos hguard]
  exact congrArg (fun t => Host.Outcome.next (finish s t)) (if_pos hgo')

theorem slotFrame_of_record {s : State} (h : slotOfTurn s.reel.turn < 8) : slotFrame s = none := if_pos h

theorem slotFrame_of_queue {s : State} {f : CFrame} {rest : List CFrame} (h : 8 ≤ slotOfTurn s.reel.turn)
    (hq : s.crier.queue = f :: rest) (hfits : crierTicks f ≤ (131072 - s.reel.turn % 131072) * 4096) :
    slotFrame s = some f := by
  unfold slotFrame
  rw [if_neg (by omega), hq]
  exact Option.filter_some_pos (decide_eq_true hfits)

/-- A backoff wait that has passed without carrier. -/
theorem crierBackoffEnd_yields {energy : Int} {s : State} (hslot : s.crier.slotted = false) (htimed : reelTimed s = false) :
    Yields (.crierBackoffEnd energy) s
      (let r := heard (carrierOn s energy) s
       if backoffReady r && r.crier.waitEnd.any fun t => decide (t ≤ r.reel.clock) then
        if backoffLedgerDue r then
          crierLedger r.reel.turn (modCrier (fun c => { c with ledgerAt := some r.reel.bounds }) r)
        else match r.crier.queue with
          | f :: t => crierStart f (modCrier (fun c => { c with queue := t }) r)
          | [] => r
      else r) := by
  have hmode : crierMode s = s := crierMode_of_agreed (htimed.trans hslot.symm)
  refine yields_of_exec (execCrierBackoffEnd energy s) rfl ?_
  unfold execCrierBackoffEnd act
  dsimp only
  rw [hmode] <;> rfl

theorem crierFrameEnded_yields {s : State} (hsend : s.crier.sending.isSome = true) (hend : s.crier.sendEnd ≤ s.reel.clock) :
    Yields .crierFrameEnded s
      (crierMode (count (hc8Ctr 15) 1 (modCrier (fun c => { c with
        sending := none, quietAt := some s.reel.clock, tx := sat 32 (c.tx + 1) }) s))) := by
  refine yields_of_exec (execCrierFrameEnded s) rfl ?_
  unfold execCrierFrameEnded act
  dsimp only
  rw [if_pos (by rw [hsend, decide_eq_true hend]; rfl)]

/-! ### Receiving on Crier (R482, R508 to R511) -/

/-- A slot clash raises its event and leaves the rest. -/
theorem slotClash_eq (turn : Nat) (start : Bool) (s : State) :
    ∃ ev once, slotClash turn start s = { s with ev := ev, once := once } := by
  unfold slotClash
  split
  · unfold raiseSeldom
    dsimp only
    split
    · exact ⟨_, _, rfl⟩
    · exact ⟨s.ev, s.once, rfl⟩
  · exact ⟨s.ev, s.once, rfl⟩

/-- The bytes that follow a delimiter at symbol k, their first word and the length that it names. -/
abbrev heardBytes (tones : List Nat) (k : Nat) : List Byte := tonesBytes (tones.drop (k + 8))
abbrev heardWord (tones : List Nat) (k : Nat) : Nat := wordBe (heardBytes tones k) 0
abbrev heardLen (tones : List Nat) (k : Nat) : Nat := fld (heardWord tones k) 7 0

/-- A frame that was heard whole, is in order and is meant for this tray is passed on. -/
theorem crierFrameReceive_yields {tones : List Nat} {loud : List (Nat × Nat)} {slot k : Nat} {start : Bool} {s : State}
    (hc : coreUp s = true) (hr : s.tray.restart ≠ .warming) (hk : delimiterAt tones = some k)
    (her : someErased s loud tones.length = false) (hlong : 10 + heardLen tones k ≤ (heardBytes tones k).length)
    (hcrc : crc16 ((heardBytes tones k).take (8 + heardLen tones k)) =
      ofBe (((heardBytes tones k).drop (8 + heardLen tones k)).take 2))
    (htype : fld (heardWord tones k) 15 12 < 3) (hmax : heardLen tones k ≤ 246)
    (hsrc : fld (heardWord tones k) 23 16 ≠ s.tray.number)
    (hdst : bit (heardWord tones k) 11 = true ∨ fld (heardWord tones k) 31 24 = s.tray.number) :
    Yields (.crierFrameReceive tones loud slot start) s
      (crierPass slot (fld (heardWord tones k) 23 16) (fld (heardWord tones k) 15 12)
        (((heardBytes tones k).take (8 + heardLen tones k)).drop 8) (slotClash slot start (heard true s))) := by
  obtain ⟨ev, once, hclash⟩ := slotClash_eq slot start (heard true s)
  have hnum : (slotClash slot start (heard true s)).tray.number = s.tray.number := by rw [hclash]; rfl
  have her' : someErased (slotClash slot start (heard true s)) loud tones.length = false := by rw [hclash]; exact her
  have hgo : ¬ (!coreUp s || s.tray.restart == .warming) = true := by simp [hc, hr]
  have hcrc' : ¬ (decide ((heardBytes tones k).length < 10 + heardLen tones k) ||
      crc16 ((heardBytes tones k).take (8 + heardLen tones k)) !=
        ofBe (((heardBytes tones k).drop (8 + heardLen tones k)).take 2)) = true := by
    rw [hcrc]
    simpa using hlong
  have hform : ¬ (decide (3 ≤ fld (heardWord tones k) 15 12) || decide (246 < heardLen tones k)) = true := by
    simp only [Bool.or_eq_true, decide_eq_true_eq]
    omega
  have hmine : ¬ (!bit (heardWord tones k) 11 &&
      fld (heardWord tones k) 31 24 != (slotClash slot start (heard true s)).tray.number) = true := by
    rw [hnum]
    rcases hdst with h | h
    · simp [h]
    · simp [h]
  refine yields_of_exec (execCrierFrameReceive tones loud slot start s) rfl ?_
  unfold execCrierFrameReceive act
  dsimp only
  rw [if_neg hgo, her', if_neg Bool.false_ne_true, hk]
  dsimp only [Option.getD_some]
  rw [if_neg (by simp), if_neg hcrc', if_neg hform, if_neg (by rw [hnum]; exact hsrc), if_neg hmine]

/-- A trim that ends well, after one attempt or two, undisturbed. -/
theorem crierTrimDone_yields {energy gain : Int} {noise : Nat} {l : Long} {s : State} (hl : longOp s 0x0822 = some l)
    (hquiet : trimDisturbed energy l s = false) (hatt : l.attempts = 1 ∨ l.attempts = 2)
    (htime : l.limit ≤ s.reel.clock + 800000000) :
    Yields (.crierTrimDone true energy gain noise) s
      (endLong l stOk [] (raiseTrimDone stOk
        (trimCrier gain noise (trimTones (modMail (fun m => { m with long := (m.long.erase l) ++ [l] }) s))))) := by
  have hshown : ({ l with attempts := min l.attempts 2 } : Long) = l := by
    have hmin : min l.attempts 2 = l.attempts := by omega
    rw [hmin]
  have honce : (l.attempts == 3) = false := by
    rcases hatt with h | h <;> rw [h] <;> rfl
  refine yields_of_exec (execCrierTrimDone true energy gain noise s) rfl ?_
  unfold execCrierTrimDone act
  dsimp only
  rw [hl]
  dsimp only
  rw [hquiet, if_neg Bool.false_ne_true, if_neg (by omega : ¬ l.attempts = 3), if_neg (by omega), if_pos rfl, honce,
    onlyIf_of_false rfl, hshown]

/-- Settles O45: what the tray sends in an own slot and at the end of a backoff wait, and what it does with a frame. -/
theorem crierFramesComplete : Obligations.CrierFramesComplete := by
  refine ⟨fun energy s hcar hsend hslot htimed h0 hturn hown hsent => ?_,
    fun energy t s hcar hsend hslot htimed hwait htime => ⟨fun hdue => ?_, fun f rest hdue hq => ?_⟩,
    fun energy s hcar hslot htimed => ?_, fun s hsend hend => crierFrameEnded_yields hsend hend,
    fun tones loud slot start k s hc hr hk her => ?_,
    fun energy gain noise l s hl hquiet hatt htime => crierTrimDone_yields hl hquiet hatt htime⟩
  · intro t
    refine ⟨fun hrec => ?_, fun f rest hslots hq hfits => ?_⟩
    · have hyield := crierSlotStart_yields hcar hsend hslot htimed h0 hturn hown hsent (.inl hrec)
      rwa [slotFrame_of_record hrec] at hyield
    · have hf := slotFrame_of_queue hslots hq hfits
      have hyield := crierSlotStart_yields hcar hsend hslot htimed h0 hturn hown hsent (.inr (by rw [hf]; rfl))
      rw [hf] at hyield
      have hrest : rest = s.crier.queue.drop 1 := by rw [hq]; rfl
      rw [hrest]
      exact hyield
  · have hyield := crierBackoffEnd_yields (energy := energy) hslot htimed
    rw [hcar, heard_false] at hyield
    have hready : (backoffReady s && s.crier.waitEnd.any fun t => decide (t ≤ s.reel.clock)) = true := by
      rw [hwait, backoffReady, hsend, hslot, hdue]
      simpa using htime
    dsimp only at hyield
    rwa [if_pos hready, if_pos hdue] at hyield
  · have hyield := crierBackoffEnd_yields (energy := energy) hslot htimed
    rw [hcar, heard_false] at hyield
    have hready : (backoffReady s && s.crier.waitEnd.any fun t => decide (t ≤ s.reel.clock)) = true := by
      rw [hwait, backoffReady, hsend, hslot, hq]
      simpa using htime
    dsimp only at hyield
    rw [if_pos hready, if_neg (by rw [hdue]; exact Bool.false_ne_true), hq] at hyield
    exact hyield
  · have hyield := crierBackoffEnd_yields (energy := energy) hslot htimed
    rw [hcar] at hyield
    have hnot : ¬ (backoffReady (heard true s) &&
        (heard true s).crier.waitEnd.any fun t => decide (t ≤ (heard true s).reel.clock)) = true := by
      rw [show (heard true s).crier.waitEnd = none from rfl]
      simp
    dsimp only at hyield
    rwa [if_neg hnot] at hyield
  · intro bytes w len hlong hcrc htype hmax hsrc hdst
    exact crierFrameReceive_yields hc hr hk her hlong hcrc htype hmax hsrc hdst

end Sys2Proof.Machine
end

section
/-! The front panel, asks and bays (13_front_panel_and_service.md): the guard of each event. -/

namespace Sys2Proof.Machine

open Sys2Proof

/-! ### The panel (R521 to R528) -/

theorem panelSample_yields {raw : Contacts} {s : State} (hup : aonUp s = true) (h0 : s.reel.tick = 0)
    (hturn : s.reel.turn % 128 = 0) (hfirst : firstThisTurn (eventKey 0x0D03) s = true) :
    Yields (.panelSample raw) s (samplePanel raw (useTurn (eventKey 0x0D03) s)) := by
  have hguard : (aonUp s && s.reel.tick == 0 && s.reel.turn % 128 == 0 && firstThisTurn (eventKey 0x0D03) s) = true := by
    rw [hup, h0, hturn, hfirst]
    rfl
  refine yields_of_exec (execPanelSample raw s) rfl ?_
  unfold execPanelSample act
  dsimp only
  rw [if_pos hguard]

section Find

variable {s : State} (hup : panelUp s = true)
include hup

theorem trayFindPressed_yields (hdue : s.panel.find.shortDue = true) :
    Yields .trayFindPressed s
      (raise 0x0920 [iFlag s.panel.trayFind.isNone]
        (forAll (numbers 16 fun b => (bay s b).find.isSome) (fun b => modBay b fun y => { y with find := none })
          (modPanel (fun p =>
            { p with
              find := { p.find with shortDue := false }
              trayFind := if s.panel.trayFind.isNone then some (findEnd s) else none }) s))) := by
  refine yields_of_exec (execTrayFindPressed s) rfl ?_
  unfold execTrayFindPressed act
  dsimp only
  rw [if_pos (by rw [hup, hdue]; rfl)]
  rfl

theorem lampTest_yields (hdue : holdDue s s.panel.find = true) (hlamp : s.panel.lampTest = none) :
    Yields .lampTest s
      (raise 0x0921 [iFlag false, (8, 16)]
        (modPanel (fun p => { p with find := { p.find with holdDone := true }, lampTest := some s.reel.bounds }) s)) := by
  have hno : ¬ (modPanel (fun p => { p with find := { p.find with holdDone := true } }) s).panel.lampTest.isSome = true := by
    rw [modPanel_panel, hlamp]
    exact Bool.false_ne_true
  refine yields_of_exec (execLampTest s) rfl ?_
  unfold execLampTest act
  dsimp only
  rw [if_pos (by rw [hup, hdue]; rfl), if_neg hno]
  rfl

theorem cartLocate_yields {b : Nat} (hb : b < 16) (hon : cartsOn s = true) (hdue : holdDue s (bay s b).ask = true) :
    Yields (.cartLocate b) s
      (raise 0x092E [(4, b)]
        (modBay b (fun y => { y with ask := { y.ask with holdDone := true }, find := some (findEnd s) }) s)) := by
  refine yields_of_exec (execCartLocate b s) rfl ?_
  unfold execCartLocate act
  dsimp only
  rw [if_pos (by rw [decide_eq_true hb, hup, hon, hdue]; rfl)]

theorem buttonStuck_find_yields (hdue : stuckDue s s.panel.find = true) :
    Yields (.buttonStuck 16) s
      (raise 0x0921 [iFlag true, (8, 16)]
        (modPanel (fun p => { p with find := { p.find with stuck := true, ignore := true } }) s)) := by
  refine yields_of_exec (execButtonStuck 16 s) rfl ?_
  unfold execButtonStuck act
  dsimp only
  rw [hup, if_neg (by decide), if_pos (by rw [hdue]; rfl)]

theorem buttonStuck_ask_yields {b : Nat} (hb : b < 16) (hon : cartsOn s = true) (hdue : stuckDue s (bay s b).ask = true) :
    Yields (.buttonStuck b) s
      (raise 0x0921 [iFlag true, (8, b)]
        (modBay b (fun y => { y with ask := { y.ask with stuck := true, ignore := true } }) s)) := by
  have hnot : ¬ (decide (b = 16) && stuckDue s s.panel.find) = true := by
    rw [decide_eq_false (by omega : ¬ b = 16)]
    exact Bool.false_ne_true
  refine yields_of_exec (execButtonStuck b s) rfl ?_
  unfold execButtonStuck act
  dsimp only
  rw [hup, if_neg (by decide), if_neg hnot, if_pos (by rw [decide_eq_true hb, hon, hdue]; rfl)]

end Find

theorem lampTestEnd_yields {t : Nat} {s : State} (h : s.panel.lampTest = some t) (htime : t + 262144 ≤ s.reel.bounds) :
    Yields .lampTestEnd s (modPanel (fun p => { p with lampTest := none }) s) := by
  refine yields_of_exec (execLampTestEnd s) rfl ?_
  unfold execLampTestEnd act
  dsimp only
  rw [if_pos (by rw [h, Option.any_some, decide_eq_true htime])]

/-- A find indication that ends at a time, and not only when it is cleared, ends at that time. -/
theorem findTimeout_tray_yields {t : Nat} {s : State} (h : s.panel.trayFind = some t) (h0 : t ≠ 0) (htime : t ≤ s.reel.bounds) :
    Yields (.findTimeout 16) s (modPanel (fun p => { p with trayFind := none }) s) := by
  refine yields_of_exec (execFindTimeout 16 s) rfl ?_
  unfold execFindTimeout act
  dsimp only
  rw [if_pos rfl, if_pos (by rw [h]; simp [h0, htime])]

theorem findTimeout_bay_yields {b t : Nat} {s : State} (hb : b < 16) (h : (bay s b).find = some t) (h0 : t ≠ 0)
    (htime : t ≤ s.reel.bounds) : Yields (.findTimeout b) s (modBay b (fun y => { y with find := none }) s) := by
  refine yields_of_exec (execFindTimeout b s) rfl ?_
  unfold execFindTimeout act
  dsimp only
  rw [if_neg (by omega : ¬ b = 16), if_pos (by rw [h]; simp [hb, h0, htime])]

/-- Settles O47. -/
theorem panelEventsComplete : Obligations.PanelEventsComplete :=
  ⟨fun _ _ hup h0 hturn hfirst => panelSample_yields hup h0 hturn hfirst,
    fun _ hup hdue => trayFindPressed_yields hup hdue,
    fun _ hup hdue hlamp => lampTest_yields hup hdue hlamp, fun _ _ h htime => lampTestEnd_yields h htime,
    fun _ _ hb hup hon hdue => cartLocate_yields hup hb hon hdue,
    fun _ hup hdue => buttonStuck_find_yields hup hdue,
    fun _ _ hb hup hon hdue => buttonStuck_ask_yields hup hb hon hdue,
    fun _ _ h h0 htime => findTimeout_tray_yields h h0 htime,
    fun _ _ _ hb h h0 htime => findTimeout_bay_yields hb h h0 htime⟩

/-! ### Asks (R529, R531, R532, R545) -/

/-- A bay that is not left in its default reads as what it was changed to. -/
theorem bay_modBay_self {b : Nat} {f : Bay → Bay} {s : State} (h : f (bay s b) ≠ {}) :
    bay (modBay b f s) b = f (bay s b) :=
  tabGet_tabSet_self _ _ _ _ h

theorem bay_ne_default {y : Bay} (h : y.presence.closed = true) : y ≠ {} := by
  rintro rfl
  exact Bool.noConfusion h

section Bays

variable {b : Nat} {s : State} (hb : b < 16)
include hb

theorem askPress_yields (hup : panelUp s = true) (hon : cartsOn s = true) (hdue : (bay s b).ask.shortDue = true) :
    Yields (.askPress b) s (askAct b (modBay b (fun y => { y with ask := { y.ask with shortDue := false } }) s)) := by
  refine yields_of_exec (execAskPress b s) rfl ?_
  unfold execAskPress act
  dsimp only
  rw [if_pos (by rw [decide_eq_true hb, hup, hon, hdue]; rfl)]

omit hb in
/-- A press while an ask of an occupied bay is pending cancels it. -/
theorem askAct_of_pending (hocc : (bay s b).presence.closed = true) (hask : (bay s b).askEnd ≠ none) :
    askAct b s = raise 0x0928 [(4, b), iFlag false] (modBay b (fun y => { y with askEnd := none }) s) := by
  unfold askAct
  dsimp only
  rw [hocc, if_neg (by decide), if_pos (Option.isSome_iff_ne_none.2 hask)]

theorem askTimeout_yields {t : Nat} (h : (bay s b).askEnd = some t) (htime : t ≤ s.reel.bounds) :
    Yields (.askTimeout b) s
      (raise 0x092A [(4, b)] (modBay b (fun y => { y with askEnd := none, deniedAt := some s.reel.bounds }) s)) := by
  refine yields_of_exec (execAskTimeout b s) rfl ?_
  unfold execAskTimeout act
  dsimp only
  rw [if_pos (by rw [h]; simp [hb, htime])]

theorem deniedDisplayEnd_yields {t : Nat} (h : (bay s b).deniedAt = some t) (htime : t + 524288 ≤ s.reel.bounds) :
    Yields (.deniedDisplayEnd b) s (modBay b (fun y => { y with deniedAt := none }) s) := by
  refine yields_of_exec (execDeniedDisplayEnd b s) rfl ?_
  unfold execDeniedDisplayEnd act
  dsimp only
  rw [if_pos (by rw [h, Option.any_some, decide_eq_true htime, decide_eq_true hb, Bool.and_true])]

/-! ### Cartridges and latches (R44, R534 to R538, R543, R548, R549, R676) -/

theorem bayLatchOpen_yields (hup : panelUp s = true) (hdue : (bay s b).openDue = true) :
    Yields (.bayLatchOpen b) s (bayOpened b s) := by
  refine yields_of_exec (execBayLatchOpen b s) rfl ?_
  unfold execBayLatchOpen act
  dsimp only
  rw [if_pos (by rw [decide_eq_true hb, hup, hdue]; rfl)]

theorem bayLatchClosed_yields (hup : panelUp s = true) (hdue : (bay s b).closeDue = true) :
    Yields (.bayLatchClosed b) s (beginSeat b s) := by
  refine yields_of_exec (execBayLatchClosed b s) rfl ?_
  unfold execBayLatchClosed act
  dsimp only
  rw [if_pos (by rw [decide_eq_true hb, hup, hdue]; rfl)]

theorem cartIdRead_yields {record : Option (List Byte)} {t : Nat} (hup : panelUp s = true) (hon : cartsOn s = true)
    (h : (bay s b).settleAt = some t) (htime : t ≤ s.reel.bounds) : Yields (.cartIdRead b record) s (idRead b record s) := by
  refine yields_of_exec (execCartIdRead b record s) rfl ?_
  unfold execCartIdRead act
  dsimp only
  rw [if_pos (by rw [decide_eq_true hb, hup, hon, h]; exact decide_eq_true htime)]

theorem cartRemoved_yields (hup : panelUp s = true) (hdue : (bay s b).goneDue = true) (hopen : (bay s b).openDue = false) :
    Yields (.cartRemoved b) s
      (raise 0x092C [(4, b), iFlag (bay (forAll (litPorts s b) portDark s) b).surprise]
        (withBay b (modBay b fun y =>
          { y with
            goneDue := false, released := false, surprise := false, seated := false, idOk := false, idBad := false
            askEnd := none, settleAt := none, deniedAt := none }) (forAll (litPorts s b) portDark s))) := by
  refine yields_of_exec (execCartRemoved b s) rfl ?_
  unfold execCartRemoved act
  dsimp only
  rw [if_pos (by rw [decide_eq_true hb, hup, hdue]; rfl), hopen, onlyIf_of_false rfl]

theorem bayMgmtOverload_yields (hon : cartsOn s = true) (hsup : (bay s b).supplied = true)
    (hocc : (bay s b).presence.closed = true) :
    Yields (.bayMgmtOverload b) s (identityBad b (modBay b (fun y => { y with supplied := false }) s)) := by
  have hbay : bay (modBay b (fun y => { y with supplied := false }) s) b = { bay s b with supplied := false } :=
    bay_modBay_self (f := fun y => { y with supplied := false }) (bay_ne_default hocc)
  refine yields_of_exec (execBayMgmtOverload b s) rfl ?_
  unfold execBayMgmtOverload act
  dsimp only
  rw [if_pos (by rw [decide_eq_true hb, hon, hsup]; rfl), hbay, if_pos hocc]

end Bays

theorem trayLatchOpen_yields {s : State} (hup : panelUp s = true) (hdue : s.panel.liftDue = true) :
    Yields .trayLatchOpen s (safeCheck (raise 0x0922 [] (modPanel (fun p => { p with liftDue := false }) s))) := by
  refine yields_of_exec (execTrayLatchOpen s) rfl ?_
  unfold execTrayLatchOpen act
  dsimp only
  rw [if_pos (by rw [hup, hdue]; rfl)]

theorem trayLatchClosed_yields {s : State} (hup : panelUp s = true) (hdue : s.panel.dropDue = true) :
    Yields .trayLatchClosed s (safeCheck (raise 0x0923 [] (modPanel (fun p => { p with dropDue := false }) s))) := by
  refine yields_of_exec (execTrayLatchClosed s) rfl ?_
  unfold execTrayLatchClosed act
  dsimp only
  rw [if_pos (by rw [hup, hdue]; rfl)]

/-- Settles O48: the guard of each event; a press while an ask is pending cancels it. -/
theorem askAndBayEventsComplete : Obligations.AskAndBayEventsComplete := by
  refine ⟨fun b s hb hup hon hdue => ?_, fun b t s hb h htime => askTimeout_yields hb h htime,
    fun b t s hb h htime => deniedDisplayEnd_yields hb h htime, fun b s hb hup hdue => bayLatchOpen_yields hb hup hdue,
    fun b s hb hup hdue => bayLatchClosed_yields hb hup hdue,
    fun b record t s hb hup hon h htime => cartIdRead_yields hb hup hon h htime,
    fun b s hb hup hdue hopen => cartRemoved_yields hb hup hdue hopen,
    fun b s hb hon hsup hocc => bayMgmtOverload_yields hb hon hsup hocc,
    fun s hup hdue => trayLatchOpen_yields hup hdue, fun s hup hdue => trayLatchClosed_yields hup hdue⟩
  intro t
  have hyield : Yields (.askPress b) s (askAct b t) := askPress_yields hb hup hon hdue
  refine ⟨hyield, fun hocc hask => ?_⟩
  have hbay : bay t b = { bay s b with ask := { (bay s b).ask with shortDue := false } } :=
    bay_modBay_self (f := fun y => { y with ask := { y.ask with shortDue := false } }) (bay_ne_default hocc)
  rwa [askAct_of_pending (by rw [hbay]; exact hocc) (by rw [hbay]; exact hask)] at hyield

end Sys2Proof.Machine
end

section
/-! Power supply, boot and restarts (14_startup_and_states.md): the guard of each event, and which images run. -/

namespace Sys2Proof.Machine

open Sys2Proof

/-! ### Power supply (R6, R39, R547, R559, R566, R578, R674) -/

/-- Settles O49. -/
theorem powerSupplyEventsComplete : Obligations.PowerSupplyEventsComplete := by
  refine ⟨fun straps found jtag s hf => ?_, fun s => rfl,
    fun us jtag s hst hread hus => yields_of rfl (if_pos (by simp [hst, hread, hus])),
    fun us s hup hon hus => yields_of rfl (if_pos (by simp [hup, hon, hus])),
    fun us s hup hus => yields_of rfl (if_pos (by simp [hup, hus])), fun us jtag s hst hb hus => ?_⟩
  · refine ⟨_, (exec_aonPowerUp straps found jtag s).trans (if_pos hf), rfl, rfl, ?_⟩
    exact finish_pending s (powerUp found jtag s)
  · refine yields_of_exec (execBrownOutRecovery us jtag s) rfl ?_
    unfold execBrownOutRecovery act
    dsimp only
    rw [if_pos (by rw [hst, hb, decide_eq_true hus]; rfl)]

/-! ### Boot (R561 to R563) -/

/-- A boot step is judged while the tray boots and has not halted. -/
theorem bootStepComplete_yields {fails0 fails1 : Bool} {flow : Nat} {s : State} (hb : s.tray.booting = true)
    (hh : s.tray.halted = false) :
    Yields (.bootStepComplete fails0 fails1 flow) s (bootStep fails0 fails1 flow s) :=
  yields_of rfl (if_pos (by simp [hb, hh]))

section BootStep

variable {fails0 fails1 : Bool} {flow : Nat} {s : State}

theorem bootStep_aon (hst : s.tray.st = .aon) (hflow : minFlow ≤ (flow : Int)) :
    bootStep fails0 fails1 flow s =
      modPower (fun p => { p with ramping := none })
        (bootTo .auth (turnOn 0 causeBoot (modPower (fun p => { p with ramping := none }) (sensorSet 30 flow s)))) := by
  unfold bootStep
  rw [hst]
  exact if_pos hflow

theorem bootStep_auth (hst : s.tray.st = .auth) :
    bootStep fails0 fails1 flow s = authenticate (fun b => if b then fails1 else fails0) s := by
  unfold bootStep
  rw [hst]

theorem bootStep_core (hst : s.tray.st = .core) : bootStep fails0 fails1 flow s = bootNextDomain (bootTo .pool s) := by
  unfold bootStep
  rw [hst]

theorem bootStep_pool (hst : s.tray.st = .pool) (hwest : bootedPast s 2 = true) (heast : bootedPast s 3 = true) :
    bootStep fails0 fails1 flow s = bootNextDomain (bootTo .switches s) := by
  unfold bootStep
  rw [hst]
  exact if_pos (by simp [hwest, heast])

theorem bootStep_switches (hst : s.tray.st = .switches)
    (hasics : ∀ a < 4, (asicSt s a).answered = true ∨ s.tray.failed.contains (4 + a) = true) :
    bootStep fails0 fails1 flow s = bootNextDomain (bootTo .lanes s) := by
  unfold bootStep
  rw [hst]
  refine if_pos (List.all_eq_true.2 fun a ha => ?_)
  rw [Bool.or_eq_true]
  exact hasics a (List.mem_range.1 ha)

theorem bootStep_lanes (hst : s.tray.st = .lanes)
    (hasics : ∀ a < 4, s.power.on.contains (4 + a) = true → (asicSt s a).st = .standby) :
    bootStep fails0 fails1 flow s = modReel (fun r => { r with waitFrom := s.reel.bounds }) (bootTo .reel s) := by
  unfold bootStep
  rw [hst]
  refine if_pos (List.all_eq_true.2 fun a ha => ?_)
  obtain ⟨hrange, hon⟩ := List.mem_filter.1 ha
  rw [hasics a (List.mem_range.1 hrange) hon]
  rfl

theorem bootStep_reel (hst : s.tray.st = .reel) (hlock : s.reel.st = .locked ∨ s.reel.st = .bench) :
    bootStep fails0 fails1 flow s = bootTo .join s := by
  unfold bootStep
  rw [hst]
  exact if_pos (by simpa using hlock)

theorem bootStep_join (hst : s.tray.st = .join) (hcomp : s.ledger.compared = true) (hq : s.ledger.quorum = true) :
    bootStep fails0 fails1 flow s = bootTo .standby s := by
  unfold bootStep
  rw [hst]
  exact if_pos (by rw [hcomp, hq]; rfl)

end BootStep

/-- Settles O50: the boot's step by the state in which the boot stands. -/
theorem bootStepsComplete : Obligations.BootStepsComplete := by
  intro fails0 fails1 flow s hb hh i
  have hyield : Yields i s (bootStep fails0 fails1 flow s) := bootStepComplete_yields hb hh
  refine ⟨fun hst hflow => ?_, fun hst => ?_, fun hst => ?_, fun hst hwest heast => ?_, fun hst hasics => ?_,
    fun hst hasics => ?_, fun hst hlock => ?_, fun hst hcomp hq => ?_⟩
  · rwa [bootStep_aon hst hflow] at hyield
  · rwa [bootStep_auth hst] at hyield
  · rwa [bootStep_core hst] at hyield
  · rwa [bootStep_pool hst hwest heast] at hyield
  · rwa [bootStep_switches hst hasics] at hyield
  · rwa [bootStep_lanes hst hasics] at hyield
  · rwa [bootStep_reel hst hlock] at hyield
  · rwa [bootStep_join hst hcomp hq] at hyield

/-! ### Restarts and limits (R573, R576, R579, R601, R615) -/

theorem bootStepLimit_core_yields {item : Nat} {s : State} (hb : s.tray.booting = true) (hh : s.tray.halted = false)
    (hlim : stepLimitPassed s = true) (hst : s.tray.st = .core) :
    Yields (.bootStepLimit item) s (stepFails trayUnit (haltWith 3 true) s) := by
  have hcore : bootLimit item s = stepFails trayUnit (haltWith 3 true) s := by
    unfold bootLimit
    rw [hst]
  refine yields_of_exec (execBootStepLimit item s) rfl ?_
  unfold execBootStepLimit act
  dsimp only
  rw [if_pos (by rw [hb, hh, hlim]; rfl), hcore]

theorem pumpRunOnEnd_yields {t : Nat} {s : State} (h : s.tray.pumpOffAt = some t) (htime : t ≤ s.reel.clock) :
    Yields .pumpRunOnEnd s
      (if s.tray.restart = .cold then
        wake wakeCold false (enterAon (domainOff 9 causePowerDown (modTray (fun y => { y with pumpOffAt := none }) s)))
       else enterAon (domainOff 9 causePowerDown (modTray (fun y => { y with pumpOffAt := none }) s))) := by
  refine yields_of_exec (execPumpRunOnEnd s) rfl ?_
  unfold execPumpRunOnEnd act
  dsimp only
  rw [if_pos (by rw [h, Option.any_some, decide_eq_true htime])]
  by_cases hc : s.tray.restart = .cold
  · rw [if_pos hc, if_pos (by rw [hc]; rfl)]
  · rw [if_neg hc, if_neg (by simpa using hc)]

theorem warmRestartLimit_yields {s : State} (hr : s.tray.restart = .warming) (hh : s.tray.halted = false)
    (htime : s.tray.restartAt + 131072 ≤ s.reel.bounds) :
    Yields .warmRestartLimit s
      (if s.tray.restartTry = 0 then modTray (fun t => { t with restartTry := 1, restartAt := s.reel.bounds }) s
       else haltWith 5 true s) := by
  refine yields_of_exec (execWarmRestartLimit s) rfl ?_
  unfold execWarmRestartLimit act
  dsimp only
  rw [if_pos (by rw [hr, hh, decide_eq_true htime]; rfl)]

theorem longCommandLimit_yields {mb : Nat} {l : Long} {s : State} (hl : longOf s mb = some l)
    (htime : l.limit ≤ s.reel.clock) :
    let shown : Long := { l with attempts := min l.attempts 2 }
    Yields (.longCommandLimit mb) s
      (endLong shown stTimeout []
        (limitEffect l (modMail (fun m => { m with long := (m.long.erase l) ++ [shown] }) s))) := by
  refine yields_of_exec (execLongCommandLimit mb s) rfl ?_
  unfold execLongCommandLimit act
  dsimp only
  rw [hl]
  dsimp only
  rw [if_pos htime]

/-- Settles O51: the guard of each event; a boot step's limit in CORE by whether it is the first. -/
theorem restartEventsComplete : Obligations.RestartEventsComplete := by
  refine ⟨fun item s hb hh hlim hst => ⟨fun htry => ?_, fun htry => ?_⟩, fun t s h htime => pumpRunOnEnd_yields h htime,
    fun s hr hl => yields_of rfl (if_pos (by simp [hr, hl])),
    fun s hr hh => yields_of rfl (if_pos (by simp [hr, hh])),
    fun s hr hh htime => warmRestartLimit_yields hr hh htime, fun mb l s hl htime => longCommandLimit_yields hl htime⟩
  · have hyield := bootStepLimit_core_yields (item := item) hb hh hlim hst
    rwa [stepFails, if_pos htry] at hyield
  · have hyield := bootStepLimit_core_yields (item := item) hb hh hlim hst
    rwa [stepFails, if_neg htry] at hyield

/-! ### Images (R561, R562) -/

/-- A slot can be read and holds an image in order, whose key is the tray's and whose signature is valid. -/
theorem imageError_eq_zero_iff (s : State) (slot fails : Bool) :
    imageError s slot fails = 0 ↔
      fails = false ∧ headerError s slot = 0 ∧ keyMatches s slot = true ∧ signatureValid s slot = true := by
  unfold imageError
  cases fails with
  | true => simp
  | false =>
    by_cases hh : headerError s slot = 0
    · by_cases hk : keyMatches s slot = true
      · by_cases hv : signatureValid s slot = true <;> simp [hh, hk, hv]
      · simp [hh, hk]
    · simp [hh]


theorem finish_st (s t : State) : (finish s t).tray.st = t.tray.st := by
  change (finish s t).arch.tray.st = t.arch.tray.st
  rw [finish_arch]

theorem finish_fw (s t : State) : (finish s t).fw = t.fw := by
  change (finish s t).arch.fw = t.arch.fw
  rw [finish_arch]

theorem onlyIf_st (c : Bool) (f : State → State) (s : State) (h : ∀ t, (f t).tray.st = t.tray.st) :
    (onlyIf c f s).tray.st = s.tray.st := onlyIf_keeps (fun s => s.tray.st) c f s h

theorem onlyIf_fw (c : Bool) (f : State → State) (s : State) (h : ∀ t, (f t).fw = t.fw) :
    (onlyIf c f s).fw = s.fw := onlyIf_keeps (fun s => s.fw) c f s h

theorem stick_st (n : Nat) (s : State) : (stick n s).tray.st = s.tray.st := by rw [stick_tray]

theorem raiseUnitState_st (u old new : Nat) (s : State) : (raiseUnitState u old new s).tray.st = s.tray.st :=
  onlyIf_st _ (raise 0x0903 [iUnit u, (4, old), (4, new)]) s (fun _ => rfl)

theorem raiseUnitState_fw (u old new : Nat) (s : State) : (raiseUnitState u old new s).fw = s.fw :=
  onlyIf_fw _ (raise 0x0903 [iUnit u, (4, old), (4, new)]) s (fun _ => rfl)

/-- The tray is in the state that it enters. -/
theorem trayTo_st (st : TState) (s : State) : (trayTo st s).tray.st = st := by
  unfold trayTo
  by_cases h : s.tray.st = st
  · rw [if_pos h]
    exact h
  · rw [if_neg h]
    dsimp only
    rw [raiseUnitState_st, stick_st, raise_tray, onlyIf_st _ (modFwd _) _ (fun _ => rfl)]
    rfl

theorem trayTo_fw (st : TState) (s : State) : (trayTo st s).fw = s.fw := by
  unfold trayTo
  by_cases h : s.tray.st = st
  · rw [if_pos h]
  · rw [if_neg h]
    dsimp only
    rw [raiseUnitState_fw, stick_fw, raise_fw, onlyIf_fw _ (modFwd _) _ (fun _ => rfl)]
    rfl

theorem bootTo_fw (st : TState) (s : State) : (bootTo st s).fw = s.fw := by
  rw [bootTo, trayTo_fw, stepDone, stepBegin]
  exact onlyIf_fw _ _ _ (fun _ => rfl)

theorem enterCore_st (slot : Bool) (s : State) : (enterCore slot s).tray.st = .core := trayTo_st _ _

theorem enterCore_running (slot : Bool) (s : State) : (enterCore slot s).fw.running = slot := by
  rw [enterCore, bootTo_fw]
  rfl

/-- Where both images are rejected the tray stays in AUTH. -/
theorem authFails_st (s : State) : (stepFails trayUnit (haltWith 2 true) s).tray.st = s.tray.st := by
  unfold stepFails
  by_cases h : s.tray.stepTries = 0
  · rw [if_pos h]
    rfl
  · rw [if_neg h, haltWith, raise_tray, lastingStep]
    change (stick 24 _).tray.st = _
    rw [stick_st]
    rfl

section Authenticate

variable {fails : Bool → Bool} {s : State}

theorem authenticate_selected (h : imageError s s.fw.selected (fails s.fw.selected) = 0) :
    authenticate fails s = enterCore s.fw.selected s := if_pos h

theorem authenticate_other (h : imageError s s.fw.selected (fails s.fw.selected) ≠ 0)
    (ho : imageError s (!s.fw.selected) (fails !s.fw.selected) = 0) :
    authenticate fails s =
      enterCore (!s.fw.selected) (fallBack s.fw.selected (imageError s s.fw.selected (fails s.fw.selected)) s) :=
  (if_neg h).trans (if_pos ho)

theorem authenticate_neither (h : imageError s s.fw.selected (fails s.fw.selected) ≠ 0)
    (ho : imageError s (!s.fw.selected) (fails !s.fw.selected) ≠ 0) :
    (authenticate fails s).tray.st = s.tray.st := by
  have hstep : authenticate fails s = stepFails trayUnit (haltWith 2 true)
      (fallBack s.fw.selected (imageError s s.fw.selected (fails s.fw.selected)) s) := (if_neg h).trans (if_neg ho)
  rw [hstep, authFails_st]
  rfl

/-- What the boot ROM does with the two images (R561, R562): it runs one whose image is in order, the selected one
first. -/
theorem authenticate_spec (hst : s.tray.st = .auth) :
    ((authenticate fails s).tray.st = .core ↔ imageError s false (fails false) = 0 ∨ imageError s true (fails true) = 0) ∧
      ((authenticate fails s).tray.st = .core →
        imageError s (authenticate fails s).fw.running (fails (authenticate fails s).fw.running) = 0) ∧
      (imageError s s.fw.selected (fails s.fw.selected) = 0 → (authenticate fails s).fw.running = s.fw.selected) := by
  have heither : ∀ b, (imageError s false (fails false) = 0 ∨ imageError s true (fails true) = 0) ↔
      imageError s b (fails b) = 0 ∨ imageError s (!b) (fails !b) = 0 := by
    intro b
    cases b with
    | false => exact Iff.rfl
    | true => exact or_comm
  rw [heither s.fw.selected]
  by_cases h : imageError s s.fw.selected (fails s.fw.selected) = 0
  · rw [authenticate_selected h, enterCore_st, enterCore_running]
    exact ⟨⟨fun _ => Or.inl h, fun _ => rfl⟩, fun _ => h, fun _ => rfl⟩
  · by_cases ho : imageError s (!s.fw.selected) (fails !s.fw.selected) = 0
    · rw [authenticate_other h ho, enterCore_st, enterCore_running]
      exact ⟨⟨fun _ => Or.inr ho, fun _ => rfl⟩, fun _ => ho, fun hs => absurd hs h⟩
    · rw [authenticate_neither h ho, hst]
      exact ⟨⟨fun hc => absurd hc (by decide), fun hg => absurd hg (not_or.2 ⟨h, ho⟩)⟩, fun hc => absurd hc (by decide),
        fun hs => absurd hs h⟩

end Authenticate

/-- Settles O54: the boot ROM's choice between the two images, each judged by `imageError`. -/
theorem onlySignedImagesRun : Obligations.OnlySignedImagesRun := by
  intro fails0 fails1 flow s hb hh hst good
  have hgood : ∀ b, good b ↔ imageError s b ((fun b => if b then fails1 else fails0) b) = 0 :=
    fun b => (imageError_eq_zero_iff s b _).symm
  have hyield : Yields (.bootStepComplete fails0 fails1 flow) s _ := bootStepComplete_yields hb hh
  rw [bootStep_auth hst] at hyield
  refine ⟨_, hyield, ?_⟩
  rw [finish_st, finish_fw, hgood, hgood, hgood, hgood]
  exact authenticate_spec hst

end Sys2Proof.Machine
end

section
/-! Reel time, mailboxes and registers: the receiver's events (R77 to R95), doorbells, claims and remote requests
(R594 to R610), the event ring and the counter window (R628 to R647). -/

namespace Sys2Proof.Machine

open Sys2Proof

/-! ### A tick's work and the ledger (R103, R230, R487) -/

theorem sendLanes_ledger (u : Nat) (lanes : List Nat) (f : Nat → Lane → List Int × Lane) (s : State) :
    (sendLanes u lanes f s).ledger = s.ledger := forAll_keeps State.ledger lanes _ s fun _ _ => rfl

theorem sendBlock_ledger (u phase : Nat) (s : State) : (sendBlock u phase s).ledger = s.ledger := by
  rw [sendBlock, sendLanes_ledger, emit_ledger]

theorem sendPatterns_ledger (u : Nat) (s : State) : (sendPatterns u s).ledger = s.ledger := sendLanes_ledger _ _ _ s

theorem sendPair_ledger (u : Nat) (idleNext : Bool) (s : State) : (sendPair u idleNext s).ledger = s.ledger := by
  unfold sendPair
  dsimp only
  rw [sendLanes_ledger, emit_ledger, onlyIf_keeps State.ledger _ _ _ (countWin_ledger _ _), modLink_ledger, modPort_ledger]

theorem sendNext_ledger (u : Nat) (s : State) : (sendNext u s).ledger = s.ledger := by
  unfold sendNext
  dsimp only
  split
  · rw [modPort_ledger, sendBlock_ledger, modPort_ledger]
  · split
    · exact sendPatterns_ledger u s
    · split
      · rw [modPort_ledger, sendBlock_ledger]
      · exact sendPair_ledger u false s

theorem idleExit_ledger (u : Nat) (s : State) : (idleExit u s).ledger = s.ledger :=
  forAll_keeps State.ledger _ _ _ fun _ _ => rfl

theorem sendTick_ledger (u : Nat) (s : State) : (sendTick u s).ledger = s.ledger := by
  unfold sendTick
  dsimp only
  split
  · split <;> rfl
  · split
    · exact idleExit_ledger u s
    · split
      · exact sendNext_ledger u s
      · rfl

theorem egressEnds_ledger (s : State) : (egressEnds s).ledger = s.ledger := by
  obtain ⟨w, hw⟩ := egressEnds_eq s
  rw [hw]

theorem crierMode_ledger (s : State) : (crierMode s).ledger = s.ledger := by
  unfold crierMode
  split
  · rfl
  · split
    · rfl
    · split <;> rfl

theorem backoffWait_ledger (s : State) : (backoffWait s).ledger = s.ledger := by
  unfold backoffWait
  split
  · exact (modCrier_ledger _ _).trans (modCrier_ledger _ s)
  · rfl

theorem tickWork_ledger (s : State) : (tickWork s).ledger = s.ledger := by
  unfold tickWork
  dsimp only
  rw [backoffWait_ledger, crierMode_ledger, forAll_keeps State.ledger _ _ _ sendTick_ledger, egressEnds_ledger]
  rfl

/-- Without an offset to follow, a tick leads to the turn that comes next on the local count. -/
theorem nextTurn_tickWork {s : State} (h : s.ledger.stepBy = none) : nextTurn (tickWork s) = s.reel.turn + 1 := by
  unfold nextTurn
  rw [tickWork_ledger, h, tickWork_reel]

/-! ### The receiver (R77, R79, R81, R83, R85, R90, R93, R95) -/

theorem referenceLoss_locked {out : Bool} {s : State} (hst : s.reel.st = .locked) (hh : isHeld s = false) :
    Yields (.referenceLoss out) s (toHoldover s.reel.turn 0 s) := by
  refine yields_of_exec (execReferenceLoss out s) rfl ?_
  unfold execReferenceLoss act
  dsimp only
  rw [hst]
  dsimp only
  rw [if_neg (by rw [hh]; exact Bool.false_ne_true)]

theorem referenceLoss_acquiring {s : State} (hst : s.reel.st = .acquiring) :
    Yields (.referenceLoss false) s (reelTo .absent (modReel trackFresh s)) := by
  refine yields_of_exec (execReferenceLoss false s) rfl ?_
  unfold execReferenceLoss act
  dsimp only
  rw [hst]
  rfl

theorem markerAbsent_yields {s : State} (hst : s.reel.st = .locked) (hm : s.reel.markerSeen = false)
    (hn : 1 ≤ s.reel.noMarker) :
    Yields .markerAbsent s (if isHeld s = true then abandonStep s else toHoldover s.reel.turn 0 s) := by
  refine yields_of_exec (execMarkerAbsent s) rfl ?_
  unfold execMarkerAbsent act
  dsimp only
  rw [if_pos (by rw [hst, hm, decide_eq_true hn]; rfl)]

theorem stepHoldAbandon_yields {lost : Bool} {s : State} (hh : isHeld s = true)
    (hend : lost = true ∨ 4096 ≤ s.reel.held) : Yields (.stepHoldAbandon lost) s (abandonStep s) := by
  refine yields_of_exec (execStepHoldAbandon lost s) rfl ?_
  unfold execStepHoldAbandon act
  dsimp only
  have hends : (lost || decide (4096 ≤ s.reel.held)) = true := by rwa [Bool.or_eq_true, decide_eq_true_iff]
  rw [if_pos (by rw [hh, hends]; rfl)]

theorem stepCtrlOnlyEnd_yields {s : State} (hs : s.reel.step = none) (ht : 128 ≤ s.reel.tick) :
    Yields .stepCtrlOnlyEnd s (modReel (fun r => { r with ctrlOnly := false }) s) := by
  refine yields_of_exec (execStepCtrlOnlyEnd s) rfl ?_
  unfold execStepCtrlOnlyEnd act
  dsimp only
  rw [if_pos (by rw [hs, decide_eq_true ht]; rfl)]

theorem holdoverExpiry_yields {s : State} (hst : s.reel.st = .holdover) (hl : s.reel.limit < s.reel.holdTurns) :
    Yields .holdoverExpiry s (unschedule (cancelAll (reelTo .free s))) := by
  refine yields_of_exec (execHoldoverExpiry s) rfl ?_
  unfold execHoldoverExpiry act
  dsimp only
  rw [if_pos (by rw [holdoverOver, hst, decide_eq_true hl]; rfl)]

theorem countUnverified_yields {s : State} (hst : s.reel.st ≠ .absent) (hn : 16 ≤ s.reel.noFrame)
    (hu : s.reel.unverified = false) :
    Yields .countUnverified s (raise 0x0812 [] (modReel (fun r => { r with unverified := true }) s)) := by
  refine yields_of_exec (execCountUnverified s) rfl ?_
  unfold execCountUnverified act
  dsimp only
  rw [if_pos (by rw [bne_iff_ne.2 hst, decide_eq_true hn, hu]; rfl)]

theorem reelWaiting_yields {s : State} (hst : s.tray.st = .reel) (hr : s.reel.st = .absent ∨ s.reel.st = .acquiring)
    (htime : s.reel.waitFrom + 131072 ≤ s.reel.bounds) :
    Yields .reelWaiting s
      (raise 0x0815 [(3, reelCode s.reel.st)] (modReel (fun r => { r with waitFrom := r.bounds }) s)) := by
  refine yields_of_exec (execReelWaiting s) rfl ?_
  unfold execReelWaiting act
  dsimp only
  have hwaits : (s.reel.st == .absent || s.reel.st == .acquiring) = true := by simpa using hr
  rw [if_pos (by rw [hst, hwaits, decide_eq_true htime]; rfl)]

theorem reelWrap_yields {s : State} (hup : aonUp s = true) (hturn : s.reel.turn = 2 ^ 48 - 1)
    (htick : s.reel.tick = 4095) (hstep : s.reel.step = none) (hby : s.ledger.stepBy = none) :
    Yields .reelWrap s (turnBoundary (2 ^ 48) (tickWork s)) := by
  have hnext : nextTurn (tickWork s) = 2 ^ 48 := by rw [nextTurn_tickWork hby, hturn, Nat.sub_add_cancel Nat.one_le_two_pow]
  have hguard : (aonUp s && s.reel.turn == 2 ^ 48 - 1 && s.reel.tick == 4095 && s.reel.step.isNone) = true := by
    rw [hup, hturn, htick, hstep, beq_self_eq_true, beq_self_eq_true]
    rfl
  refine yields_of_exec (execReelWrap s) rfl ?_
  unfold execReelWrap act
  dsimp only
  rw [if_pos hguard, tick_eq_turnBoundary hup htick hstep, hnext]

/-- Settles O56: each event's guard. -/
theorem reelEventsComplete : Obligations.ReelEventsComplete :=
  ⟨fun _ hc hst => yields_of rfl (if_pos (by simp [hc, hst])), fun _ _ hst hh => referenceLoss_locked hst hh,
    fun _ hst => referenceLoss_acquiring hst, fun _ hst hm hn => markerAbsent_yields hst hm hn,
    fun _ _ hh hend => stepHoldAbandon_yields hh hend, fun _ hs ht => stepCtrlOnlyEnd_yields hs ht,
    fun _ hst hl => holdoverExpiry_yields hst hl, fun _ hst hn hu => countUnverified_yields hst hn hu,
    fun _ hst hr htime => reelWaiting_yields hst hr htime,
    fun _ hup hturn htick hstep hby => reelWrap_yields hup hturn htick hstep hby⟩

/-! ### Doorbells, claims and remote calls (R594, R597, R606, R607, R610) -/

theorem fabricRequest_of_accept {f : Frame} {s : State}
    (h : remoteCase (fld f.w4.toNat 31 27) .fabric f.src (ctagOf f) f.payload s = .accept) :
    fabricRequest f s = remoteAccept (fld f.w4.toNat 31 27) .fabric f.src (ctagOf f) f.chan f.payload s := by
  unfold fabricRequest
  dsimp only
  rw [h]

/-- A response of TRANSPORT 0 to a call that runs. -/
theorem callResponse_zero {viaCrier trunc : Bool} {tray tag : Nat} {payload : List Byte} {r : RCall} {l : Long}
    {s : State}
    (hr : (s.mail.calls.find? fun r => r.viaCrier == viaCrier && r.tray == tray && r.tag == tag) = some r)
    (hl : longOf s r.mb = some l) :
    let block := (payload.drop 32).take (fld (wordLe (payload.take 32) 2) 27 16)
    callResponse viaCrier tray tag 0 trunc payload s =
      endLong l stOk (leBytes 4 (put 23 23 (trunc || decide (4028 < block.length)).toNat) ++ payload.take 32 ++ block.take 4028)
        (modMail (fun m => { m with calls := m.calls.erase r }) s) := by
  intro block
  unfold callResponse
  rw [hr]
  dsimp only
  rw [hl]
  dsimp only
  have hzero : put 26 24 0 = 0 := rfl
  rw [if_neg (by decide), if_pos rfl, hzero, Nat.zero_add]

theorem mailboxReq_yields {ifc : Nat} {f : Frame} {s : State} (hc : coreUp s = true) (hr : s.tray.restart ≠ .warming)
    (hf : (link s (ifcUnit ifc)).rxq.find? (fun f => f.cls == 0 && ctypeOf f == 2) = some f)
    (haccept : remoteCase (fld f.w4.toNat 31 27) .fabric f.src (ctagOf f) f.payload s = .accept) :
    Yields (.mailboxReq ifc) s (remoteAccept (fld f.w4.toNat 31 27) .fabric f.src (ctagOf f) f.chan f.payload
      (modLink (ifcUnit ifc) (fun l => { l with rxq := l.rxq.erase f }) s)) := by
  refine yields_of rfl ?_
  rw [hc8Take_of_find hc hr hf]
  exact fabricRequest_of_accept haccept

theorem mailboxRsp_yields {ifc : Nat} {f : Frame} {r : RCall} {l : Long} {s : State} (hc : coreUp s = true)
    (hwarm : s.tray.restart ≠ .warming)
    (hf : (link s (ifcUnit ifc)).rxq.find? (fun f => f.cls == 0 && ctypeOf f == 3) = some f)
    (hr : (s.mail.calls.find? fun r => r.viaCrier == false && r.tray == trayOfEid f.src && r.tag == ctagOf f) = some r)
    (hl : longOf s r.mb = some l) (hzero : fld f.w4.toNat 26 24 = 0) :
    let t := modLink (ifcUnit ifc) (fun l => { l with rxq := l.rxq.erase f }) s
    let head := f.payload.take 32
    let block := (f.payload.drop 32).take (fld (wordLe head 2) 27 16)
    let cut := bit f.w4.toNat 23 || decide (4028 < block.length)
    Yields (.mailboxRsp ifc) s
      (endLong l stOk (leBytes 4 (put 23 23 cut.toNat) ++ head ++ block.take 4028)
        (modMail (fun m => { m with calls := m.calls.erase r }) t)) := by
  intro t head block cut
  refine yields_of rfl ?_
  rw [hc8Take_of_find hc hwarm hf, hzero]
  exact callResponse_zero (s := t) hr hl

/-- Settles O58. -/
theorem mailboxEventsComplete : Obligations.MailboxEventsComplete :=
  ⟨fun v s hup => yields_of rfl (onlyIf_of_true hup (doorbell v.toNat) s),
    fun n owner s hup hn =>
      have hguard : (barUp s && decide (n < 32)) = true := by rw [hup, decide_eq_true hn]; rfl
      ⟨yields_of rfl (onlyIf_of_true hguard (claimBox n owner) s), yields_of rfl (onlyIf_of_true hguard (releaseBox n owner) s),
        yields_of rfl (onlyIf_of_true hguard (forceBox n owner) s)⟩,
    fun _ _ _ hc hr hf => fun haccept => mailboxReq_yields hc hr hf haccept,
    fun _ _ _ _ _ hc hwarm hf hr hl hzero => mailboxRsp_yields hc hwarm hf hr hl hzero⟩

/-! ### The event ring (R639, R643, R646, R647) -/

/-- Enabling a ring that is off, of a legal size and base, starts it afresh. -/
theorem evControl_enable {v : Nat} {s : State} (hoff : s.ev.enable = false) (hlo : 6 ≤ fld v 20 16)
    (hhi : fld v 20 16 ≤ 16) (hbase : fld s.ev.baseLo.toNat 11 0 = 0) :
    evControl true v s = modEv (fun e =>
      { e with
        vector := fld v 4 0, sizeLog := fld v 20 16, enable := true, write := 0, read := 0, unsignalled := 0
        ring := [] }) s := by
  have hkeep : (s.ev.enable && fld v 20 16 != s.ev.sizeLog) = false := by rw [hoff]; rfl
  have hlegal : (decide (fld v 20 16 < 6) || decide (16 < fld v 20 16) || fld s.ev.baseLo.toNat 11 0 != 0) = false := by
    rw [decide_eq_false (Nat.not_lt.2 hlo), decide_eq_false (Nat.not_lt.2 hhi), hbase]
    rfl
  unfold evControl
  dsimp only
  rw [hkeep, onlyIf_of_false rfl]
  simp only [Bool.not_true, Bool.false_eq_true, if_false, modEv_ev, hoff, hlegal]
  rfl

/-- Disabling a ring with its own SIZE_LOG. -/
theorem evControl_disable {v : Nat} {s : State} (hsize : fld v 20 16 = s.ev.sizeLog) :
    evControl false v s = modEv (fun e => { e with vector := fld v 4 0, enable := false }) s := by
  have hkeep : (s.ev.enable && fld v 20 16 != s.ev.sizeLog) = false := by rw [hsize, bne_self_eq_false, Bool.and_false]
  unfold evControl
  dsimp only
  rw [hkeep, onlyIf_of_false rfl, hsize]
  rfl

theorem evReadWrite_toNat (v : W32) (s : State) :
    evReadWrite v.toNat s =
      if (s.ev.write + 2 ^ 32 - v.toNat) % 2 ^ 32 ≤ ringSize s.ev then
        drainBacklog 1024 (modEv (fun e => { e with read := v.toNat }) s)
      else cfgError s := by
  have hmod : v.toNat % 2 ^ 32 = v.toNat := Nat.mod_eq_of_lt v.isLt
  unfold evReadWrite
  rw [hmod]

/-- Settles O59. -/
theorem eventRingCommandsComplete : Obligations.EventRingCommandsComplete :=
  ⟨fun v s hup hoff hlo hhi hbase =>
      yields_of rfl ((onlyIf_of_true hup (evControl true v.toNat) s).trans (evControl_enable hoff hlo hhi hbase)),
    fun v s hup hsize => yields_of rfl ((onlyIf_of_true hup (evControl false v.toNat) s).trans (evControl_disable hsize)),
    fun v s hup => yields_of rfl ((onlyIf_of_true hup (evReadWrite v.toNat) s).trans (evReadWrite_toNat v s)),
    fun _ => rfl, fun _ hmod hun hage => yields_of rfl (if_pos ⟨hmod, hun, hage⟩)⟩

/-! ### Registers and the counter window (R628, R630, R634 to R636) -/

theorem cwSnap_yields {v : W32} {s : State} (hup : coreUp s = true) :
    Yields (.cwSnap v) s (if v.getLsbD 30 then cwClear (cwFreeze s) else cwFreeze s) := by
  have h30 : (v ||| 0x80000000#32).getLsbD 30 = v.getLsbD 30 := by rw [BitVec.getLsbD_or]; exact Bool.or_false _
  have h31 : (v ||| 0x80000000#32).getLsbD 31 = true := by simp
  refine yields_of rfl ((onlyIf_of_true hup (cwControl (v ||| 0x80000000#32).toNat) s).trans ?_)
  rw [cwControl_toNat, h30, h31]
  rfl

theorem cwSnapDiscard_yields {v : W32} {s : State} (hup : coreUp s = true) :
    Yields (.cwSnapDiscard v) s (if v.getLsbD 30 then cwClear (cwThaw s) else cwThaw s) := by
  have h30 : (v &&& 0x7FFFFFFF#32).getLsbD 30 = v.getLsbD 30 := by rw [BitVec.getLsbD_and]; exact Bool.and_true _
  have h31 : (v &&& 0x7FFFFFFF#32).getLsbD 31 = false := by simp
  refine yields_of rfl ((onlyIf_of_true hup (cwControl (v &&& 0x7FFFFFFF#32).toNat) s).trans ?_)
  rw [cwControl_toNat, h30, h31]
  rfl

theorem cwClear_yields {v : W32} {s : State} (hup : coreUp s = true) :
    Yields (.cwClear v) s (cwClear (if v.getLsbD 31 then cwFreeze s else cwThaw s)) := by
  have h30 : (v ||| 0x40000000#32).getLsbD 30 = true := by simp
  have h31 : (v ||| 0x40000000#32).getLsbD 31 = v.getLsbD 31 := by rw [BitVec.getLsbD_or]; exact Bool.or_false _
  refine yields_of rfl ((onlyIf_of_true hup (cwControl (v ||| 0x40000000#32).toNat) s).trans ?_)
  rw [cwControl_toNat, h30, h31, onlyIf_of_true rfl]

/-- Four enabled bytes at a register's offset are one write of the word that they spell. -/
theorem barWrite_word {off v : Nat} {s : State} (hoff : off < 0x10000) (halign : off % 4 = 0) (hv : v < 2 ^ 32) :
    barWrite off ((leBytes 4 v).map some) s = regWrite off (BitVec.ofNat 32 v) s := by
  have hword : ofLe (leBytes 4 v) = v := by rw [ofLe_leBytes4, Nat.mod_eq_of_lt hv]
  have hregs : regWords off (leBytes 4 v) s = regWrite off (BitVec.ofNat 32 (ofLe (leBytes 4 v))) s := rfl
  have hbytes : ((leBytes 4 v).map some).filterMap id = leBytes 4 v := rfl
  have hwhole : (((leBytes 4 v).map some).all (·.isSome) && ((leBytes 4 v).map some).length % 4 == 0 && off % 4 == 0)
      = true := by
    simp [leBytes, halign]
  unfold barWrite
  dsimp only
  rw [hwhole, hbytes, if_neg (by omega), if_neg (by omega), if_pos rfl, hregs, hword]

theorem barWrite_buffer {off : Nat} {data : List (Option Byte)} {s : State} (hrec : s.tray.recovery = false)
    (hlo : 0x10000 ≤ off) (hhi : off + data.length ≤ 0x30000) (hne : data ≠ []) :
    barWrite off data s = bufBytes (off - 0x10000) data s := by
  have hpos := List.length_pos_of_ne_nil hne
  have hin : 0x10000 ≤ off ∧ off < 0x30000 := ⟨hlo, by omega⟩
  unfold barWrite
  dsimp only
  rw [if_pos hin, if_neg (by simp [hrec]), List.take_of_length_le (by omega)]

/-- Settles O60. -/
theorem registerCommandsComplete : Obligations.RegisterCommandsComplete :=
  ⟨fun _ _ hup => ⟨exec_cwSelect hup, cwSnap_yields hup, cwSnapDiscard_yields hup, cwClear_yields hup⟩,
    fun off s hup hlow => yields_of rfl (onlyIf_of_true (by rw [hup, hlow]; rfl) _ s),
    fun off v s hup hoff halign hv =>
      yields_of rfl ((onlyIf_of_true hup (barWrite off _) s).trans (barWrite_word hoff halign hv)),
    fun off data s hup hrec hlo hhi hne =>
      yields_of rfl ((onlyIf_of_true hup (barWrite off data) s).trans (barWrite_buffer hrec hlo hhi hne)),
    fun _ _ hup => exec_pcieLinkReset hup⟩

end Sys2Proof.Machine
end

section
/-! LANE_PATTERN_SET (03_lanes.md R145): the pattern that starts takes its own seed, which the statement leaves out. -/

namespace Sys2Proof.Machine

open Sys2Proof

/-- A tray in STANDBY with a LANE_PATTERN_SET at its execution point in mailbox 0: the lanes 0 to 3 of port 5, which is
DARK, are to send pattern 1; the generator of lane 0 stands at 1. -/
def patternSetReady : State :=
  { tray := { st := .standby }
    power := { on := [0] }
    ports := [(5, { l0 := { txPrbs := 1 } })]
    mail :=
      { boxes := [(0, { boxAtReset 0 with st := .queued })]
        order := [0]
        mem := [(2, 0x07), (3, 0x01), (8, 8), (32, 5), (36, 0x01), (37, 0x1E)] } }

/-- The command seeds the lane's generator for its pattern. -/
theorem patternSetReady_seeds :
    (laneOf (port (writeCommand 0x0107 0 0 lanePatternSetBody patternSetReady) 5) 0).txPrbs = 127 := by decide

theorem port_arch (s : State) (u : Nat) : port s.arch u = port s u := rfl

/-- Refutes O16: in `patternSetReady` LANE_PATTERN_SET leaves lane 0 of port 5 with the seed of pattern 1, not with the
generator that it had. -/
theorem not_laneSettingsComplete : ¬ Obligations.LaneSettingsComplete := by
  intro h
  obtain ⟨-, -, -, hpattern⟩ := h
  obtain ⟨u, hu, harch, -⟩ :=
    hpattern 0 5 0x1E01 patternSetReady (by decide) (by decide) (by decide) (by decide) (by decide)
  have hanswer : exec (.lanePatternSet 0 0) patternSetReady =
    .next (finish patternSetReady (writeCommand 0x0107 0 0 lanePatternSetBody patternSetReady)) := rfl
  rw [hanswer] at hu
  cases hu
  have hlane := congrArg (fun s => (laneOf (port s 5) 0).txPrbs) harch
  rw [port_arch, port_arch, finish_port, patternSetReady_seeds] at hlane
  exact absurd hlane (by decide)

end Sys2Proof.Machine
end

section
/-! The lane commands that read, and the start of a one-shot adaptation (03_lanes.md R120, R136, R140, R141, R144). -/

namespace Sys2Proof.Machine

open Sys2Proof

/-! ### Argument blocks of the length that a table gives (R603) -/

section Lengths

variable {op mb w0 w1 w2 w3 : Nat} {s : State} {v : Verdict}

theorem lenIs_none (h : Ready op mb [] s) : lenIs (cmdOf op mb 0 s) 0 v = v := lenIs_of_eq (len_ready h) v
theorem lenIs_one (h : Ready op mb [w0] s) : lenIs (cmdOf op mb 0 s) 4 v = v := lenIs_of_eq (len_ready h) v
theorem lenIs_two (h : Ready op mb [w0, w1] s) : lenIs (cmdOf op mb 0 s) 8 v = v := lenIs_of_eq (len_ready h) v
theorem lenIs_three (h : Ready op mb [w0, w1, w2] s) : lenIs (cmdOf op mb 0 s) 12 v = v := lenIs_of_eq (len_ready h) v
theorem lenIs_four (h : Ready op mb [w0, w1, w2, w3] s) : lenIs (cmdOf op mb 0 s) 16 v = v :=
  lenIs_of_eq (len_ready h) v

end Lengths

/-! ### Port and lane addresses (R136) -/

section Addresses

variable {c : Cmd} {w0 : Nat} {p : Port}

theorem paUnit_of (h : argW c 0 = w0) : paUnit c = addressUnit w0 := by rw [paUnit, h, addressUnit]

theorem paBad_of (h : argW c 0 = w0) (ha : AddressOk w0) : paBad c = false := by
  obtain ⟨hport, hside⟩ := ha
  rw [paBad, h]
  rw [decide_eq_false (Nat.not_le.2 hport), Bool.false_or]
  cases hb : bit w0 11 with
  | false => rfl
  | true =>
    obtain ⟨hlo, hhi⟩ := hside hb
    have hctrl : isCtrl (fld w0 6 0) = true := by simp [isCtrl, hlo, hhi]
    rw [hctrl]
    rfl

theorem laneBad_of (h : argW c 0 = w0) (hl : LaneOk w0 p) : laneBad c p = false := by
  unfold laneBad paAllLanes paLane laneCount
  rw [h]
  rcases hl with hall | hlane
  · rw [hall]
    rfl
  · rw [decide_eq_false (Nat.not_le.2 hlane), Bool.and_false]

theorem namedLanes_of (h : argW c 0 = w0) : namedLanes c p = addressLanes w0 p := by
  unfold namedLanes addressLanes paAllLanes paLane laneCount
  rw [h]

end Addresses

/-! ### PORT_STATUS_GET and LANE_EQ_GET (R141, R144) -/

theorem portStatusGet_completes {mb w0 : Nat} {s : State} (h : Ready 0x0104 mb [w0] s) (ha : AddressOk w0) :
    Completes (.portStatusGet mb 0) mb s stOk true (leWords (portWords s (addressUnit w0))) s := by
  have hw := argW_zero h
  have hbody : portStatusGetBody (cmdOf 0x0104 mb 0 s) (popOrder s) =
      report (portWords (popOrder s) (addressUnit w0)) (popOrder s) := by
    unfold portStatusGetBody
    rw [lenIs_one h, argChecks_one (paBad_of hw ha), paUnit_of hw]
  exact completes_done' (body := portStatusGetBody) rfl h rfl hbody rfl rfl rfl

theorem laneEqGet_completes {mb w0 w1 : Nat} {s : State} (h : Ready 0x0106 mb [w0, w1] s) (ha : AddressOk w0)
    (hl : LaneOk w0 (port s (addressUnit w0))) (hrate : fld w1 1 0 < 3) :
    let u := addressUnit w0
    let k := if bit w0 12 then 0 else fld w0 10 9
    Completes (.laneEqGet mb 0) mb s stOk true
      (leWords (eqWords (eqFactoryOf u k (fld w1 1 0)) ++ eqWords (eqOverlay s u k (fld w1 1 0)) ++
        eqWords (eqInForce s u k (fld w1 1 0)) ++ eqWords (eqAdapted s u k (fld w1 1 0)))) s := by
  intro u k
  have hw := argW_zero h
  have hrate' : (fld w1 1 0 == 3) = false := by simpa using Nat.ne_of_lt hrate
  have hbody : laneEqGetBody (cmdOf 0x0106 mb 0 s) (popOrder s) =
      report (eqWords (eqFactoryOf u k (fld w1 1 0)) ++ eqWords (eqOverlay (popOrder s) u k (fld w1 1 0)) ++
        eqWords (eqInForce (popOrder s) u k (fld w1 1 0)) ++ eqWords (eqAdapted (popOrder s) u k (fld w1 1 0)))
        (popOrder s) := by
    have hlane : laneBad (cmdOf 0x0106 mb 0 s) (port (popOrder s) (addressUnit w0)) = false := laneBad_of hw hl
    unfold laneEqGetBody
    dsimp only
    rw [lenIs_two h, paUnit_of hw, argW_one h, argChecks_two (by rw [paBad_of hw ha, hlane]; rfl) hrate',
      paAllLanes, paLane, hw]
  exact completes_done' (body := laneEqGetBody) rfl h rfl hbody rfl rfl rfl

/-- Settles O14. -/
theorem laneReadsComplete : Obligations.LaneReadsComplete :=
  ⟨fun _ _ _ h ha => portStatusGet_completes h ha, fun _ _ _ _ h ha hl hrate => laneEqGet_completes h ha hl hrate⟩

/-! ### LANE_ADAPT with MODE 0 (R120, R140) -/

/-- A port end in service or in probation. -/
theorem adaptable_of {p : Port} (h : p.st = .probation ∨ p.st = .standby ∨ p.st = .admitted) :
    (!(p.st == .probation || p.st == .standby || p.st == .admitted)) = false := by
  rcases h with h | h | h <;> rw [h] <;> rfl

section LaneAdapt

variable {mb w0 w1 : Nat} {s : State} (h : Ready 0x0103 mb [w0, w1] s) (ha : AddressOk w0)
  (hl : LaneOk w0 (port s (addressUnit w0)))
  (hst : (port s (addressUnit w0)).st = .probation ∨ (port s (addressUnit w0)).st = .standby ∨
    (port s (addressUnit w0)).st = .admitted)
  (hlanes : ∀ k ∈ addressLanes w0 (port s (addressUnit w0)),
    laneAdapts s (port s (addressUnit w0)) (laneOf (port s (addressUnit w0)) k) = true)
  (hbusy : longBusy s 0x0103 (addressUnit w0) = false)

include h ha hl hst hlanes hbusy

/-- With every named lane able to adapt, MODE 0 starts a run; so it does whatever the order of execution. -/
theorem laneAdaptBody_start {t : State} (ht : modMail (fun _ => t.mail) s = t) (hlong : t.mail.long = s.mail.long)
    (hmode : fld w1 1 0 = 0) :
    laneAdaptBody (cmdOf 0x0103 mb 0 s) t = .start (addressUnit w0) (80 * 4096)
      (modPort (addressUnit w0) (fun p => { p with adapt := some (adaptRun mb (addressLanes w0 (port s (addressUnit w0)))
        (addressLanes w0 (port s (addressUnit w0))) 1 p s) }) t) := by
  have hw := argW_zero h
  have hport : port t (addressUnit w0) = port s (addressUnit w0) := by rw [← ht]; rfl
  have hadapts : ∀ l, laneAdapts t (port s (addressUnit w0)) l = laneAdapts s (port s (addressUnit w0)) l := by
    intro l
    rw [← ht]
    rfl
  have hrun : ∀ named p, adaptRun mb named named 1 p t = adaptRun mb named named 1 p s := by
    intro named p
    rw [← ht]
    rfl
  have hbusy' : longBusy t 0x0103 (addressUnit w0) = false := by rw [longBusy, hlong]; exact hbusy
  have hrefused : ((addressLanes w0 (port s (addressUnit w0))).filter fun k =>
      !laneAdapts t (port s (addressUnit w0)) (laneOf (port s (addressUnit w0)) k)) = [] := by
    refine List.filter_eq_nil_iff.2 fun k hk => ?_
    rw [hadapts, hlanes k hk]
    exact Bool.false_ne_true
  unfold laneAdaptBody
  dsimp only
  rw [lenIs_two h, paUnit_of hw, argW_one h, hmode, hport, namedLanes_of hw, hrefused,
    argChecks_two (by rw [paBad_of hw ha, laneBad_of hw hl]; rfl) (show ((0 : Nat) == 3) = false from rfl), check_of_false (adaptable_of hst),
    if_neg (by simp), check_of_false hbusy', if_pos rfl]
  simp only [mb_ready, hrun]

/-- A lane's refusal is what is counted as a skip; nothing is where the command starts. -/
theorem laneAdaptSkips_start (hmode : fld w1 1 0 = 0) : laneAdaptSkips mb 0 s = [] := by
  unfold laneAdaptSkips
  dsimp only
  rw [laneAdaptBody_start h ha hl hst hlanes hbusy rfl rfl hmode]
  split <;> rfl

theorem laneAdapt_starts (hmode : fld w1 1 0 = 0) :
    let named := addressLanes w0 (port s (addressUnit w0))
    Starts (.laneAdapt mb 0) 0x0103 mb (addressUnit w0) (80 * 4096) false s
      (modPort (addressUnit w0) (fun p =>
        { p with adapt := some { mb := mb, lanes := named, retry := named, run := 1, start := s.reel.bounds,
                                 before := named.map fun k => fomSum (laneOf (port s (addressUnit w0)) k),
                                 saved := named.map fun k => (laneOf (port s (addressUnit w0)) k).adapts } }) s) := by
  intro named
  have hexec : exec (.laneAdapt mb 0) s = act (writeCommand 0x0103 mb 0 laneAdaptBody) s := by
    change execLaneAdapt mb 0 s = _
    unfold execLaneAdapt act
    dsimp only
    rw [laneAdaptSkips_start h ha hl hst hlanes hbusy hmode]
    rfl
  exact starts_blind (f := modPort (addressUnit w0) _) hexec h rfl
    (laneAdaptBody_start h ha hl hst hlanes hbusy rfl rfl hmode) (fun _ _ => rfl) rfl

end LaneAdapt

/-- Settles O17: no named lane is refused, so the command starts and no skip is counted. -/
theorem laneAdaptStarts : Obligations.LaneAdaptStarts :=
  fun _ _ _ _ h ha hl hmode hst hlanes hbusy => laneAdapt_starts h ha hl hst hlanes hbusy hmode

end Sys2Proof.Machine
end

section
/-! Commands whose effect does not look at the mailboxes: the operations that are so, the unit commands (R259, R263 to
R266), the plan commands (R308 to R316) and the reel commands (R94, R97 to R99). -/

namespace Sys2Proof.Machine

open Sys2Proof

/-! ### Operations that neither read nor change the mailboxes -/

/-- A choice that does not depend on the mailboxes, between two such effects. -/
theorem ite_modMail {p q : Prop} [Decidable p] [Decidable q] {g : Mail → Mail} {a b a' b' : State} (h : p ↔ q)
    (ha : a = modMail g a') (hb : b = modMail g b') : (if p then a else b) = modMail g (if q then a' else b') := by
  by_cases hq : q
  · rw [if_pos (h.2 hq), if_pos hq, ha]
  · rw [if_neg (fun hp => hq (h.1 hp)), if_neg hq, hb]

theorem MailBlind.onlyIf {f : State → State} (h : MailBlind f) (c : Bool) : MailBlind (onlyIf c f) := by
  intro g s
  cases c with
  | true => exact h g s
  | false => rfl

theorem MailBlind.forAll {α : Type} {f : α → State → State} (h : ∀ a, MailBlind (f a)) (l : List α) :
    MailBlind (forAll l f) := by
  intro g s
  induction l generalizing s with
  | nil => rfl
  | cons a l ih =>
    have hcons : ∀ t, Machine.forAll (a :: l) f t = Machine.forAll l f (f a t) := fun _ => rfl
    rw [hcons, hcons, h a g s, ih]

/-! ### The checks of a command that places an action (R72 to R74) -/

section Placing

variable {kind : SKind} {unit turn : Nat} {s : State}

theorem turnTooFar_of_le (h : tsub turn s.reel.turn ≤ 2 ^ 32) : turnTooFar turn s = false := by
  rw [turnTooFar, decide_eq_false (Nat.not_lt.2 h), Bool.false_and]

theorem turnTooNear_of_range (hlo : 4 ≤ tsub turn s.reel.turn) (hhi : tsub turn s.reel.turn ≤ 2 ^ 32) :
    turnTooNear turn s = false := by
  rw [turnTooNear, decide_eq_false (by omega), decide_eq_false (by omega), Bool.or_false]

theorem Placeable.far (h : Placeable kind unit turn s) : turnTooFar turn s = false :=
  let ⟨_, _, hhi, _⟩ := h
  turnTooFar_of_le hhi

theorem Placeable.near (h : Placeable kind unit turn s) : turnTooNear turn s = false :=
  let ⟨_, hlo, hhi, _⟩ := h
  turnTooNear_of_range hlo hhi

theorem Placeable.timed (h : Placeable kind unit turn s) : untimed s = false := h.1

theorem Placeable.free (h : Placeable kind unit turn s) : schedTaken kind unit turn s = false :=
  let ⟨_, _, _, hfree, _⟩ := h
  hfree

theorem Placeable.room (h : Placeable kind unit turn s) : schedFull s = false :=
  let ⟨_, _, _, _, hroom⟩ := h
  hroom

end Placing

theorem argTurn_one {op mb w0 w1 w2 : Nat} {ws : List Nat} {s : State} (h : Ready op mb (w0 :: w1 :: w2 :: ws) s) :
    argTurn (cmdOf op mb 0 s) 1 = turnOf w1 w2 := by
  rw [argTurn, argW_one h, argW_two h, turnOf]

/-! ### Reel time (R94, R97 to R99) -/

theorem reelTo_blind (st : RState) : MailBlind (reelTo st) := by
  intro g s
  unfold reelTo
  exact ite_modMail Iff.rfl rfl rfl

theorem benchEnter_blind (id start : Nat) : MailBlind (benchEnter id start) := by
  intro g s
  unfold benchEnter reelTo
  exact ite_modMail Iff.rfl rfl rfl

theorem reelConfigSet_completes {mb w0 : Nat} {s : State} (h : Ready 0x0810 mb [w0] s) (hlim : fld w0 12 0 ≤ 4096) :
    Completes (.reelConfigSet mb 0) mb s stOk false [] (modReel (fun r => { r with limitNext := some (fld w0 12 0) }) s) := by
  refine completes_blind (f := modReel fun r => { r with limitNext := some (fld w0 12 0) }) (body := reelConfigSetBody)
    rfl h rfl ?_ (fun _ _ => rfl)
  unfold reelConfigSetBody
  dsimp only
  rw [lenIs_one h, argW_zero h, argChecks_one (decide_eq_false (Nat.not_lt.2 hlim))]
  rfl

theorem reelBenchSet_enter {mb w0 w1 w2 : Nat} {s : State} (h : Ready 0x0812 mb [w0, w1, w2] s)
    (hst : s.tray.st ≠ .admitted) (hon : bit w0 0 = true) :
    Completes (.reelBenchSet mb 0) mb s stOk false [] (benchEnter (fld w0 15 8) (turnOf w1 w2) s) := by
  refine completes_blind (body := reelBenchSetBody) rfl h rfl ?_ (benchEnter_blind _ _)
  have hst' : ((popOrder s).tray.st == .admitted) = false := beq_false_of_ne hst
  unfold reelBenchSetBody
  dsimp only
  rw [lenIs_three h, check_of_false hst', argW_zero h, if_pos hon, argTurn_one h]
  rfl

theorem reelBenchSet_leave {mb w0 w1 w2 : Nat} {s : State} (h : Ready 0x0812 mb [w0, w1, w2] s)
    (hst : s.tray.st ≠ .admitted) (hoff : bit w0 0 = false) (hb : s.reel.st = .bench) :
    Completes (.reelBenchSet mb 0) mb s stOk false []
      (reelTo .acquiring (modReel (fun r => { trackFresh r with timeValid := false, step := none }) s)) := by
  refine completes_blind (f := fun s => reelTo .acquiring (modReel (fun r => { trackFresh r with timeValid := false, step := none }) s))
    (body := reelBenchSetBody) rfl h rfl ?_ ((reelTo_blind _).comp fun _ _ => rfl)
  have hst' : ((popOrder s).tray.st == .admitted) = false := beq_false_of_ne hst
  unfold reelBenchSetBody
  dsimp only
  rw [lenIs_three h, check_of_false hst', argW_zero h, if_neg (by rw [hoff]; exact Bool.false_ne_true),
    if_pos (show (popOrder s).reel.st = .bench from hb)]
  rfl

theorem reelBenchSet_none {mb w0 w1 w2 : Nat} {s : State} (h : Ready 0x0812 mb [w0, w1, w2] s)
    (hst : s.tray.st ≠ .admitted) (hoff : bit w0 0 = false) (hb : s.reel.st ≠ .bench) :
    Completes (.reelBenchSet mb 0) mb s stOk false [] s := by
  refine completes_blind (f := id) (body := reelBenchSetBody) rfl h rfl ?_ (fun _ _ => rfl)
  have hst' : ((popOrder s).tray.st == .admitted) = false := beq_false_of_ne hst
  unfold reelBenchSetBody
  dsimp only
  rw [lenIs_three h, check_of_false hst', argW_zero h, if_neg (by rw [hoff]; exact Bool.false_ne_true),
    if_neg (show ¬ (popOrder s).reel.st = .bench from hb)]
  rfl

/-- Settles O55. -/
theorem reelCommandsComplete : Obligations.ReelCommandsComplete :=
  ⟨fun _ _ _ h hlim => reelConfigSet_completes h hlim,
    fun _ _ h => completes_done' (body := reelStatusGetBody) rfl h rfl (lenIs_none h) rfl rfl rfl,
    fun _ _ _ _ _ h hst => ⟨fun hon => reelBenchSet_enter h hst hon, fun hoff hb => reelBenchSet_leave h hst hoff hb,
      fun hoff hb => reelBenchSet_none h hst hoff hb⟩⟩

/-! ### The unit commands (R263 to R266) -/

section Units

variable {c : Cmd} {w0 : Nat}

theorem uaUnit_of (h : argW c 0 = w0) : uaUnit c = namedUnit w0 := by
  rw [uaUnit, h]
  rfl

theorem uaBad_of (h : argW c 0 = w0) (hu : UnitOk w0) : uaBad c = false := by
  obtain ⟨hport, hside⟩ := hu
  have hports : (fld w0 14 13 == 0 && decide (92 ≤ fld w0 6 0)) = false := by
    by_cases hk : fld w0 14 13 = 0
    · rw [decide_eq_false (Nat.not_le.2 (hport hk)), Bool.and_false]
    · rw [beq_false_of_ne hk, Bool.false_and]
  rw [uaBad, h]
  rw [hports, Bool.false_or]
  cases hb : bit w0 15 with
  | false => rfl
  | true =>
    obtain ⟨hk, hlo, hhi⟩ := hside hb
    have hctrl : isCtrl (fld w0 6 0) = true := by simp [isCtrl, hlo, hhi]
    rw [hk, hctrl]
    rfl

theorem unitBad_of (h : argW c 0 = w0) (hu : UnitOk w0) (hside : bit w0 15 = false) : unitBad c = false := by
  rw [unitBad, uaBad_of h hu, h, hside]
  rfl

theorem paBadNoSide_of (h : argW c 0 = w0) (hport : fld w0 6 0 < 92) : paBadNoSide c = false := by
  rw [paBadNoSide, h, decide_eq_false (Nat.not_le.2 hport)]

theorem paAsicEnd_of (h : argW c 0 = w0) : paAsicEnd c = asicEnd (addressUnit w0) := by rw [paAsicEnd, paUnit_of h]

end Units

/-- UNIT_ADMIT or UNIT_WITHDRAW with nothing against it places its action. -/
theorem unitCommand_applied {kind : SKind} {op mb w0 w1 w2 : Nat} {wanted : State → Nat → Bool} {s t : State}
    (h : Ready op mb [w0, w1, w2] s) (hu : UnitOk w0) (hside : bit w0 15 = false)
    (hplace : Placeable kind (namedUnit w0) (turnOf w1 w2) t) (hbolt : boltBoundary t (turnOf w1 w2) = true)
    (hwanted : wanted t (namedUnit w0) = true) (htray : uKind (namedUnit w0) = 3 ∨ t.tray.st = .admitted)
    (hasic : asicReady t (namedUnit w0) (turnOf w1 w2) = true) :
    unitCommand kind op wanted (cmdOf op mb 0 s) t =
      applied (schedAdd ⟨kind, namedUnit w0, turnOf w1 w2, op, false, .none⟩ t) := by
  have hw := argW_zero h
  have htray' : (uKind (namedUnit w0) != 3 && t.tray.st != .admitted) = false := by
    rcases htray with hk | hst
    · rw [hk]
      rfl
    · rw [hst, Bool.and_comm]
      rfl
  unfold unitCommand
  dsimp only
  rw [lenIs_three h, uaUnit_of hw, argTurn_one h, argChecks_two (unitBad_of hw hu hside) hplace.far,
    check_of_false (by rw [hplace.timed, hbolt, hwanted, htray', hasic]; rfl),
    check_of_false (by rw [hplace.near, hplace.free]; rfl), check_of_false hplace.room]

theorem unitWithdraw_completes {mb w0 w1 w2 : Nat} {s : State} (h : Ready 0x0901 mb [w0, w1, w2] s) (hu : UnitOk w0)
    (hside : bit w0 15 = false) (hplace : Placeable .withdraw (namedUnit w0) (turnOf w1 w2) s)
    (hbolt : boltBoundary s (turnOf w1 w2) = true) (hst : unitState s (namedUnit w0) = 4)
    (htray : uKind (namedUnit w0) = 3 ∨ s.tray.st = .admitted)
    (hasic : asicReady s (namedUnit w0) (turnOf w1 w2) = true) :
    Completes (.unitWithdraw mb 0) mb s stOk false []
      (schedAdd ⟨.withdraw, namedUnit w0, turnOf w1 w2, 0x0901, false, .none⟩ s) :=
  completes_blind (f := schedAdd _) (body := unitWithdrawBody) rfl h rfl
    (unitCommand_applied (t := popOrder s) h hu hside hplace hbolt (beq_iff_eq.2 hst) htray hasic) (fun _ _ => rfl)

/-- What UNIT_ADMIT of an ASIC does before it is judged (R259): the ASIC's table mismatches are cleared. -/
def mismatchesCleared (u : Nat) (s : State) : State :=
  if uKind u = 2 then modAsic (uAsic u) (fun x => { x with mismatches := 0 }) s else s

theorem mismatchesCleared_blind (u : Nat) : MailBlind (mismatchesCleared u) := by
  intro g s
  exact ite_modMail Iff.rfl rfl rfl

theorem retryLoad_eq {mb w0 w1 w2 : Nat} {s : State} (h : Ready 0x0900 mb [w0, w1, w2] s) (hu : UnitOk w0)
    (hside : bit w0 15 = false) : retryLoad mb s = mismatchesCleared (namedUnit w0) s := by
  have hw := argW_zero h
  have hlen : (cmdOf 0x0900 mb 0 s).len = 12 := len_ready h
  have hpoint : atPoint 0x0900 mb s = true := h.2.1
  unfold retryLoad mismatchesCleared
  dsimp only
  rw [hpoint, hlen, uaUnit_of hw, unitBad_of hw hu hside]
  by_cases hk : uKind (namedUnit w0) = 2 <;> simp [hk]

theorem pCode_eq_three {st : PState} (h : pCode st = 3) : st = .standby := by
  revert h
  cases st <;> decide

/-- The ASIC is in STANDBY before and after its mismatches are cleared. -/
theorem inStandby_cleared {u : Nat} {s : State} (h : inStandby s u = true) :
    inStandby (mismatchesCleared u s) u = true := by
  unfold mismatchesCleared
  by_cases hk : uKind u = 2
  · have hthree : ¬ uKind u = 3 := by rw [hk]; decide
    have hcode : ∀ t, inStandby t u = (pCode (asicSt t (uAsic u)).st == 3) := by
      intro t
      unfold inStandby unitState
      rw [if_neg hthree, hk] <;> rfl
    rw [hcode] at h
    have hst := pCode_eq_three (beq_iff_eq.1 h)
    have hne : ({ asicSt s (uAsic u) with mismatches := 0 } : Asic) ≠ {} := by
      intro he
      have hdark := congrArg Asic.st he
      rw [show (_ : PState) = .standby from hst] at hdark
      cases hdark
    rw [if_pos hk, hcode]
    have hself : asicSt (modAsic (uAsic u) (fun x => { x with mismatches := 0 }) s) (uAsic u) =
        { asicSt s (uAsic u) with mismatches := 0 } := tabGet_tabSet_self _ _ _ _ hne
    rw [hself]
    exact h
  · rw [if_neg hk]
    exact h

/-- The mismatches of an ASIC do not bear on whether it is ready for the units of it. -/
theorem asicReady_cleared {u turn : Nat} {s : State} (h : asicReady s u turn = true) :
    asicReady (mismatchesCleared u s) u turn = true := by
  unfold mismatchesCleared
  by_cases hk : uKind u = 2
  · rw [if_pos hk]
    unfold asicReady
    rw [hk]
    rfl
  · rw [if_neg hk]
    exact h

/-- Clearing the mismatches leaves time, the plan and what is scheduled as they are. -/
theorem mismatchesCleared_asics (u : Nat) (s : State) : ∃ a, mismatchesCleared u s = { s with asics := a } := by
  unfold mismatchesCleared
  by_cases hk : uKind u = 2
  · rw [if_pos hk]
    exact ⟨_, rfl⟩
  · rw [if_neg hk]
    exact ⟨s.asics, rfl⟩

/-- The body of UNIT_ADMIT with the mismatches cleared first. -/
def admitBodyCleared (u : Nat) (c : Cmd) (s : State) : Verdict := unitAdmitBody c (mismatchesCleared u s)

theorem unitAdmitBody_applied {mb w0 w1 w2 : Nat} {s t : State} (h : Ready 0x0900 mb [w0, w1, w2] s) (hu : UnitOk w0)
    (hside : bit w0 15 = false) (hplace : Placeable .admission (namedUnit w0) (turnOf w1 w2) t)
    (hbolt : boltBoundary t (turnOf w1 w2) = true) (hst : inStandby t (namedUnit w0) = true)
    (htray : uKind (namedUnit w0) = 3 ∨ t.tray.st = .admitted)
    (hasic : asicReady t (namedUnit w0) (turnOf w1 w2) = true) :
    admitBodyCleared (namedUnit w0) (cmdOf 0x0900 mb 0 s) t =
      applied (schedAdd ⟨.admission, namedUnit w0, turnOf w1 w2, 0x0900, false, .none⟩
        (mismatchesCleared (namedUnit w0) t)) := by
  have hst' := inStandby_cleared hst
  have hasic' := asicReady_cleared hasic
  unfold admitBodyCleared unitAdmitBody
  obtain ⟨a, ha⟩ := mismatchesCleared_asics (namedUnit w0) t
  rw [ha] at hst' hasic' ⊢
  exact unitCommand_applied h hu hside hplace hbolt hst' htray hasic'

/-- A ready UNIT_ADMIT runs as a command whose body clears the mismatches. -/
theorem exec_unitAdmit {mb w0 w1 w2 : Nat} {s t : State} (h : Ready 0x0900 mb [w0, w1, w2] s) (hu : UnitOk w0)
    (hside : bit w0 15 = false)
    (hdone : admitBodyCleared (namedUnit w0) (cmdOf 0x0900 mb 0 s) (popOrder s) = applied t) :
    exec (.unitAdmit mb 0) s = act (writeCommand 0x0900 mb 0 (admitBodyCleared (namedUnit w0))) s := by
  have hclear := retryLoad_eq h hu hside
  have hpop : popOrder (mismatchesCleared (namedUnit w0) s) = mismatchesCleared (namedUnit w0) (popOrder s) :=
    (mismatchesCleared_blind _ _ s).symm
  have hstale : staleGuard mb (popOrder s) = false := h.2.2.2.2.1
  have hready : Ready 0x0900 mb [w0, w1, w2] (mismatchesCleared (namedUnit w0) s) := by
    obtain ⟨a, ha⟩ := mismatchesCleared_asics (namedUnit w0) s
    rw [ha]
    exact h
  have hcmd : cmdOf 0x0900 mb 0 (mismatchesCleared (namedUnit w0) s) = cmdOf 0x0900 mb 0 s := by
    obtain ⟨a, ha⟩ := mismatchesCleared_asics (namedUnit w0) s
    rw [ha]
    rfl
  have hrun : writeCommand 0x0900 mb 0 unitAdmitBody (retryLoad mb s) =
      writeCommand 0x0900 mb 0 (admitBodyCleared (namedUnit w0)) s := by
    unfold writeCommand
    rw [hclear, runCommand_ready hready, runCommand_ready h, hcmd, hpop]
    rw [show unitAdmitBody (cmdOf 0x0900 mb 0 s) (mismatchesCleared (namedUnit w0) (popOrder s)) = applied t from hdone,
      hdone]
    have hstale' : staleGuard mb (mismatchesCleared (namedUnit w0) (popOrder s)) = false := by
      obtain ⟨a, ha⟩ := mismatchesCleared_asics (namedUnit w0) (popOrder s)
      rw [ha]
      exact hstale
    unfold settle applied
    dsimp only
    have hfails : ¬ 2 ≤ (cmdOf 0x0900 mb 0 s).fails := by rw [show (cmdOf 0x0900 mb 0 s).fails = 0 from rfl]; decide
    rw [mb_ready, hstale, hstale', if_neg Bool.false_ne_true, if_neg Bool.false_ne_true, if_neg hfails, if_neg hfails]
  change act (fun s => writeCommand 0x0900 mb 0 unitAdmitBody (retryLoad mb s)) s = _
  unfold act
  dsimp only
  rw [hrun]

theorem unitAdmit_completes {mb w0 w1 w2 : Nat} {s : State} (h : Ready 0x0900 mb [w0, w1, w2] s) (hu : UnitOk w0)
    (hside : bit w0 15 = false) (hplace : Placeable .admission (namedUnit w0) (turnOf w1 w2) s)
    (hbolt : boltBoundary s (turnOf w1 w2) = true) (hst : inStandby s (namedUnit w0) = true)
    (htray : uKind (namedUnit w0) = 3 ∨ s.tray.st = .admitted)
    (hasic : asicReady s (namedUnit w0) (turnOf w1 w2) = true) :
    Completes (.unitAdmit mb 0) mb s stOk false []
      (schedAdd ⟨.admission, namedUnit w0, turnOf w1 w2, 0x0900, false, .none⟩ (mismatchesCleared (namedUnit w0) s)) := by
  have hdone := unitAdmitBody_applied (t := popOrder s) h hu hside hplace hbolt hst htray hasic
  exact completes_blind (f := fun s => schedAdd _ (mismatchesCleared (namedUnit w0) s)) (exec_unitAdmit h hu hside hdone)
    h rfl hdone (MailBlind.comp (f := schedAdd _) (fun _ _ => rfl) (mismatchesCleared_blind _))

theorem holdConfigSet_completes {mb w0 w1 : Nat} {s : State} (h : Ready 0x0903 mb [w0, w1] s) (hport : fld w0 6 0 < 92)
    (hwin : fld w1 12 0 ≤ 4096) :
    Completes (.holdConfigSet mb 0) mb s stOk false []
      (forAll (if bit w1 16 then asicPorts (uAsic (asicEnd (addressUnit w0))) else [asicEnd (addressUnit w0)])
        (fun v => modPunit v fun p => { p with window := fld w1 12 0 }) s) := by
  have hw := argW_zero h
  refine completes_blind (f := forAll _ _) (body := holdConfigSetBody) rfl h rfl ?_ (MailBlind.forAll (fun _ _ _ => rfl) _)
  unfold holdConfigSetBody
  dsimp only
  rw [lenIs_two h, argW_one h, paAsicEnd_of hw,
    argChecks_two (paBadNoSide_of hw hport) (decide_eq_false (Nat.not_lt.2 hwin))]
  rfl

theorem unitStatusGet_completes {mb w0 : Nat} {s : State} (h : Ready 0x0902 mb [w0] s) (hu : UnitOk w0) :
    Completes (.unitStatusGet mb 0) mb s stOk true (leWords (unitWords s (namedUnit w0))) s := by
  have hw := argW_zero h
  have hbody : unitStatusGetBody (cmdOf 0x0902 mb 0 s) (popOrder s) =
      report (unitWords (popOrder s) (namedUnit w0)) (popOrder s) := by
    unfold unitStatusGetBody
    rw [lenIs_one h, argChecks_one (uaBad_of hw hu), uaUnit_of hw]
  exact completes_done' (body := unitStatusGetBody) rfl h rfl hbody rfl rfl rfl

theorem reseqStatusGet_completes {mb w0 : Nat} {s : State} (h : Ready 0x0904 mb [w0] s) :
    Completes (.reseqStatusGet mb 0) mb s stOk true (leWords (reseqWords s (fld w0 1 0))) s := by
  have hbody : reseqStatusGetBody (cmdOf 0x0904 mb 0 s) (popOrder s) =
      report (reseqWords (popOrder s) (fld w0 1 0)) (popOrder s) := by
    unfold reseqStatusGetBody
    rw [lenIs_one h, argW_zero h]
  exact completes_done' (body := reseqStatusGetBody) rfl h rfl hbody rfl rfl rfl

/-- Settles O27: UNIT_ADMIT is judged after the ASIC's mismatches are cleared, which changes none of its conditions. -/
theorem unitCommandsComplete : Obligations.UnitCommandsComplete :=
  ⟨fun _ _ _ _ _ h hu hside => fun hplace hbolt hst htray hasic =>
      unitAdmit_completes h hu hside hplace hbolt hst htray hasic,
    fun _ _ _ _ _ h hu hside => fun hplace hbolt hst htray hasic =>
      unitWithdraw_completes h hu hside hplace hbolt hst htray hasic,
    fun _ _ _ h hu => unitStatusGet_completes h hu, fun _ _ _ _ h hport hwin => holdConfigSet_completes h hport hwin,
    fun _ _ _ h => reseqStatusGet_completes h⟩

end Sys2Proof.Machine
end

section
/-! The plan commands (07_pitch_plan.md R308 to R316). -/

namespace Sys2Proof.Machine

open Sys2Proof

/-! ### Argument blocks of many words -/

theorem leWords_append (a b : List Nat) : leWords (a ++ b) = leWords a ++ leWords b := List.flatMap_append

/-- The bytes behind the first words of an argument block. -/
theorem args_drop {op mb : Nat} {a b : List Nat} {s : State} (h : Ready op mb (a ++ b) s) (n : Nat) :
    (cmdOf op mb 0 s).args.drop (4 * a.length + n) = (leWords b).drop n := by
  rw [args_ready h, leWords_append, ← leWords_length a, List.drop_append, List.drop_eq_nil_of_le (by omega), List.nil_append]
  congr 1
  omega

/-- A later word of an argument block. -/
theorem argW_append {op mb : Nat} {a b : List Nat} {s : State} (h : Ready op mb (a ++ b) s) {i : Nat} (hi : i < b.length) :
    argW (cmdOf op mb 0 s) (a.length + i) = b.getD i 0 := by
  have hlen : a.length + i < (a ++ b).length := by rw [List.length_append]; omega
  rw [argW_ready h (a.length + i) hlen, List.getD_append_right _ _ _ _ (by omega), Nat.add_sub_cancel_left]

/-! ### Writing a bank (R309 to R312) -/

theorem modBank_blind (b : Bool) (f : Bank → Bank) : MailBlind (modBank b f) := fun _ _ => rfl

theorem bankClosed_of {b : Bool} {s : State} (hforce : s.plan.inForce ≠ some b) (hopen : (bankOf s b).sealed = false) :
    bankClosed s b = false := by
  rw [bankClosed, beq_false_of_ne hforce, hopen]
  rfl

theorem planBankArg_of {op mb w0 : Nat} {ws : List Nat} {s : State} (h : Ready op mb (w0 :: ws) s) :
    planBankArg (cmdOf op mb 0 s) = bit w0 0 := by rw [planBankArg, argW_zero h]

theorem planHeaderWrite_completes {mb w0 : Nat} {ws : List Nat} {s : State} (h : Ready 0x0300 mb (w0 :: ws) s)
    (hlen : ws.length = 8) (hforce : s.plan.inForce ≠ some (bit w0 0)) (hopen : (bankOf s (bit w0 0)).sealed = false) :
    Completes (.planHeaderWrite mb 0) mb s stOk false []
      (modBank (bit w0 0) (fun _ => { header := ws.map (BitVec.ofNat 32), written := true }) s) := by
  have hclosed : bankClosed (popOrder s) (bit w0 0) = false := bankClosed_of (s := popOrder s) hforce hopen
  have hheader : ((List.range 8).map fun i => BitVec.ofNat 32 (argW (cmdOf 0x0300 mb 0 s) (1 + i))) =
      ws.map (BitVec.ofNat 32) := by
    refine List.ext_getElem (by simp [hlen]) fun i hi _ => ?_
    have hi' : i < ws.length := by simpa [hlen] using hi
    have hword := argW_append (a := [w0]) (b := ws) h hi'
    rw [List.getElem_map, List.getElem_range, List.getElem_map]
    rw [show 1 + i = [w0].length + i from rfl, hword, List.getD_eq_getElem _ _ hi']
  refine completes_blind (f := modBank _ _) (body := planHeaderWriteBody) rfl h rfl ?_ (modBank_blind _ _)
  unfold planHeaderWriteBody
  dsimp only
  rw [lenIs_of_eq ((len_ready h).trans (by rw [List.length_cons, hlen])), planBankArg_of h, check_of_false hclosed,
    hheader]
  rfl

theorem planPatternWrite_completes {mb w0 w1 : Nat} {ws : List Nat} {s : State}
    (h : Ready 0x0301 mb ([w0, w1] ++ ws) s) (hlo : 1 ≤ fld w0 21 18) (hhi : fld w0 21 18 ≤ 12)
    (hlen : ws.length = 64 * fld w0 21 18) (hwritten : (bankOf s (bit w0 0)).written = true)
    (hcount : fld w0 31 22 + fld w0 21 18 ≤ patternCount (bankOf s (bit w0 0)))
    (hforce : s.plan.inForce ≠ some (bit w0 0)) (hopen : (bankOf s (bit w0 0)).sealed = false) :
    Completes (.planPatternWrite mb 0) mb s stOk false []
      (modBank (bit w0 0) (fun k =>
        { k with
          patterns := (List.range (64 * fld w0 21 18)).foldl
            (fun t i => tabSet 0 t (64 * fld w0 31 22 + i) (BitVec.ofNat 32 (ws.getD i 0))) k.patterns }) s) := by
  have hbank : bankOf (popOrder s) (bit w0 0) = bankOf s (bit w0 0) := rfl
  have hclosed : bankClosed (popOrder s) (bit w0 0) = false := bankClosed_of (s := popOrder s) hforce hopen
  have hblock : (cmdOf 0x0301 mb 0 s).len = 8 + 256 * fld w0 21 18 := by
    rw [len_ready h, List.length_append, hlen, List.length_cons, List.length_singleton]
    omega
  have hword : ∀ i ∈ List.range (64 * fld w0 21 18), argW (cmdOf 0x0301 mb 0 s) (2 + i) = ws.getD i 0 := fun i hi =>
    argW_append (a := [w0, w1]) h (by rw [hlen]; exact List.mem_range.1 hi)
  have hpatterns : ∀ t, (List.range (64 * fld w0 21 18)).foldl
        (fun t i => tabSet 0 t (64 * fld w0 31 22 + i) (BitVec.ofNat 32 (argW (cmdOf 0x0301 mb 0 s) (2 + i)))) t =
      (List.range (64 * fld w0 21 18)).foldl
        (fun t i => tabSet 0 t (64 * fld w0 31 22 + i) (BitVec.ofNat 32 (ws.getD i 0))) t :=
    fun t => List.foldl_ext _ _ _ fun t i hi => by rw [hword i hi]
  have hrange : (fld w0 21 18 == 0 || decide (12 < fld w0 21 18) ||
      (true && decide (patternCount (bankOf s (bit w0 0)) < fld w0 31 22 + fld w0 21 18))) = false := by
    rw [beq_false_of_ne (by omega), decide_eq_false (by omega), decide_eq_false (by omega)]
    rfl
  refine completes_blind (f := modBank _ _) (body := planPatternWriteBody) rfl h rfl ?_ (modBank_blind _ _)
  unfold planPatternWriteBody
  dsimp only
  rw [planBankArg_of h, argW_zero (ws := w1 :: ws) h, lenIs_of_eq hblock, hbank, hwritten, argChecks_one hrange,
    check_of_false Bool.not_true, check_of_false hclosed]
  simp only [hpatterns]
  rfl

theorem planMapWrite_completes {mb w0 w1 : Nat} {ws : List Nat} {s : State} (h : Ready 0x0302 mb ([w0, w1] ++ ws) s)
    (hlo : 1 ≤ fld w0 14 11 * 1024 + fld w0 10 1) (hhi : fld w0 14 11 * 1024 + fld w0 10 1 ≤ 1536)
    (hlen : ws.length = (fld w0 14 11 * 1024 + fld w0 10 1 + 1) / 2) (hwritten : (bankOf s (bit w0 0)).written = true)
    (hcount : fld w0 31 17 + (fld w0 14 11 * 1024 + fld w0 10 1) ≤ 92 * boltTurns (bankOf s (bit w0 0)))
    (hforce : s.plan.inForce ≠ some (bit w0 0)) (hopen : (bankOf s (bit w0 0)).sealed = false) :
    Completes (.planMapWrite mb 0) mb s stOk false []
      (modBank (bit w0 0) (fun k =>
        { k with
          map := (List.range (fld w0 14 11 * 1024 + fld w0 10 1)).foldl (fun t i =>
            tabSet 0x3FF t (fld w0 16 15 * 2 ^ 15 + fld w0 31 17 + i)
              (ofLe (((leWords ws).drop (2 * i)).take 2) % 1024)) k.map }) s) := by
  have hbank : bankOf (popOrder s) (bit w0 0) = bankOf s (bit w0 0) := rfl
  have hclosed : bankClosed (popOrder s) (bit w0 0) = false := bankClosed_of (s := popOrder s) hforce hopen
  have hblock : (cmdOf 0x0302 mb 0 s).len = 8 + 4 * ((fld w0 14 11 * 1024 + fld w0 10 1 + 1) / 2) := by
    rw [len_ready h, List.length_append, hlen, List.length_cons, List.length_singleton]
    omega
  have hentry : ∀ i, (cmdOf 0x0302 mb 0 s).args.drop (8 + 2 * i) = (leWords ws).drop (2 * i) := fun i =>
    args_drop (a := [w0, w1]) h (2 * i)
  have hrange : (fld w0 14 11 * 1024 + fld w0 10 1 == 0 || decide (1536 < fld w0 14 11 * 1024 + fld w0 10 1) ||
      (true && decide (92 * boltTurns (bankOf s (bit w0 0)) < fld w0 31 17 + (fld w0 14 11 * 1024 + fld w0 10 1))))
      = false := by
    rw [beq_false_of_ne (by omega), decide_eq_false (by omega), decide_eq_false (by omega)]
    rfl
  refine completes_blind (f := modBank _ _) (body := planMapWriteBody) rfl h rfl ?_ (modBank_blind _ _)
  unfold planMapWriteBody
  dsimp only
  rw [planBankArg_of h, argW_zero (ws := w1 :: ws) h, lenIs_of_eq hblock, hbank, hwritten, argChecks_one hrange,
    check_of_false Bool.not_true, check_of_false hclosed]
  simp only [hentry]
  rfl

/-! ### Sealing (R308, R313) -/

theorem planSeal_sealed {mb w0 : Nat} {s : State} (h : Ready 0x0303 mb [w0] s) (hseal : bit w0 1 = false)
    (hopen : (bankOf s (bit w0 0)).sealed = false) (herr : (sealError (bankOf s (bit w0 0))).1 = 0) :
    Completes (.planSeal mb 0) mb s stOk false (sealResult 0 0 (localDigestOf (bankOf s (bit w0 0))))
      (modBank (bit w0 0) (fun k => { k with sealed := true }) s) := by
  have hbank : bankOf (popOrder s) (bit w0 0) = bankOf s (bit w0 0) := rfl
  have hlen : ¬ (cmdOf 0x0303 mb 0 s).len ≠ 4 := fun hne => hne (len_ready h)
  refine completes_blind (f := modBank _ _) (body := planSealBody) rfl h rfl ?_ (modBank_blind _ _)
  unfold planSealBody
  dsimp only
  rw [planBankArg_of h, argW_zero h, if_neg hlen, if_neg (by rw [hseal]; exact Bool.false_ne_true), hbank,
    if_neg (by rw [hopen]; exact Bool.false_ne_true)]
  exact if_pos herr

theorem planSeal_unsealed {mb w0 : Nat} {s : State} (h : Ready 0x0303 mb [w0] s) (hunseal : bit w0 1 = true)
    (hforce : s.plan.inForce ≠ some (bit w0 0)) (hswap : ∀ a, pendingSwap s = some a → swapBank a ≠ bit w0 0) :
    Completes (.planSeal mb 0) mb s stOk false (sealResult 0 0 (localDigestOf (bankOf s (bit w0 0))))
      (modBank (bit w0 0) (fun k => { k with sealed := false }) s) := by
  have hlen : ¬ (cmdOf 0x0303 mb 0 s).len ≠ 4 := fun hne => hne (len_ready h)
  have hused : ¬ ((popOrder s).plan.inForce == some (bit w0 0) ||
      (pendingSwap (popOrder s)).any fun a => swapBank a == bit w0 0) = true := by
    have hnone : ((pendingSwap s).any fun a => swapBank a == bit w0 0) = false := by
      cases hp : pendingSwap s with
      | none => rfl
      | some a => exact beq_false_of_ne (hswap a hp)
    have hforce' : ((popOrder s).plan.inForce == some (bit w0 0)) = false := beq_false_of_ne hforce
    rw [hforce', show pendingSwap (popOrder s) = pendingSwap s from rfl, hnone]
    exact Bool.false_ne_true
  refine completes_blind (f := modBank _ _) (body := planSealBody) rfl h rfl ?_ (modBank_blind _ _)
  unfold planSealBody
  dsimp only
  rw [planBankArg_of h, argW_zero h, if_neg hlen, if_pos hunseal, if_neg hused]
  rfl

/-! ### Swapping (R314) -/

theorem planSwap_placed {mb w0 w1 w2 : Nat} {s : State} (h : Ready 0x0304 mb [w0, w1, w2] s)
    (hplace : bit w0 1 = false) (hp : Placeable .planSwap 0 (turnOf w1 w2) s)
    (hsealed : (bankOf s (bit w0 0)).sealed = true) (hbolt : boltAt (bankOf s (bit w0 0)) (turnOf w1 w2) = true)
    (hnow : ∀ k, planNow s = some k → boltAt k (turnOf w1 w2) = true)
    (hadm : excludesAdmitted s (bankOf s (bit w0 0)) (turnOf w1 w2) = false) (hnone : pendingSwap s = none)
    (hforce : s.plan.inForce ≠ some (bit w0 0)) :
    Completes (.planSwap mb 0) mb s stOk false []
      (schedAdd ⟨.planSwap, 0, turnOf w1 w2, 0x0304, false, .plan (bit w0 0)⟩ s) := by
  have hnow' : ((planNow s).any fun n => !boltAt n (turnOf w1 w2)) = false := by
    cases hk : planNow s with
    | none => rfl
    | some k => rw [Option.any_some, hnow k hk]; rfl
  have hpre : (untimed (popOrder s) || !(bankOf (popOrder s) (bit w0 0)).sealed ||
      !boltAt (bankOf (popOrder s) (bit w0 0)) (turnOf w1 w2) ||
      (planNow (popOrder s)).any (fun n => !boltAt n (turnOf w1 w2)) ||
      excludesAdmitted (popOrder s) (bankOf (popOrder s) (bit w0 0)) (turnOf w1 w2)) = false := by
    change (untimed s || !(bankOf s (bit w0 0)).sealed || !boltAt (bankOf s (bit w0 0)) (turnOf w1 w2) ||
      (planNow s).any (fun n => !boltAt n (turnOf w1 w2)) ||
      excludesAdmitted s (bankOf s (bit w0 0)) (turnOf w1 w2)) = false
    rw [hp.timed, hsealed, hbolt, hnow', hadm]
    rfl
  have hnear : (turnTooNear (turnOf w1 w2) (popOrder s) || (pendingSwap (popOrder s)).isSome ||
      (popOrder s).plan.inForce == some (bit w0 0)) = false := by
    change (turnTooNear (turnOf w1 w2) s || (pendingSwap s).isSome || s.plan.inForce == some (bit w0 0)) = false
    rw [hp.near, hnone, beq_false_of_ne hforce]
    rfl
  refine completes_blind (f := schedAdd _) (body := planSwapBody) rfl h rfl ?_ (fun _ _ => rfl)
  unfold planSwapBody
  dsimp only
  rw [lenIs_three h, planBankArg_of h, argW_zero h, argTurn_one h, if_neg (by rw [hplace]; exact Bool.false_ne_true),
    argChecks_one (show turnTooFar (turnOf w1 w2) (popOrder s) = false from hp.far), check_of_false hpre,
    check_of_false hnear, check_of_false (show schedFull (popOrder s) = false from hp.room)]
  rfl

theorem planSwap_cancelled {mb w0 w1 w2 : Nat} {a : Sched} {s : State} (h : Ready 0x0304 mb [w0, w1, w2] s)
    (hcancel : bit w0 1 = true) (ha : pendingSwap s = some a) :
    Completes (.planSwap mb 0) mb s stOk false [] (schedRemove a s) := by
  have hbody : planSwapBody (cmdOf 0x0304 mb 0 s) (popOrder s) = applied (schedCancel a (popOrder s)) := by
    unfold planSwapBody
    dsimp only
    rw [lenIs_three h, argW_zero h, if_pos hcancel, show pendingSwap (popOrder s) = pendingSwap s from rfl, ha]
  exact completes_done' (body := planSwapBody) rfl h rfl hbody rfl rfl rfl

/-! ### Status (R315, R316) -/

theorem planConformGet_completes {mb w0 : Nat} {s : State} (h : Ready 0x0306 mb [w0] s) (hport : fld w0 6 0 < 92) :
    Completes (.planConformGet mb 0) mb s stOk true (leWords (conformWords s (asicEnd (addressUnit w0)))) s := by
  have hw := argW_zero h
  have hbody : planConformGetBody (cmdOf 0x0306 mb 0 s) (popOrder s) =
      report (conformWords (popOrder s) (asicEnd (addressUnit w0))) (popOrder s) := by
    unfold planConformGetBody
    rw [lenIs_one h, argChecks_one (paBadNoSide_of hw hport), paAsicEnd_of hw]
  exact completes_done' (body := planConformGetBody) rfl h rfl hbody rfl rfl rfl

/-- Settles O29. -/
theorem planBankCommandsComplete : Obligations.PlanBankCommandsComplete := by
  refine ⟨fun mb w0 ws s h hlen hforce hopen => planHeaderWrite_completes h hlen hforce hopen,
    fun mb w0 w1 ws s h hlo hhi hlen hwritten hcount hforce hopen =>
      planPatternWrite_completes h hlo hhi hlen hwritten hcount hforce hopen,
    fun mb w0 w1 ws s h => ?_, fun mb w0 s h => ?_, fun mb w0 w1 w2 s h hplace => ?_,
    fun mb w0 w1 w2 a s h hcancel ha => planSwap_cancelled h hcancel ha,
    fun mb s h => completes_done' (body := planStatusGetBody) rfl h rfl (lenIs_none h) rfl rfl rfl,
    fun mb w0 s h hport => planConformGet_completes h hport⟩
  · exact fun hlo hhi hlen hwritten hcount hforce hopen =>
      planMapWrite_completes h hlo hhi hlen hwritten hcount hforce hopen
  · exact ⟨fun hseal hopen herr => planSeal_sealed h hseal hopen herr,
      fun hunseal hforce hswap => planSeal_unsealed h hunseal hforce hswap⟩
  · exact fun hp hsealed hbolt hnow hadm hnone hforce =>
      planSwap_placed h hplace hp hsealed hbolt hnow hadm hnone hforce

end Sys2Proof.Machine
end

section
/-! The annealing commands (10_annealing_engine.md R433 to R439). -/

namespace Sys2Proof.Machine

open Sys2Proof

/-! ### Slots -/

theorem modSlot_blind (n : Nat) (f : Slot → Slot) : MailBlind (modSlot n f) := fun _ _ => rfl

/-- What a change of a slot does is what it does to the slot as it stands. -/
theorem modSlot_congr {n : Nat} {f g : Slot → Slot} {s : State} (h : f (slotOf s n) = g (slotOf s n)) :
    modSlot n f s = modSlot n g s := by
  unfold modSlot modAnneal
  dsimp only
  rw [tabMod, tabMod, show f (tabGet {} s.anneal.slots n) = g (tabGet {} s.anneal.slots n) from h]

theorem slotDone_blind (n : Nat) (r : AResult) (fault : Option Nat) : MailBlind (slotDone n r fault) := by
  intro g s
  cases fault <;> rfl

section Annealing

variable {op mb w0 : Nat} {s : State}

theorem slotArg_of {ws : List Nat} (h : Ready op mb (w0 :: ws) s) : slotArg (cmdOf op mb 0 s) = fld w0 31 30 := by
  rw [slotArg, argW_zero h]

theorem annealOn_popOrder (hon : annealOn s = true) : (!annealOn (popOrder s)) = false := by
  rw [show annealOn (popOrder s) = annealOn s from rfl, hon]
  rfl

theorem slotOf_popOrder (n : Nat) : slotOf (popOrder s) n = slotOf s n := rfl

/-! ### The commands that read (R437 to R439) -/

theorem annealStatusGet_completes (h : Ready 0x0605 mb [] s) (hon : annealOn s = true) :
    Completes (.annealStatusGet mb 0) mb s stOk true (leWords (annealWords s)) s := by
  have hbody : annealStatusGetBody (cmdOf 0x0605 mb 0 s) (popOrder s) =
      report (annealWords (popOrder s)) (popOrder s) := by
    unfold annealStatusGetBody
    rw [lenIs_none h, check_of_false (annealOn_popOrder hon)]
  exact completes_done' (body := annealStatusGetBody) rfl h rfl hbody rfl rfl rfl

theorem annealResultGet_completes (h : Ready 0x0606 mb [w0] s) (hon : annealOn s = true)
    (hst : (slotOf s (fld w0 31 30)).st = .done) :
    Completes (.annealResultGet mb 0) mb s stOk true
      (leWords (resultWords (slotOf s (fld w0 31 30)) (slotProblem s (fld w0 31 30)).n)) s := by
  have hbody : annealResultGetBody (cmdOf 0x0606 mb 0 s) (popOrder s) =
      report (resultWords (slotOf s (fld w0 31 30)) (slotProblem (popOrder s) (fld w0 31 30)).n) (popOrder s) := by
    unfold annealResultGetBody
    dsimp only
    rw [lenIs_one h, check_of_false (annealOn_popOrder hon), slotArg_of h, slotOf_popOrder,
      check_of_false (by rw [hst]; rfl)]
  exact completes_done' (body := annealResultGetBody) rfl h rfl hbody rfl rfl rfl

theorem annealStateRead_completes {w1 : Nat} (h : Ready 0x0607 mb [w0, w1] s) (hon : annealOn s = true)
    (hst : (slotOf s (fld w0 31 30)).st = .done) :
    let got := ((slotOf s (fld w0 31 30)).result.pos.drop (fld w1 13 0)).take 1536
    Completes (.annealStateRead mb 0) mb s stOk true
      (leBytes 4 (put 31 16 got.length) ++ (got.flatMap fun v => leBytes 2 (enc 16 v))) s := by
  intro got
  have hbody : annealStateReadBody (cmdOf 0x0607 mb 0 s) (popOrder s) =
      .done stOk (leBytes 4 (put 31 16 got.length) ++ (got.flatMap fun v => leBytes 2 (enc 16 v))) (popOrder s) := by
    unfold annealStateReadBody
    dsimp only
    rw [lenIs_two h, check_of_false (annealOn_popOrder hon), slotArg_of h, slotOf_popOrder,
      check_of_false (by rw [hst]; rfl), argW_one h]
  exact completes_done' (body := annealStateReadBody) rfl h rfl hbody rfl rfl rfl

/-! ### ANNEAL_LOAD (R423, R433) -/

theorem annealLoad_completes {w1 : Nat} {data : List Nat} (h : Ready 0x0600 mb ([w0, w1] ++ data) s)
    (hon : annealOn s = true) (halign : fld w0 21 0 % 4 = 0) (hbytes : fld w1 11 0 = 4 * data.length)
    (hlo : 1 ≤ data.length) (hhi : data.length ≤ 768) (hnq : (slotOf s (fld w0 31 30)).st ≠ .queued)
    (hnr : (slotOf s (fld w0 31 30)).st ≠ .running)
    (hfit : (fld w0 21 0 = 0 ∧ 16 ≤ data.length ∧ 4 * data.length ≤ imSize (wordLe (leWords data))) ∨
      (fld w0 21 0 ≠ 0 ∧ (slotOf s (fld w0 31 30)).st = .loading ∧
        fld w0 21 0 + 4 * data.length ≤ imSize (imWord (slotOf s (fld w0 31 30)).image))) :
    Completes (.annealLoad mb 0) mb s stOk false []
      (modSlot (fld w0 31 30) (fun x =>
        let x : Slot := if fld w0 21 0 = 0 ∧ x.st ≠ .loading then { st := .loading } else x
        { x with
          image := tabWrite x.image (fld w0 21 0) (leWords data)
          covered := cover (fld w0 21 0) (fld w0 21 0 + 4 * data.length) x.covered }) s) := by
  have hdata : ((cmdOf 0x0600 mb 0 s).args.drop 8).take (4 * data.length) = leWords data := by
    have hdrop : (cmdOf 0x0600 mb 0 s).args.drop 8 = leWords data := args_drop (a := [w0, w1]) h 0
    rw [hdrop, List.take_of_length_le (Nat.le_of_eq (leWords_length data))]
  have hw1 : argW (cmdOf 0x0600 mb 0 s) 1 = w1 := argW_one (ws := data) h
  have hlen : (cmdOf 0x0600 mb 0 s).len = 8 + 4 * data.length := by
    rw [len_ready h, List.length_append, List.length_cons, List.length_singleton]
    omega
  have hinUse : ((slotOf s (fld w0 31 30)).st == .queued || (slotOf s (fld w0 31 30)).st == .running) = false := by
    rw [beq_false_of_ne hnq, beq_false_of_ne hnr]
    rfl
  have hsize : (4 * data.length % 4 != 0 || decide (4 * data.length < 4) || decide (3072 < 4 * data.length)) = false := by
    rw [Nat.mul_mod_right, decide_eq_false (by omega), decide_eq_false (by omega)]
    rfl
  have hoff : (fld w0 21 0 % 4 != 0) = false := by rw [halign]; rfl
  have hfirst : (fld w0 21 0 == 0 && decide (4 * data.length < 64)) = false := by
    rcases hfit with ⟨-, h16, -⟩ | ⟨hne, -, -⟩
    · rw [decide_eq_false (by omega), Bool.and_false]
    · rw [beq_false_of_ne hne, Bool.false_and]
  have hroom : ((fld w0 21 0 == 0 || (slotOf s (fld w0 31 30)).st != .empty) &&
      decide ((if fld w0 21 0 = 0 then imSize (wordLe (leWords data)) else
        imSize (imWord (slotOf s (fld w0 31 30)).image)) < fld w0 21 0 + 4 * data.length)) = false := by
    rcases hfit with ⟨hz, -, hle⟩ | ⟨hne, -, hle⟩
    · rw [if_pos hz, decide_eq_false (by omega), Bool.and_false]
    · rw [if_neg hne, decide_eq_false (by omega), Bool.and_false]
  have hloading : (fld w0 21 0 != 0 && (slotOf s (fld w0 31 30)).st != .loading && !false) = false := by
    rcases hfit with ⟨hz, -, -⟩ | ⟨-, hl, -⟩
    · rw [hz]
      rfl
    · rw [hl, Bool.and_comm (fld w0 21 0 != 0)]
      rfl
  refine completes_blind (f := modSlot _ _) (body := annealLoadBody) rfl h rfl ?_ (modSlot_blind _ _)
  unfold annealLoadBody
  dsimp only
  rw [slotArg_of (ws := w1 :: data) h, slotOf_popOrder, argW_zero (ws := w1 :: data) h, hw1, hbytes, hdata, hinUse,
    argChecks_two hoff hsize, lenIs_of_eq hlen, argChecks_two hfirst hroom,
    check_of_false (by rw [annealOn_popOrder hon, hloading]; rfl), check_of_false rfl, applied]
  congr 1
  refine modSlot_congr ?_
  rw [slotOf_popOrder]
  by_cases hreset : fld w0 21 0 = 0 ∧ (slotOf s (fld w0 31 30)).st ≠ .loading
  · rw [if_pos hreset, if_pos (by simpa using hreset)]
  · rw [if_neg hreset, if_neg (by simpa using hreset)]

/-! ### Sealing, running, stopping and clearing a slot (R434 to R436) -/

theorem annealSeal_completes (h : Ready 0x0601 mb [w0] s) (hon : annealOn s = true)
    (hst : (slotOf s (fld w0 31 30)).st = .loading) (herr : (annealError (slotOf s (fld w0 31 30))).1 = 0) :
    let k := conflictCount (slotProblem s (fld w0 31 30))
    Completes (.annealSeal mb 0) mb s stOk false
      (annealSealResult 0 0 k (imSize (imWord (slotOf s (fld w0 31 30)).image)))
      (modSlot (fld w0 31 30) (fun x => { x with st := .ready, conflicts := k }) s) := by
  intro k
  have hlen : ¬ (cmdOf 0x0601 mb 0 s).len ≠ 4 := fun hne => hne (len_ready h)
  have hsize : (if (slotOf s (fld w0 31 30)).st = .empty then 0 else imSize (imWord (slotOf s (fld w0 31 30)).image)) =
      imSize (imWord (slotOf s (fld w0 31 30)).image) := if_neg (by rw [hst]; decide)
  refine completes_blind (f := modSlot _ _) (body := annealSealBody) rfl h rfl ?_ (modSlot_blind _ _)
  unfold annealSealBody
  dsimp only
  rw [slotArg_of h, slotOf_popOrder, if_neg hlen, if_neg (by rw [annealOn_popOrder hon]; exact Bool.false_ne_true),
    if_neg (by rw [hst]; decide), if_pos herr, hsize]
  rfl

theorem annealRun_completes {w1 : Nat} (h : Ready 0x0602 mb [w0, w1] s) (hon : annealOn s = true)
    (hst : (slotOf s (fld w0 31 30)).st = .ready ∨ (slotOf s (fld w0 31 30)).st = .done)
    (hblocked : kindBlocked s 5 = false) (hcharge : (annealCharge : Int) ≤ s.power.avail) :
    Completes (.annealRun mb 0) mb s stOk false []
      (modAnneal (fun a => { a with order := a.order ++ [fld w0 31 30] })
        (modSlot (fld w0 31 30) (fun x =>
          { x with
            st := .queued, seed := if bit w0 29 then w1 else (slotProblem s (fld w0 31 30)).seed, result := {} }) s)) := by
  have hidle : ((slotOf s (fld w0 31 30)).st != .ready && (slotOf s (fld w0 31 30)).st != .done) = false := by
    rcases hst with hst | hst <;> rw [hst] <;> rfl
  have hbudget : (kindBlocked (popOrder s) 5 || decide ((popOrder s).power.avail < (annealCharge : Int))) = false := by
    change (kindBlocked s 5 || decide (s.power.avail < (annealCharge : Int))) = false
    rw [hblocked, decide_eq_false (Int.not_lt.2 hcharge)]
    rfl
  refine completes_blind (f := fun s => modAnneal _ (modSlot _ _ s)) (body := annealRunBody) rfl h rfl ?_ (fun _ _ => rfl)
  unfold annealRunBody
  dsimp only
  rw [lenIs_two h, slotArg_of h, slotOf_popOrder, check_of_false (annealOn_popOrder hon), check_of_false hidle,
    check_of_false hbudget, argW_zero h, argW_one h]
  rfl

theorem annealStop_queued (h : Ready 0x0603 mb [w0] s) (hon : annealOn s = true)
    (hst : (slotOf s (fld w0 31 30)).st = .queued) :
    Completes (.annealStop mb 0) mb s stOk false []
      (slotDone (fld w0 31 30)
        { outcome := 1, pos := (runInit (slotProblem s (fld w0 31 30)) (slotOf s (fld w0 31 30)).seed).x } none s) := by
  refine completes_blind (f := slotDone _ _ _) (body := annealStopBody) rfl h rfl ?_ (slotDone_blind _ _ _)
  unfold annealStopBody
  dsimp only
  rw [lenIs_one h, slotArg_of h, slotOf_popOrder, check_of_false (annealOn_popOrder hon),
    check_of_false (by rw [hst]; rfl), if_pos hst]
  rfl

theorem annealStop_running (h : Ready 0x0603 mb [w0] s) (hon : annealOn s = true)
    (hst : (slotOf s (fld w0 31 30)).st = .running) (hstop : s.anneal.stopAt = none) :
    Completes (.annealStop mb 0) mb s stOk false [] (modAnneal (fun a => { a with stopAt := some (engineNs s) }) s) := by
  have hstop' : ¬ (popOrder s).anneal.stopAt.isSome = true := by
    rw [show (popOrder s).anneal.stopAt = none from hstop]
    exact Bool.false_ne_true
  refine completes_blind (f := modAnneal _) (body := annealStopBody) rfl h rfl ?_ (fun _ _ => rfl)
  unfold annealStopBody
  dsimp only
  rw [lenIs_one h, slotArg_of h, slotOf_popOrder, check_of_false (annealOn_popOrder hon),
    check_of_false (by rw [hst]; rfl), if_neg (by rw [hst]; decide), if_neg hstop']
  rfl

theorem annealClear_completes (h : Ready 0x0604 mb [w0] s) (hon : annealOn s = true)
    (hst : (slotOf s (fld w0 31 30)).st = .loading ∨ (slotOf s (fld w0 31 30)).st = .ready ∨
      (slotOf s (fld w0 31 30)).st = .done) :
    Completes (.annealClear mb 0) mb s stOk false [] (modSlot (fld w0 31 30) (fun _ => {}) s) := by
  have hidle : ((slotOf s (fld w0 31 30)).st != .loading && (slotOf s (fld w0 31 30)).st != .ready &&
      (slotOf s (fld w0 31 30)).st != .done) = false := by
    rcases hst with hst | hst | hst <;> rw [hst] <;> rfl
  refine completes_blind (f := modSlot _ _) (body := annealClearBody) rfl h rfl ?_ (modSlot_blind _ _)
  unfold annealClearBody
  dsimp only
  rw [lenIs_one h, slotArg_of h, slotOf_popOrder, check_of_false (annealOn_popOrder hon), check_of_false hidle]
  rfl

end Annealing

/-- Settles O36. -/
theorem annealingCommandsComplete : Obligations.AnnealingCommandsComplete := by
  refine ⟨fun mb s h hon => annealStatusGet_completes h hon, fun mb w0 s h hon hst => annealResultGet_completes h hon hst,
    fun mb w0 w1 s h hon hst => annealStateRead_completes h hon hst,
    fun mb w0 w1 data s h hon halign hbytes hlo hhi => ?_, fun mb w0 s h hon => ?_,
    fun mb w0 w1 s h hon hst hblocked hcharge => annealRun_completes h hon hst hblocked hcharge,
    fun mb w0 s h hon => ?_, fun mb w0 s h hon hst => annealClear_completes h hon hst⟩
  · exact fun hnq hnr hfit => annealLoad_completes h hon halign hbytes hlo hhi hnq hnr hfit
  · exact fun hst herr => annealSeal_completes h hon hst herr
  · exact ⟨fun hst => annealStop_queued h hon hst, fun hst hstop => annealStop_running h hon hst hstop⟩

end Sys2Proof.Machine
end

section
/-! The Crier and ledger commands (12_crier_and_agreement.md R510, R514 to R519). -/

namespace Sys2Proof.Machine

open Sys2Proof

section CrierAndLedger

variable {mb w0 w1 : Nat} {s : State}

/-! ### The Crier (R510, R514, R516) -/

theorem crierConfigSet_reads (h : Ready 0x0820 mb [w0, w1] s) (hread : bit w0 31 = true) :
    Completes (.crierConfigSet mb 0) mb s stOk true (leWords (crierWords s)) s := by
  have hw := argW_zero h
  have hbody : crierConfigSetBody (cmdOf 0x0820 mb 0 s) (popOrder s) = report (crierWords (popOrder s)) (popOrder s) := by
    unfold crierConfigSetBody
    rw [lenIs_two h, hw, if_pos hread]
  exact completes_done' (body := crierConfigSetBody) rfl h (by rw [hw, hread]) hbody rfl rfl rfl

theorem crierConfigSet_sets (h : Ready 0x0820 mb [w0, w1] s) (hwrite : bit w0 31 = false)
    (htrim : longOp s 0x0822 = none) :
    Completes (.crierConfigSet mb 0) mb s stOk false
      (leWords [put 8 8 (bit w0 8).toNat + put 7 0 (fld w0 7 0), put 7 0 (fld w1 7 0)])
      (modCrier (fun c => { c with enable := bit w0 8, blankLevel := fld w0 7 0, blankHold := fld w1 7 0 }) s) := by
  have hw := argW_zero h
  have htrim' : (longOp (popOrder s) 0x0822).isSome = false := by
    rw [show longOp (popOrder s) 0x0822 = none from htrim]
    rfl
  refine completes_blind (f := modCrier _) (body := crierConfigSetBody) rfl h (by rw [hw, hwrite]) ?_ (fun _ _ => rfl)
  unfold crierConfigSetBody
  dsimp only
  rw [lenIs_two h, hw, argW_one h, if_neg (by rw [hwrite]; exact Bool.false_ne_true), check_of_false htrim']
  rfl

theorem crierTrim_starts (h : Ready 0x0822 mb [] s)
    (hquiet : ∀ t, s.crier.foreignAt = some t → t + 244141 ≤ s.reel.bounds) (htrim : longOp s 0x0822 = none) :
    Starts (.crierTrim mb 0) 0x0822 mb 0 1500000000 false s s := by
  have hquiet' : ((popOrder s).crier.foreignAt.any fun t => decide ((popOrder s).reel.bounds < t + 244141)) = false := by
    change (s.crier.foreignAt.any fun t => decide (s.reel.bounds < t + 244141)) = false
    cases hf : s.crier.foreignAt with
    | none => rfl
    | some t => rw [Option.any_some, decide_eq_false (Nat.not_lt.2 (hquiet t hf))]
  have htrim' : (longOp (popOrder s) 0x0822).isSome = false := by
    rw [show longOp (popOrder s) 0x0822 = none from htrim]
    rfl
  have hbody : crierTrimBody (cmdOf 0x0822 mb 0 s) (popOrder s) = .start 0 1500000000 (popOrder s) := by
    unfold crierTrimBody
    rw [lenIs_none h, check_of_false hquiet', check_of_false htrim']
  exact starts_blind (f := id) (body := crierTrimBody) rfl h rfl hbody (fun _ _ => rfl) rfl

/-! ### The peer set (R517) and the ledger (R518) -/

theorem ledgerPeersSet_reads {args : List Nat} (h : Ready 0x0823 mb args s) (hlen : args.length = 9)
    (hread : bit (args.getD 0 0) 31 = true) :
    Completes (.ledgerPeersSet mb 0) mb s stOk true (leWords (peerWords s)) s := by
  have hw : argW (cmdOf 0x0823 mb 0 s) 0 = args.getD 0 0 := argW_ready h 0 (by omega)
  have hbytes : (cmdOf 0x0823 mb 0 s).len = 36 := by rw [len_ready h, hlen]
  have hbody : ledgerPeersSetBody (cmdOf 0x0823 mb 0 s) (popOrder s) = report (peerWords (popOrder s)) (popOrder s) := by
    unfold ledgerPeersSetBody
    rw [lenIs_of_eq hbytes, hw, if_pos hread]
  exact completes_done' (body := ledgerPeersSetBody) rfl h (by rw [hw, hread]) hbody rfl rfl rfl

theorem ledgerPeersSet_sets {args : List Nat} (h : Ready 0x0823 mb args s) (hlen : args.length = 9)
    (hwrite : bit (args.getD 0 0) 31 = false) :
    let t := modLedger (fun l => { l with
      peersNext := some (numbers 256 fun n => bit (args.getD (1 + n / 32) 0) (n % 32) && n != s.tray.number) }) s
    Completes (.ledgerPeersSet mb 0) mb s stOk false (leWords (peerWords t)) t := by
  intro t
  have hw : argW (cmdOf 0x0823 mb 0 s) 0 = args.getD 0 0 := argW_ready h 0 (by omega)
  have hbytes : (cmdOf 0x0823 mb 0 s).len = 36 := by rw [len_ready h, hlen]
  have hpeers : (numbers 256 fun n => bit (argW (cmdOf 0x0823 mb 0 s) (1 + n / 32)) (n % 32) &&
        n != (popOrder s).tray.number) =
      numbers 256 fun n => bit (args.getD (1 + n / 32) 0) (n % 32) && n != s.tray.number := by
    refine List.filter_congr fun n hn => ?_
    have hrange := List.mem_range.1 hn
    rw [argW_ready h (1 + n / 32) (by omega)]
    rfl
  refine completes_blind (f := modLedger _) (body := ledgerPeersSetBody) rfl h (by rw [hw, hwrite]) ?_ (fun _ _ => rfl)
  unfold ledgerPeersSetBody
  dsimp only
  rw [lenIs_of_eq hbytes, hw, if_neg (by rw [hwrite]; exact Bool.false_ne_true), hpeers]
  rfl

theorem ledgerGet_completes (h : Ready 0x0824 mb [w0] s) :
    Completes (.ledgerGet mb 0) mb s stOk true (leWords (ledgerWords s (fld w0 7 0))) s := by
  have hbody : ledgerGetBody (cmdOf 0x0824 mb 0 s) (popOrder s) =
      report (ledgerWords (popOrder s) (fld w0 7 0)) (popOrder s) := by
    unfold ledgerGetBody
    rw [lenIs_one h, argW_zero h]
  exact completes_done' (body := ledgerGetBody) rfl h rfl hbody rfl rfl rfl

end CrierAndLedger

/-- Settles O43. -/
theorem crierAndLedgerCommandsComplete : Obligations.CrierAndLedgerCommandsComplete :=
  ⟨fun _ _ _ _ h => ⟨fun hread => crierConfigSet_reads h hread, fun hwrite htrim => crierConfigSet_sets h hwrite htrim⟩,
    fun _ _ h => completes_done' (body := crierStatusGetBody) rfl h rfl (lenIs_none h) rfl rfl rfl,
    fun _ _ h hquiet htrim => crierTrim_starts h hquiet htrim,
    fun _ _ _ h hlen => ⟨fun hread => ledgerPeersSet_reads h hlen hread, fun hwrite => ledgerPeersSet_sets h hlen hwrite⟩,
    fun _ _ _ h => ledgerGet_completes h,
    fun _ _ h => completes_done' (body := ledgerStatusGetBody) rfl h rfl (lenIs_none h) rfl rfl rfl⟩

end Sys2Proof.Machine
end

section
/-! Ports and ASICs, as operations that neither read nor change the mailboxes (R237, R243, R246). -/

namespace Sys2Proof.Machine

open Sys2Proof

theorem modFwd_modMail (f : Fwd → Fwd) (g : Mail → Mail) (s : State) : modFwd f (modMail g s) = modMail g (modFwd f s) := rfl

theorem modPunit_modMail (u : Nat) (f : PortUnit → PortUnit) (g : Mail → Mail) (s : State) :
    modPunit u f (modMail g s) = modMail g (modPunit u f s) := rfl

theorem modLink_modMail (u : Nat) (f : Link → Link) (g : Mail → Mail) (s : State) :
    modLink u f (modMail g s) = modMail g (modLink u f s) := rfl

/-! ### Events and counters -/

theorem raise_blind (code : Nat) (items : List (Nat × Nat)) : MailBlind (raise code items) := fun _ _ => rfl

theorem count_blind (key n : Nat) : MailBlind (count key n) := fun _ _ => rfl

theorem raiseOnce_blind (key code : Nat) (items : List (Nat × Nat)) : MailBlind (raiseOnce key code items) := by
  intro g s
  unfold raiseOnce
  exact ite_modMail Iff.rfl rfl rfl

theorem raiseUnitState_blind (u old new : Nat) : MailBlind (raiseUnitState u old new) :=
  MailBlind.onlyIf (raise_blind _ _) _

/-- An operation with the cartridge's UNIT_STATE. -/
theorem withCart_blind {f : State → State} (hf : MailBlind f) (u : Nat) : MailBlind (withCart u f) := by
  intro g s
  unfold withCart
  dsimp only
  rw [hf g s]
  refine ite_modMail Iff.rfl ?_ rfl
  exact raiseUnitState_blind _ _ _ g (f s)

theorem withCarts_blind {f : State → State} (hf : MailBlind f) : MailBlind (withCarts f) := by
  intro g s
  unfold withCarts
  dsimp only
  rw [hf g s]
  exact MailBlind.forAll (fun b => raiseUnitState_blind (cartUnit b) (cartState s b) (cartState (f s) b)) _ g (f s)

/-! ### Frames held for a lost port (R227, R237) -/

theorem divert_blind (asic : Nat) (q : QFrame) : MailBlind (divert asic q) := by
  intro g s
  unfold divert
  cases originOf q with
  | none => rfl
  | some o =>
    dsimp only
    rw [show contextOf (modMail g s) asic q = contextOf s asic q from rfl]
    cases contextOf s asic q with
    | some c => rfl
    | none => exact ite_modMail Iff.rfl rfl (raiseOnce_blind _ _ _ g
      (count (fwdCtr asic 11) 1 (modReseq asic (fun r => { r with full := sat 32 (r.full + 1) }) s)))

theorem divertQueued_blind (u : Nat) : MailBlind (divertQueued u) := by
  intro g s
  unfold divertQueued
  dsimp only
  rw [show queuedFor (modMail g s) u = queuedFor s u from rfl, MailBlind.forAll (divert_blind (uAsic u)) _ g s]
  rfl

theorem holdBegin_blind (u : Nat) (left : PState) : MailBlind (holdBegin u left) := by
  intro g s
  unfold holdBegin
  dsimp only
  rw [divertQueued_blind u g s, modPunit_modMail]
  exact MailBlind.onlyIf (f := fun s => count _ _ (raise _ _ s)) (fun _ _ => rfl) _ g _

theorem putBack_blind (u : Nat) : MailBlind (putBack u) := by
  intro g s
  unfold putBack
  dsimp only
  rw [modFwd_modMail, modLink_modMail]
  exact MailBlind.forAll (fun _ _ _ => rfl) _ g _

theorem hc8Reroute_blind (u : Nat) : MailBlind (hc8Reroute u) := by
  refine MailBlind.forAll (fun c g s => ?_) _
  rw [show leastBy (fun v => depth (modMail g s) v c) ((hc8Ports (modMail g s) (uAsic u) c).filter (· != u)) =
    leastBy (fun v => depth s v c) ((hc8Ports s (uAsic u) c).filter (· != u)) from rfl]
  cases leastBy (fun v => depth s v c) ((hc8Ports s (uAsic u) c).filter (· != u)) with
  | none => rfl
  | some v =>
    dsimp only
    rw [show queue (modMail g s) v c = queue s v c from rfl, show queue (modMail g s) u c = queue s u c from rfl]
    rfl

theorem probeFirst_blind (u : Nat) : MailBlind (probeFirst u) := by
  intro g s
  unfold probeFirst
  rw [show (modMail g s).tray.role = s.tray.role from rfl]
  cases s.tray.role with
  | none => rfl
  | some r => exact ite_modMail Iff.rfl rfl rfl

/-! ### Ports (R243) -/

theorem portEnter_blind (u : Nat) (st : PState) : MailBlind (portEnter u st) := by
  intro g s
  unfold portEnter
  refine ite_modMail Iff.rfl rfl ?_
  refine withCart_blind ?_ u g s
  refine (raiseUnitState_blind _ _ _).comp <| ((hc8Reroute_blind u).onlyIf _).comp <|
    (MailBlind.onlyIf (f := modAux u _) (fun _ _ => rfl) _).comp <| ((probeFirst_blind u).onlyIf _).comp <|
    (MailBlind.onlyIf (f := modPunit u _) (fun _ _ => rfl) _).comp <|
    (MailBlind.onlyIf (f := modPunit u _) (fun _ _ => rfl) _).comp <|
    (MailBlind.onlyIf (f := linkReset u) (fun _ _ => rfl) _).comp <| ((count_blind _ _).onlyIf _).comp <|
    MailBlind.comp (f := fun s => setPort u (enterState u st s (port s u)) s) (fun _ _ => rfl) <|
    ((holdBegin_blind u _).onlyIf _).comp <| (putBack_blind u).onlyIf _

theorem portTo_blind (u : Nat) (st : PState) : MailBlind (portTo u st) := by
  intro g s
  unfold portTo
  dsimp only
  rw [portEnter_blind u st g s]
  exact ite_modMail Iff.rfl (portEnter_blind _ _ g _) rfl

theorem portDark_blind (u : Nat) : MailBlind (portDark u) := portTo_blind u .dark

theorem disablePort_blind (u : Nat) : MailBlind (disablePort u) :=
  (portDark_blind u).comp (g := modPunit u fun x => { x with disabled := true }) fun _ _ => rfl

/-! ### ASICs (R246) -/

theorem asicTo_blind (a : Nat) (st : PState) : MailBlind (asicTo a st) := by
  intro g s
  exact raiseUnitState_blind _ _ _ g (modAsic a (fun x => { x with st := st }) s)

theorem asicCheck_blind (a : Nat) : MailBlind (asicCheck a) := by
  intro g s
  unfold asicCheck
  exact ite_modMail Iff.rfl (asicTo_blind a .probation g s) rfl

theorem releaseCart_blind (b : Nat) (self : Bool) : MailBlind (releaseCart b self) :=
  MailBlind.comp (f := fun s => raise 0x092B [(4, b), iFlag self]
      (modBay b (fun y => { y with released := true, askEnd := none, deniedAt := none }) s)) (fun _ _ => rfl)
    (MailBlind.forAll disablePort_blind (bayPorts b))

end Sys2Proof.Machine
end

section
/-! PORT_LANE_SET and PORT_TRAIN (03_lanes.md R132, R137, R138), and the panel commands
(13_front_panel_and_service.md R552 to R556). -/

namespace Sys2Proof.Machine

open Sys2Proof

theorem argTurn_two {op mb w0 w1 w2 w3 : Nat} {ws : List Nat} {s : State}
    (h : Ready op mb (w0 :: w1 :: w2 :: w3 :: ws) s) : argTurn (cmdOf op mb 0 s) 2 = turnOf w2 w3 := by
  rw [argTurn, argW_two h, argW_three h, turnOf]

theorem port_popOrder (s : State) (u : Nat) : port (popOrder s) u = port s u := rfl

/-! ### PORT_LANE_SET (R137) -/

/-- The lane settings that word 1 names. -/
abbrev laneSetOf (w1 : Nat) : LaneSet :=
  { rate := fld w1 1 0, width := fld w1 3 2, sel := fld w1 5 4, idleAfter := fld w1 31 16 }

/-- A change of IDLE_AFTER alone, which adds no action (R137). -/
abbrev IdleOnly (ls set : LaneSet) : Prop := ls = { set with idleAfter := ls.idleAfter } ∧ ls.idleAfter ≠ set.idleAfter

section PortLaneSet

variable {mb w0 w1 w2 w3 : Nat} {s : State}

theorem laneSetBad_of (hrate : fld w1 1 0 < 3) (hwidth : fld w1 3 2 < 3) (htwo : fld w1 3 2 = 2 → fld w1 5 4 = 0)
    (hone : fld w1 3 2 = 1 → fld w1 5 4 < 2) : laneSetBad (laneSetOf w1) = false := by
  have hsel2 : (fld w1 3 2 == 2 && fld w1 5 4 != 0) = false := by
    by_cases hw : fld w1 3 2 = 2
    · rw [htwo hw, Bool.and_comm]
      rfl
    · rw [beq_false_of_ne hw, Bool.false_and]
  have hsel1 : (fld w1 3 2 == 1 && decide (2 ≤ fld w1 5 4)) = false := by
    by_cases hw : fld w1 3 2 = 1
    · rw [decide_eq_false (Nat.not_le.2 (hone hw)), Bool.and_false]
    · rw [beq_false_of_ne hw, Bool.false_and]
  unfold laneSetBad
  rw [beq_false_of_ne (Nat.ne_of_lt hrate), beq_false_of_ne (Nat.ne_of_lt hwidth), hsel2, hsel1]
  rfl

variable (h : Ready 0x0100 mb [w0, w1, w2, w3] s) (ha : AddressOk w0) (hbad : laneSetBad (laneSetOf w1) = false)

include h ha hbad

theorem portLaneSet_atOnce (hnow : bit w1 15 = false)
    (hdark : (port s (addressUnit w0)).st = .dark ∨
      laneSetOf w1 = { (port s (addressUnit w0)).set with idleAfter := (laneSetOf w1).idleAfter }) :
    Completes (.portLaneSet mb 0) mb s stOk false []
      (modPort (addressUnit w0) (fun p => { p with set := laneSetOf w1 }) s) := by
  have hw := argW_zero h
  have hopen : ((port s (addressUnit w0)).st != .dark &&
      !decide (laneSetOf w1 = { (port s (addressUnit w0)).set with idleAfter := (laneSetOf w1).idleAfter })) = false := by
    rcases hdark with hst | hls
    · rw [hst]
      rfl
    · rw [decide_eq_true hls, Bool.and_comm]
      rfl
  refine completes_blind (f := modPort _ _) (body := portLaneSetBody) rfl h rfl ?_ (fun _ _ => rfl)
  unfold portLaneSetBody laneSetArg
  dsimp only
  rw [lenIs_four h, paUnit_of hw, argW_one h, port_popOrder, hnow,
    argChecks_of_false (by simp [paBad_of hw ha, hbad]), if_neg Bool.false_ne_true, check_of_false hopen]
  rfl

theorem portLaneSet_placed (hturn : bit w1 15 = true) (hp : Placeable .laneChange (addressUnit w0) (turnOf w2 w3) s)
    (hnot : ¬ IdleOnly (laneSetOf w1) (port s (addressUnit w0)).set) :
    Completes (.portLaneSet mb 0) mb s stOk false []
      (schedAdd ⟨.laneChange, addressUnit w0, turnOf w2 w3, 0x0100, false, .lane (laneSetOf w1)⟩ s) := by
  have hw := argW_zero h
  have hidle : (decide (laneSetOf w1 = { (port s (addressUnit w0)).set with idleAfter := (laneSetOf w1).idleAfter }) &&
      (laneSetOf w1).idleAfter != (port s (addressUnit w0)).set.idleAfter) = false := by
    rw [Bool.eq_false_iff]
    intro hb
    rw [Bool.and_eq_true, decide_eq_true_iff, bne_iff_ne] at hb
    exact hnot hb
  have hfar : turnTooFar (turnOf w2 w3) (popOrder s) = false := hp.far
  have hnear : turnTooNear (turnOf w2 w3) (popOrder s) = false := hp.near
  have hfree : schedTaken .laneChange (addressUnit w0) (turnOf w2 w3) (popOrder s) = false := hp.free
  have hroom : schedFull (popOrder s) = false := hp.room
  have htimed : untimed (popOrder s) = false := hp.timed
  refine completes_blind (f := schedAdd _) (body := portLaneSetBody) rfl h rfl ?_ (fun _ _ => rfl)
  unfold portLaneSetBody laneSetArg
  dsimp only
  rw [lenIs_four h, paUnit_of hw, argW_one h, argTurn_two h, port_popOrder, hturn,
    argChecks_of_false (by simp [paBad_of hw ha, hbad, hfar]), if_pos rfl, check_of_false htimed, hidle,
    check_of_false (by rw [hnear, hfree]; rfl), check_of_false (by rw [hroom]; rfl), if_neg Bool.false_ne_true]
  rfl

theorem portLaneSet_idleOnly (hturn : bit w1 15 = true) (htimed : untimed s = false)
    (hlo : 4 ≤ tsub (turnOf w2 w3) s.reel.turn) (hhi : tsub (turnOf w2 w3) s.reel.turn ≤ 2 ^ 32)
    (hidle : IdleOnly (laneSetOf w1) (port s (addressUnit w0)).set) :
    Completes (.portLaneSet mb 0) mb s stOk false []
      (modPort (addressUnit w0) (fun p => { p with set := laneSetOf w1 }) s) := by
  have hw := argW_zero h
  obtain ⟨hls, hne⟩ := hidle
  have hfar : turnTooFar (turnOf w2 w3) (popOrder s) = false := turnTooFar_of_le (s := popOrder s) hhi
  have hnear : turnTooNear (turnOf w2 w3) (popOrder s) = false := turnTooNear_of_range (s := popOrder s) hlo hhi
  have htimed' : untimed (popOrder s) = false := htimed
  have hidle : (decide (laneSetOf w1 = { (port s (addressUnit w0)).set with idleAfter := (laneSetOf w1).idleAfter }) &&
      (laneSetOf w1).idleAfter != (port s (addressUnit w0)).set.idleAfter) = true := by
    rw [decide_eq_true hls, bne_iff_ne.2 hne]
    rfl
  refine completes_blind (f := modPort _ _) (body := portLaneSetBody) rfl h rfl ?_ (fun _ _ => rfl)
  unfold portLaneSetBody laneSetArg
  dsimp only
  rw [lenIs_four h, paUnit_of hw, argW_one h, argTurn_two h, port_popOrder, hturn,
    argChecks_of_false (by simp [paBad_of hw ha, hbad, hfar]), if_pos rfl, check_of_false htimed', hidle,
    check_of_false (by rw [hnear]; rfl), check_of_false (by rfl), if_pos rfl]
  rfl

end PortLaneSet

/-! ### PORT_TRAIN (R138) -/

section PortTrain

variable {mb w0 w1 : Nat} {s : State} (h : Ready 0x0101 mb [w0, w1] s) (ha : AddressOk w0)
  (hlo : fld w1 31 16 = 0 ∨ 16 ≤ fld w1 31 16) (hhi : fld w1 31 16 ≤ 4096)

include hlo hhi in
/-- A TIMEOUT and an ACTION in range. -/
theorem trainArgs_ok (hact : fld w1 1 0 ≠ 3) :
    (fld w1 1 0 == 3 || (fld w1 31 16 != 0 && decide (fld w1 31 16 < 16)) || decide (4096 < fld w1 31 16)) = false := by
  have htimeout : (fld w1 31 16 != 0 && decide (fld w1 31 16 < 16)) = false := by
    rcases hlo with hz | hge
    · rw [hz]
      rfl
    · rw [decide_eq_false (Nat.not_lt.2 hge), Bool.and_false]
  rw [beq_false_of_ne hact, htimeout, decide_eq_false (Nat.not_lt.2 hhi)]
  rfl

include h ha hlo hhi

theorem portTrain_disables (hact : fld w1 1 0 = 0) :
    Completes (.portTrain mb 0) mb s stOk false []
      (asicCheck (uAsic (addressUnit w0)) (portDark (addressUnit w0)
        (modPunit (addressUnit w0) (fun x => { x with disabled := true }) s))) := by
  have hw := argW_zero h
  refine completes_blind (f := fun s => asicCheck _ (portDark _ (modPunit _ _ s))) (body := portTrainBody) rfl h rfl ?_
    ((asicCheck_blind _).comp (disablePort_blind _))
  unfold portTrainBody
  dsimp only
  rw [lenIs_two h, paUnit_of hw, argW_one h,
    argChecks_two (paBad_of hw ha) (trainArgs_ok hlo hhi (by rw [hact]; decide)), if_pos hact]
  rfl

theorem portTrain_trains (hact : fld w1 1 0 = 1 ∨ fld w1 1 0 = 2)
    (hanswers : uSide (addressUnit w0) = 1 ∨ asicAnswers s (uAsic (addressUnit w0)) = true)
    (hdark : (port s (addressUnit w0)).st = .dark) :
    Completes (.portTrain mb 0) mb s stOk false []
      (portTo (addressUnit w0) .training
        (modPort (addressUnit w0) (fun p =>
            { p with manual := fld w1 1 0 == 2, timeout := if fld w1 31 16 = 0 then 256 else fld w1 31 16 })
          (modPunit (addressUnit w0) (fun x => { x with disabled := false }) s))) := by
  have hw := argW_zero h
  have hanswers' : (uSide (addressUnit w0) == 0 && !asicAnswers (popOrder s) (uAsic (addressUnit w0))) = false := by
    rcases hanswers with hside | hans
    · rw [hside]
      rfl
    · rw [show asicAnswers (popOrder s) (uAsic (addressUnit w0)) = true from hans, Bool.and_comm]
      rfl
  refine completes_blind (f := fun s => portTo _ _ (modPort _ _ (modPunit _ _ s))) (body := portTrainBody) rfl h rfl ?_
    (MailBlind.comp (g := fun s => modPort _ _ (modPunit _ _ s)) (portTo_blind _ _) fun _ _ => rfl)
  unfold portTrainBody
  dsimp only
  rw [lenIs_two h, paUnit_of hw, argW_one h,
    argChecks_two (paBad_of hw ha) (trainArgs_ok hlo hhi (by omega)), if_neg (by omega), check_of_false hanswers',
    port_popOrder, check_of_false (by rw [hdark]; rfl)]
  rfl

end PortTrain

/-- Settles O15. -/
theorem portSettingsComplete : Obligations.PortSettingsComplete := by
  refine ⟨fun mb w0 w1 w2 w3 s h ha hrate hwidth htwo hone => ?_, fun mb w0 w1 s h ha hlo hhi => ?_⟩
  · have hbad := laneSetBad_of hrate hwidth htwo hone
    refine ⟨fun hnow hdark => portLaneSet_atOnce h ha hbad hnow hdark, fun hturn hp hnot => ?_,
      fun hturn htimed hlo hhi hls hne => portLaneSet_idleOnly h ha hbad hturn htimed hlo hhi ⟨hls, hne⟩⟩
    refine portLaneSet_placed h ha hbad hturn hp ?_
    rintro ⟨hls, hne⟩
    rcases hnot with hdiff | hsame
    · exact hdiff hls
    · exact hne (congrArg LaneSet.idleAfter hsame)
  · exact ⟨fun hact => portTrain_disables h ha hlo hhi hact,
      fun hact hanswers hdark => portTrain_trains h ha hlo hhi hact hanswers hdark⟩

/-! ### The panel commands (R552, R553, R555, R556) -/

section Panel

variable {mb w0 w1 : Nat} {s : State}

theorem panelConfigSet_reads (h : Ready 0x0920 mb [w0, w1] s) (hread : bit w0 31 = true) :
    Completes (.panelConfigSet mb 0) mb s stOk true (leWords (panelCfgWords s)) s := by
  have hw := argW_zero h
  have hbody : panelConfigSetBody (cmdOf 0x0920 mb 0 s) (popOrder s) =
      report (panelCfgWords (popOrder s)) (popOrder s) := by
    unfold panelConfigSetBody
    rw [lenIs_two h, hw, if_pos hread]
  exact completes_done' (body := panelConfigSetBody) rfl h (by rw [hw, hread]) hbody rfl rfl rfl

theorem panelConfigSet_sets (h : Ready 0x0920 mb [w0, w1] s) (hwrite : bit w0 31 = false) (hask : fld w0 7 0 ≠ 0) :
    Completes (.panelConfigSet mb 0) mb s stOk false
      (leWords [put 8 8 (bit w0 8).toNat + put 7 0 (fld w0 7 0), put 7 0 (fld w1 7 0)])
      (modPanel (fun p => { p with seatTrain := bit w0 8, askTimeout := fld w0 7 0, findTimeout := fld w1 7 0 }) s) := by
  have hw := argW_zero h
  refine completes_blind (f := modPanel _) (body := panelConfigSetBody) rfl h (by rw [hw, hwrite]) ?_ (fun _ _ => rfl)
  unfold panelConfigSetBody
  dsimp only
  rw [lenIs_two h, hw, argW_one h, if_neg (by rw [hwrite]; exact Bool.false_ne_true),
    argChecks_one (beq_false_of_ne hask)]
  rfl

theorem panelStatusGet_completes (h : Ready 0x0921 mb [] s) :
    Completes (.panelStatusGet mb 0) mb s stOk true (leWords (panelWords s))
      (modPanel (fun p => { p with tripped := false }) s) :=
  completes_blind (f := modPanel fun p => { p with tripped := false }) (body := panelStatusGetBody) rfl h rfl (lenIs_none h)
    (fun _ _ => rfl)

theorem bay_popOrder (b : Nat) : bay (popOrder s) b = bay s b := rfl

theorem cartAnswer_grants (h : Ready 0x0922 mb [w0] s) (hask : (bay s (fld w0 3 0)).askEnd ≠ none)
    (hgrant : bit w0 8 = true) (hports : ∀ u ∈ bayPorts (fld w0 3 0), (port s u).st ≠ .admitted)
    (hpend : cartPending s (fld w0 3 0) = false) :
    Completes (.cartAnswer mb 0) mb s stOk false [] (releaseCart (fld w0 3 0) false s) := by
  have hfree : ((bayPorts (fld w0 3 0)).any fun u => (port (popOrder s) u).st == .admitted) = false := by
    rw [List.any_eq_false]
    intro u hu hb
    exact hports u hu (beq_iff_eq.1 hb)
  have hpend' : cartPending (popOrder s) (fld w0 3 0) = false := hpend
  have hask' : (bay s (fld w0 3 0)).askEnd.isNone = false := by
    cases ha : (bay s (fld w0 3 0)).askEnd with
    | none => exact absurd ha hask
    | some t => rfl
  refine completes_blind (f := releaseCart _ _) (body := cartAnswerBody) rfl h rfl ?_ (releaseCart_blind _ _)
  unfold cartAnswerBody
  dsimp only
  rw [lenIs_one h, argW_zero h, check_of_false (by rw [hfree, hpend', Bool.or_false, Bool.and_false]), bay_popOrder,
    check_of_false hask', if_pos hgrant]
  rfl

theorem cartAnswer_refuses (h : Ready 0x0922 mb [w0] s) (hask : (bay s (fld w0 3 0)).askEnd ≠ none)
    (hrefuse : bit w0 8 = false) :
    Completes (.cartAnswer mb 0) mb s stOk false []
      (raise 0x0929 [(4, fld w0 3 0)]
        (modBay (fld w0 3 0) (fun y => { y with askEnd := none, deniedAt := some s.reel.bounds }) s)) := by
  have hask' : (bay s (fld w0 3 0)).askEnd.isNone = false := by
    cases ha : (bay s (fld w0 3 0)).askEnd with
    | none => exact absurd ha hask
    | some t => rfl
  refine completes_blind (f := fun s => raise _ _ (modBay _ _ s)) (body := cartAnswerBody) rfl h rfl ?_ (fun _ _ => rfl)
  unfold cartAnswerBody
  dsimp only
  rw [lenIs_one h, argW_zero h, hrefuse, check_of_false (Bool.false_and _), bay_popOrder, check_of_false hask',
    if_neg Bool.false_ne_true]
  rfl

theorem panelFindSet_completes (h : Ready 0x0923 mb [w0] s) (hcarts : fld w0 15 0 = 0 ∨ cartsOn s = true) :
    let v := if bit w0 17 then some (findEnd s) else none
    let t := if bit w0 16 then modPanel (fun p => { p with trayFind := v }) s else s
    Completes (.panelFindSet mb 0) mb s stOk false []
      (forAll (numbers 16 fun b => (fld w0 15 0).testBit b) (fun b => modBay b fun y => { y with find := v }) t) := by
  intro v t
  have hcarts' : (fld w0 15 0 != 0 && !cartsOn (popOrder s)) = false := by
    rcases hcarts with hz | hon
    · rw [hz]
      rfl
    · rw [show cartsOn (popOrder s) = true from hon, Bool.and_comm]
      rfl
  refine completes_blind
    (f := fun s => forAll (numbers 16 fun b => (fld w0 15 0).testBit b) (fun b => modBay b fun y => { y with find := v })
      (onlyIf (bit w0 16) (modPanel fun p => { p with trayFind := v }) s))
    (body := panelFindSetBody) rfl h rfl ?_
    (MailBlind.comp (MailBlind.forAll (fun _ _ _ => rfl) _)
      (MailBlind.onlyIf (f := modPanel fun p => { p with trayFind := v }) (fun _ _ => rfl) _))
  unfold panelFindSetBody
  dsimp only
  rw [lenIs_one h, argW_zero h, check_of_false hcarts']
  rfl

theorem cartInfoGet_completes (h : Ready 0x0924 mb [w0] s) :
    Completes (.cartInfoGet mb 0) mb s stOk true (cartInfo s (fld w0 3 0)) s := by
  have hbody : cartInfoGetBody (cmdOf 0x0924 mb 0 s) (popOrder s) =
      .done stOk (cartInfo (popOrder s) (fld w0 3 0)) (popOrder s) := by
    unfold cartInfoGetBody
    rw [lenIs_one h, argW_zero h]
  exact completes_done' (body := cartInfoGetBody) rfl h rfl hbody rfl rfl rfl

end Panel

/-- Settles O46. -/
theorem panelCommandsComplete : Obligations.PanelCommandsComplete := by
  refine ⟨fun mb w0 w1 s h =>
      ⟨fun hread => panelConfigSet_reads h hread, fun hwrite hask => panelConfigSet_sets h hwrite hask⟩,
    fun mb s h => panelStatusGet_completes h, fun mb w0 s h => ?_, fun mb w0 s h hcarts => panelFindSet_completes h hcarts,
    fun mb w0 s h => cartInfoGet_completes h⟩
  exact fun hask => ⟨fun hgrant hports hpend => cartAnswer_grants h hask hgrant hports hpend,
    fun hrefuse => cartAnswer_refuses h hask hrefuse⟩

end Sys2Proof.Machine
end

section
/-! Frames that the HC-8 originates, as operations that do not look at the mailboxes (R195, R197), and the housekeeping
commands (15_mailboxes.md R610, R618, R623 to R625). -/

namespace Sys2Proof.Machine

open Sys2Proof

/-! ### Frames of the HC-8 -/

theorem hc8Queue_modMail (asics : List Nat) (f : Frame) (g : Mail → Mail) (s : State) :
    hc8Queue asics f (modMail g s) = ((hc8Queue asics f s).1, modMail g (hc8Queue asics f s).2) := by
  unfold hc8Queue
  dsimp only
  rw [show sprayPick (modMail g s) (32 + f.cls) (asics.flatMap fun a => hc8Ports (modMail g s) a f.cls)
      (fun u => depth (modMail g s) u f.cls) =
    sprayPick s (32 + f.cls) (asics.flatMap fun a => hc8Ports s a f.cls) (fun u => depth s u f.cls) from rfl]
  cases sprayPick s (32 + f.cls) (asics.flatMap fun a => hc8Ports s a f.cls) (fun u => depth s u f.cls) with
  | none => rfl
  | some u => rfl

theorem flowSet_blind (dst chan n : Nat) : MailBlind (flowSet dst chan n) := by
  intro g s
  unfold flowSet
  rw [show setHolding (modMail g s) dst chan = setHolding s dst chan from rfl]
  cases setHolding s dst chan with
  | none => rfl
  | some k => exact MailBlind.forAll (fun _ _ _ => rfl) _ g s

theorem pathStep_blind (f : Frame) : MailBlind (pathStep f) := fun _ _ => rfl

theorem hc8Send_modMail (f : Frame) (g : Mail → Mail) (s : State) :
    hc8Send f (modMail g s) = ((hc8Send f s).1, modMail g (hc8Send f s).2) := by
  have hq := hc8Queue_modMail (hc8Asics s f.dst) (hc8Frame s f) g s
  have hnext : flowNext (modMail g s) f.dst f.chan = flowNext s f.dst f.chan := rfl
  unfold hc8Send
  rw [show hc8Asics (modMail g s) f.dst = hc8Asics s f.dst from rfl, show hc8Frame (modMail g s) f = hc8Frame s f from rfl,
    hq, hnext]
  obtain ⟨ok, t⟩ := hc8Queue (hc8Asics s f.dst) (hc8Frame s f) s
  cases ok with
  | false => rfl
  | true =>
    have hset := ((flowSet_blind f.dst f.chan ((flowNext s f.dst f.chan + 1) % 65536)).comp (pathStep_blind f)) g t
    exact congrArg (fun x => (true, x)) hset

theorem hc8Post_blind (f : Frame) : MailBlind (hc8Post f) := fun g s => congrArg Prod.snd (hc8Send_modMail f g s)

theorem hc8Queue_reel (asics : List Nat) (f : Frame) (s : State) : (hc8Queue asics f s).2.reel = s.reel := by
  unfold hc8Queue
  dsimp only
  split <;> rfl

theorem flowSet_reel (dst chan n : Nat) (s : State) : (flowSet dst chan n s).reel = s.reel := by
  unfold flowSet
  split
  · exact forAll_keeps State.reel _ _ _ fun _ _ => rfl
  · rfl

theorem hc8Post_reel (f : Frame) (s : State) : (hc8Post f s).reel = s.reel := by
  have hq := hc8Queue_reel (hc8Asics s f.dst) (hc8Frame s f) s
  unfold hc8Post hc8Send
  dsimp only
  split
  · rw [flowSet_reel]
    exact hq
  · rfl

/-! ### The housekeeping commands (R623 to R625) -/

/-- Setting one key of a table leaves the others, whatever they read where they are absent. -/
theorem tabGet_tabSet_other {α : Type} [DecidableEq α] (d e : α) (t : Tab α) (k : Nat) (v : α) (a : Nat) (h : a ≠ k) :
    tabGet e (tabSet d t k v) a = tabGet e t a := by
  have hk : ¬ k = a := fun he => h he.symm
  induction t with
  | nil =>
    unfold tabSet
    split
    · rfl
    · exact if_neg hk
  | cons x t ih =>
    obtain ⟨k', v'⟩ := x
    unfold tabSet
    split
    · split
      · rfl
      · exact if_neg hk
    · split
      · next heq =>
        subst heq
        rw [show tabGet e ((k, v') :: t) a = tabGet e t a from if_neg hk]
        split
        · rfl
        · exact if_neg hk
      · unfold tabGet
        rw [ih]

section Housekeeping

variable {mb w0 w1 w2 : Nat} {s : State}

theorem nop_completes {args : List Nat} (h : Ready 0x0000 mb args s) :
    Completes (.nop mb 0) mb s stOk true (leWords args) s := by
  have hbody : nopBody (cmdOf 0x0000 mb 0 s) (popOrder s) = .done stOk (leWords args) (popOrder s) := by
    rw [nopBody, args_ready h]
  exact completes_done' (body := nopBody) rfl h rfl hbody rfl rfl rfl

theorem mailboxRead_completes (h : Ready 0x0007 mb [w0, w1] s) (hoff : fld w1 27 16 % 4 = 0) (hlen : fld w1 11 0 % 4 = 0)
    (hlo : 4 ≤ fld w1 11 0) (hhi : fld w1 11 0 ≤ 4064) (hend : fld w1 27 16 + fld w1 11 0 ≤ 4096) :
    Completes (.mailboxRead mb 0) mb s stOk true
      (tabRead (memAtPoint mb s) (0x1000 * fld w0 4 0 + fld w1 27 16) (fld w1 11 0)) s := by
  have hrange : (fld w1 27 16 % 4 != 0 || fld w1 11 0 % 4 != 0 || decide (fld w1 11 0 < 4) || decide (4064 < fld w1 11 0) ||
      decide (4096 < fld w1 27 16 + fld w1 11 0)) = false := by
    rw [hoff, hlen, decide_eq_false (Nat.not_lt.2 hlo), decide_eq_false (Nat.not_lt.2 hhi),
      decide_eq_false (Nat.not_lt.2 hend)]
    rfl
  have hbody : mailboxReadBody (cmdOf 0x0007 mb 0 s) (popOrder s) =
      .done stOk (tabRead (memAtPoint mb (popOrder s)) (0x1000 * fld w0 4 0 + fld w1 27 16) (fld w1 11 0)) (popOrder s) := by
    unfold mailboxReadBody
    dsimp only
    rw [lenIs_two h, argW_zero h, argW_one h, argChecks_one hrange, mb_ready]
  exact completes_done' (body := mailboxReadBody) rfl h rfl hbody rfl rfl rfl

/-- MAILBOX_CONFIG_SET as it changes another mailbox. -/
abbrev boxSet (n : Nat) (w1 : Nat) (s : State) : State :=
  modBox n (fun b => { b with source := viaOf (fld w1 9 8), vector := fld w1 4 0 }) s

theorem box_popOrder (n : Nat) : box (popOrder s) n = box s n := rfl

theorem mailboxConfigSet_sets (h : Ready 0x0002 mb [w0, w1] s) (hwrite : bit w0 31 = false) (hsrc : fld w1 9 8 ≠ 3)
    (hother : fld w0 4 0 ≠ mb) (hidle : isActive (box s (fld w0 4 0)) = false)
    (hfixed : viaOf (fld w1 9 8) = (box s (fld w0 4 0)).source ∨
      (fld w0 4 0 ≠ 0 ∧ fld w0 4 0 ≠ 30 ∧ fld w0 4 0 ≠ 31))
    (hchange : viaOf (fld w1 9 8) ≠ (box s (fld w0 4 0)).source ∨ fld w1 4 0 ≠ (box s (fld w0 4 0)).vector) :
    Completes (.mailboxConfigSet mb 0) mb s stOk false (leWords (boxWords (boxSet (fld w0 4 0) w1 s) (fld w0 4 0)))
      (boxSet (fld w0 4 0) w1 s) := by
  have hw := argW_zero h
  have hargs : (fld w1 9 8 == 3 || ((!false && viaOf (fld w1 9 8) != (box s (fld w0 4 0)).source) &&
      (fld w0 4 0 == 0 || fld w0 4 0 == 30 || fld w0 4 0 == 31))) = false := by
    rw [beq_false_of_ne hsrc, Bool.false_or]
    rcases hfixed with hsame | ⟨h0, h30, h31⟩
    · rw [hsame, bne_self_eq_false]
      rfl
    · rw [beq_false_of_ne h0, beq_false_of_ne h30, beq_false_of_ne h31, Bool.and_comm]
      rfl
  have hchange' : (!false && (viaOf (fld w1 9 8) != (box s (fld w0 4 0)).source ||
      fld w1 4 0 != (box s (fld w0 4 0)).vector)) = true := by
    rw [Bool.not_false, Bool.true_and, Bool.or_eq_true, bne_iff_ne, bne_iff_ne]
    exact hchange
  have hbusy : (true && (isActive (box s (fld w0 4 0)) || fld w0 4 0 == mb)) = false := by
    rw [hidle, beq_false_of_ne hother]
    rfl
  have hbody : mailboxConfigSetBody (cmdOf 0x0002 mb 0 s) (popOrder s) =
      .done stOk (leWords (boxWords (boxSet (fld w0 4 0) w1 (popOrder s)) (fld w0 4 0)))
        (boxSet (fld w0 4 0) w1 (popOrder s)) := by
    unfold mailboxConfigSetBody
    dsimp only
    rw [lenIs_two h, hw, argW_one h, hwrite, box_popOrder, argChecks_one hargs, hchange', mb_ready, check_of_false hbusy,
      if_pos rfl]
  have hbox : box (boxSet (fld w0 4 0) w1 (popOrder s)) mb = box s mb := 
    tabGet_tabSet_other _ _ _ _ _ _ (Ne.symm hother)
  refine completes_done (body := mailboxConfigSetBody) rfl h (by rw [hw, hwrite]) hbody rfl rfl ?_ h.1.2.1 h.1.2.2.1
  rw [hbox]
  exact h.2.2.1

theorem mailboxConfigSet_reads (h : Ready 0x0002 mb [w0, w1] s) (hread : bit w0 31 = true) (hsrc : fld w1 9 8 ≠ 3) :
    Completes (.mailboxConfigSet mb 0) mb s stOk true (leWords (boxWords s (fld w0 4 0))) s := by
  have hw := argW_zero h
  have hbody : mailboxConfigSetBody (cmdOf 0x0002 mb 0 s) (popOrder s) =
      .done stOk (leWords (boxWords (popOrder s) (fld w0 4 0))) (popOrder s) := by
    unfold mailboxConfigSetBody
    dsimp only
    rw [lenIs_two h, hw, argW_one h, hread, argChecks_one (by rw [beq_false_of_ne hsrc]; rfl),
      check_of_false (by rfl), if_neg (by rw [Bool.not_true, Bool.false_and]; exact Bool.false_ne_true)]
  exact completes_done' (body := mailboxConfigSetBody) rfl h (by rw [hw, hread]) hbody rfl rfl rfl

theorem scheduledCancel_completes {a : Sched} (h : Ready 0x0006 mb [w0, w1, w2] s) (hkind : fld w0 31 28 < 7)
    (ha : s.sched.find? (fun a => kindCode a.kind == fld w0 31 28 && fld ((schedEntry a).headD 0) 15 0 == fld w0 15 0 &&
      a.turn == turnOf w1 w2) = some a)
    (hdriver : a.trayPlaced = false) (hfar : 4 ≤ tsub (turnOf w1 w2) s.reel.turn) :
    Completes (.scheduledCancel mb 0) mb s stOk false [] (schedRemove a s) := by
  have hnear : decide (tsub (turnOf w1 w2) (popOrder s).reel.turn < 4) = false := decide_eq_false (Nat.not_lt.2 hfar)
  have hbody : scheduledCancelBody (cmdOf 0x0006 mb 0 s) (popOrder s) = applied (schedCancel a (popOrder s)) := by
    unfold scheduledCancelBody
    dsimp only
    rw [lenIs_three h, argW_zero h, argTurn_one h, argChecks_one (decide_eq_false (Nat.not_le.2 hkind)),
      show (popOrder s).sched = s.sched from rfl, ha]
    dsimp only
    rw [hdriver, check_of_false rfl, check_of_false hnear]
  exact completes_done' (body := scheduledCancelBody) rfl h rfl hbody rfl rfl rfl

theorem badOpcode_completes {op : Nat} {args : List Nat} (h : Ready op mb args s) (hop : knownOpcode op = false) :
    Completes (.badOpcode mb 0) mb s stBadOpcode true [] s := by
  have hcode : opcodeOf s mb = op := by
    obtain ⟨-, hpoint, -⟩ := h
    unfold atPoint at hpoint
    rw [Bool.and_eq_true, beq_iff_eq] at hpoint
    exact hpoint.2
  have hexec : exec (.badOpcode mb 0) s = act (readCommand op mb 0 fun _ _ => .refuse stBadOpcode 0xFFF []) s := by
    change execBadOpcode mb 0 s = _
    unfold execBadOpcode act
    dsimp only
    rw [hcode, hop, if_neg Bool.false_ne_true]
  exact completes_refuse (body := fun _ _ => .refuse stBadOpcode 0xFFF []) hexec h rfl

end Housekeeping

/-! ### REMOTE_CALL (R610) -/

section RemoteCall

variable {mb w0 w1 h0 h1 h2 h3 h4 h5 h6 h7 : Nat} {inner : List Nat} {s : State}
  (h : Ready 0x0004 mb ([w0, w1, h0, h1, h2, h3, h4, h5, h6, h7] ++ inner) s)

include h in
/-- The request that a remote call carries: the header and the argument block of the inner command. -/
theorem remoteCall_payload : (cmdOf 0x0004 mb 0 s).args.drop 8 = leWords ([h0, h1, h2, h3, h4, h5, h6, h7] ++ inner) :=
  args_drop (a := [w0, w1]) (b := [h0, h1, h2, h3, h4, h5, h6, h7] ++ inner) h 0

include h in
theorem remoteCall_starts (hvia : fld w0 31 30 = 0) (hinner : fld h2 11 0 = 4 * inner.length) (hlen : inner.length ≤ 1006)
    (htray : fld w0 23 16 ≠ s.tray.number)
    (hpath : ∃ a < 4, (asicSt s a).st = .standby ∨ (asicSt s a).st = .admitted)
    (hbusy : longBusy s 0x0004 (callSubject false (fld w0 23 16) (fld w1 31 16)) = false) (hwait : fld w1 15 0 = 0) :
    Starts (.remoteCall mb 0) 0x0004 mb (callSubject false (fld w0 23 16) (fld w1 31 16)) (16 * 1024 * 4096) true s
      (modMail (fun m => { m with calls := m.calls ++
          [{ mb := mb, viaCrier := false, tray := fld w0 23 16, tag := fld w1 31 16 }] })
        (hc8Post (ctrlFrame (ownEid s) (0xC00 + fld w0 23 16) 0 2 (fld w1 31 16)
          (transportWord (fld w0 4 0) 0 false 0) 0 0 0 (leWords ([h0, h1, h2, h3, h4, h5, h6, h7] ++ inner))) s)) := by
  have hw0 : argW (cmdOf 0x0004 mb 0 s) 0 = w0 := argW_ready h 0 (by simp)
  have hw1 : argW (cmdOf 0x0004 mb 0 s) 1 = w1 := argW_ready h 1 (by simp)
  have hw4 : argW (cmdOf 0x0004 mb 0 s) 4 = h2 := argW_ready h 4 (by simp)
  have hbytes : (cmdOf 0x0004 mb 0 s).len = 40 + 4 * inner.length := by
    rw [len_ready h, List.length_append]
    simp only [List.length_cons, List.length_nil]
    omega
  have hpath' : ((List.range 4).all fun a => (asicSt (popOrder s) a).st != .standby &&
      (asicSt (popOrder s) a).st != .admitted) = false := by
    obtain ⟨a, ha, hst⟩ := hpath
    refine List.all_eq_false.2 ⟨a, List.mem_range.2 ha, ?_⟩
    change ¬ ((asicSt s a).st != .standby && (asicSt s a).st != .admitted) = true
    rcases hst with hst | hst <;> rw [hst] <;> decide
  have hbody : remoteCallBody (cmdOf 0x0004 mb 0 s) (popOrder s) =
      .start (callSubject false (fld w0 23 16) (fld w1 31 16)) (16 * 1024 * 4096)
        (modMail (fun m => { m with calls := m.calls ++
            [{ mb := mb, viaCrier := false, tray := fld w0 23 16, tag := fld w1 31 16 }] })
          (hc8Post (ctrlFrame (ownEid s) (0xC00 + fld w0 23 16) 0 2 (fld w1 31 16)
            (transportWord (fld w0 4 0) 0 false 0) 0 0 0 (leWords ([h0, h1, h2, h3, h4, h5, h6, h7] ++ inner)))
            (popOrder s))) := by
    have hblock : (decide ((cmdOf 0x0004 mb 0 s).len < 40) || (cmdOf 0x0004 mb 0 s).len != 40 + fld h2 11 0) = false := by
      rw [hbytes, hinner, decide_eq_false (by omega), bne_self_eq_false]
      rfl
    have hsize : decide ((if ((0 : Nat) == 1) = true then 210 else 4024) < fld h2 11 0) = false := by
      rw [hinner, if_neg (by decide), decide_eq_false (by omega)]
    have hnumber : (fld w0 23 16 == (popOrder s).tray.number) = false := beq_false_of_ne htray
    have hbusy' : longBusy (popOrder s) 0x0004 (callSubject false (fld w0 23 16) (fld w1 31 16)) = false := hbusy
    unfold remoteCallBody
    dsimp only
    rw [hw0, hw1, hw4, hvia, hwait, remoteCall_payload h, if_neg (by rw [hblock]; exact Bool.false_ne_true),
      argChecks_two (by rfl) hsize, show ((0 : Nat) == 1) = false from rfl,
      check_of_false (by rw [hnumber, hpath']; rfl), check_of_false hbusy', check_of_false (by rfl),
      if_neg Bool.false_ne_true, if_pos rfl, if_neg Bool.false_ne_true, mb_ready]
    rfl
  have hpost := hc8Post_blind (ctrlFrame (ownEid s) (0xC00 + fld w0 23 16) 0 2 (fld w1 31 16)
    (transportWord (fld w0 4 0) 0 false 0) 0 0 0 (leWords ([h0, h1, h2, h3, h4, h5, h6, h7] ++ inner)))
  refine starts_of (body := remoteCallBody) rfl h rfl hbody ?_ ?_ ?_ ?_ ?_
  · rw [modMail_reel, hc8Post_reel]
    rfl
  · rw [modMail_arch, modMail_arch]
    exact (congrArg State.arch (hpost _ s)).trans (modMail_arch _ _)
  · rw [modMail_mail, modMail_mail, hc8Post_mail, hc8Post_mail]
    rfl
  · rw [modMail_mail, hc8Post_mail]
    exact h.1.2.1
  · rw [modMail_mail, hc8Post_mail]
    exact h.1.2.2.1

end RemoteCall

/-- Settles O13. -/
theorem housekeepingCommandsComplete : Obligations.HousekeepingCommandsComplete :=
  ⟨fun _ _ _ h => nop_completes h,
    fun _ _ h => completes_done' (body := identityGetBody) rfl h rfl (lenIs_none h) rfl rfl rfl,
    fun _ _ h => completes_done' (body := mailboxStatusGetBody) rfl h rfl (lenIs_none h) rfl rfl rfl,
    fun _ _ h => completes_done' (body := scheduledGetBody) rfl h rfl (lenIs_none h) rfl rfl rfl,
    fun _ _ _ _ h hoff hlen hlo hhi hend => mailboxRead_completes h hoff hlen hlo hhi hend,
    fun _ _ _ _ h hwrite hsrc hother hidle hfixed hchange =>
      mailboxConfigSet_sets h hwrite hsrc hother hidle hfixed hchange,
    fun _ _ _ _ h hread hsrc => mailboxConfigSet_reads h hread hsrc,
    fun _ _ _ _ _ _ h hkind ha hdriver hfar => scheduledCancel_completes h hkind ha hdriver hfar,
    fun _ _ _ _ _ _ _ _ _ _ _ _ _ h hvia hinner hlen htray hpath hbusy hwait =>
      remoteCall_starts h hvia hinner hlen htray hpath hbusy hwait,
    fun _ _ _ _ h hop => badOpcode_completes h hop⟩

end Sys2Proof.Machine
end

section
/-! The domain commands (01_tray_and_domain.md R53 to R58) and the forwarding commands (04_frames_and_link.md R172,
05_forwarding_core.md R206 to R219). -/

namespace Sys2Proof.Machine

open Sys2Proof

/-! ### The held first frames, judged again (R46, R47) -/

theorem holdResume_blind (u : Nat) : MailBlind (holdResume u) := by
  intro g s
  unfold holdResume
  rw [show (punit (modMail g s) u).hold = (punit s u).hold from rfl]
  cases (punit s u).hold with
  | none => rfl
  | some h => exact ite_modMail Iff.rfl rfl rfl

theorem probationExit_blind (u : Nat) : MailBlind (probationExit u) := by
  intro g s
  unfold probationExit
  exact ite_modMail Iff.rfl (((holdResume_blind u).comp (portTo_blind u .standby)) g s) rfl

theorem judgeWiring_blind (u : Nat) : MailBlind (judgeWiring u) := by
  intro g s
  unfold judgeWiring
  rw [show (punit (modMail g s) u).first = (punit s u).first from rfl]
  cases (punit s u).first with
  | none => rfl
  | some f =>
    exact ite_modMail Iff.rfl (((probationExit_blind u).comp (g := modPunit u _) fun _ _ => rfl) g s)
      (ite_modMail Iff.rfl rfl rfl)

theorem rejudgeWiring_blind (asic : Nat) : MailBlind (rejudgeWiring asic) :=
  fun g s => MailBlind.forAll judgeWiring_blind _ g s

/-! ### The domain commands -/

section Domain

variable {mb w0 w1 : Nat} {s : State}

/-- The role that the two words of DOMAIN_ROLE_SET declare (R55). -/
abbrev declaredRole (w0 w1 : Nat) : Role :=
  { role := fld w0 1 0, gcount := fld w0 3 2, group := fld w0 5 4, position := fld w0 13 8,
    endpoints := fld w1 11 0, pods := fld w1 19 12, traysM1 := fld w1 27 20 }

theorem roleOf_ready (h : Ready 0x0800 mb [w0, w1] s) : roleOf (cmdOf 0x0800 mb 0 s) = declaredRole w0 w1 := by
  unfold roleOf
  rw [argW_zero h, argW_one h]

theorem domainRoleSet_completes (h : Ready 0x0800 mb [w0, w1] s) (hrole : (declaredRole w0 w1).role ≠ 3)
    (hcode : (declaredRole w0 w1).gcount ≠ 3) (hgroup : (declaredRole w0 w1).group < 2 ^ (declaredRole w0 w1).gcount)
    (hpos : positionBad (declaredRole w0 w1) = false) (hpods : podsBad (declaredRole w0 w1) = false)
    (hends : (declaredRole w0 w1).endpoints ≠ 0) (hfits : roleExceeds (declaredRole w0 w1) = false)
    (hst : s.tray.st ≠ .admitted) :
    Completes (.domainRoleSet mb 0) mb s stOk false []
      (forAll (List.range 4) rejudgeWiring
        (withCarts (modTray fun t => { t with role := some (declaredRole w0 w1) }) s)) := by
  have hword0 : ((declaredRole w0 w1).role == 3 || (declaredRole w0 w1).gcount == 3 ||
      decide (groupCount (declaredRole w0 w1).gcount ≤ (declaredRole w0 w1).group) ||
      positionBad (declaredRole w0 w1)) = false := by
    rw [beq_false_of_ne hrole, beq_false_of_ne hcode, hpos, groupCount, decide_eq_false (Nat.not_le.2 hgroup)]
    rfl
  have hword1 : (podsBad (declaredRole w0 w1) || (declaredRole w0 w1).endpoints == 0) = false := by
    rw [hpods, beq_false_of_ne hends]
    rfl
  have hst' : ((popOrder s).tray.st == TState.admitted) = false := beq_false_of_ne hst
  refine completes_blind (f := fun s => forAll (List.range 4) rejudgeWiring (withCarts (modTray _) s))
    (body := domainRoleSetBody) rfl h rfl ?_
    ((MailBlind.forAll rejudgeWiring_blind _).comp (withCarts_blind fun _ _ => rfl))
  unfold domainRoleSetBody
  dsimp only
  rw [lenIs_two h, roleOf_ready h, argChecks_two hword0 hword1, check_of_false hfits, check_of_false hst']
  rfl

/-- Settles O42. -/
theorem domainCommandsComplete : Obligations.DomainCommandsComplete :=
  ⟨fun _ _ _ _ h => domainRoleSet_completes h,
    fun _ _ h => completes_done' (body := domainRoleGetBody) rfl h rfl (lenIs_none h) rfl rfl rfl,
    fun _ _ h => completes_done' (body := trayInventoryGetBody) rfl h rfl (lenIs_none h) rfl rfl rfl⟩

end Domain

/-- Three checks of argument words that pass. -/
theorem argChecks_three {o o' o'' : Nat} {c c' c'' : Bool} {v : Verdict} (h : c = false) (h' : c' = false)
    (h'' : c'' = false) : argChecks [(o, c), (o', c'), (o'', c'')] v = v :=
  argChecks_of_false (by simp [h, h', h''])

/-! ### The endpoint table (R208, R211 to R214) -/

section Forwarding

variable {mb w0 w1 w2 : Nat} {s : State}

theorem eptRead_completes (h : Ready 0x0201 mb [w0] s) (hlo : 1 ≤ fld w0 19 12) (hhi : fld w0 19 12 ≤ 200)
    (hend : fld w0 31 20 + fld w0 19 12 ≤ 0x1000) :
    Completes (.eptRead mb 0) mb s stOk true
      (leWords ((List.range (fld w0 19 12)).flatMap fun i =>
        let e := eptEntry s (bit w0 0) (fld w0 5 4) (fld w0 31 20 + i)
        [e.w0.toNat, e.w1.toNat, e.w2.toNat, e.w3.toNat])) s := by
  have hrange : (fld w0 19 12 == 0 || decide (200 < fld w0 19 12) ||
      decide (0x1000 < fld w0 31 20 + fld w0 19 12)) = false := by
    rw [beq_false_of_ne (by omega), decide_eq_false (by omega), decide_eq_false (by omega)]
    rfl
  have hbody : eptReadBody (cmdOf 0x0201 mb 0 s) (popOrder s) =
      report ((List.range (fld w0 19 12)).flatMap fun i =>
        let e := eptEntry (popOrder s) (bit w0 0) (fld w0 5 4) (fld w0 31 20 + i)
        [e.w0.toNat, e.w1.toNat, e.w2.toNat, e.w3.toNat]) (popOrder s) := by
    unfold eptReadBody
    rw [lenIs_one h, argW_zero h]
    exact argChecks_one hrange
  exact completes_done' (body := eptReadBody) rfl h rfl hbody rfl rfl rfl

/-- Entry `i` of the words behind EPT_WRITE's first two, with 0 in its reserved bits (R15, R208). -/
abbrev eptGiven (entries : List Nat) (i : Nat) : EptEntry :=
  { w0 := BitVec.ofNat 32 (entries.getD (4 * i) 0), w1 := BitVec.ofNat 32 (entries.getD (4 * i + 1) 0)
    w2 := BitVec.ofNat 32 (entries.getD (4 * i + 2) 0) &&& 0x000FFFFF
    w3 := BitVec.ofNat 32 (entries.getD (4 * i + 3) 0) &&& 0x80000000 }

theorem eptArg_of {entries : List Nat} {n i : Nat} (h : Ready 0x0200 mb ([w0, w1] ++ entries) s)
    (hlen : entries.length = 4 * n) (hi : i < n) : eptArg (cmdOf 0x0200 mb 0 s) i = eptGiven entries i := by
  have hword : ∀ k < 4, argW (cmdOf 0x0200 mb 0 s) (2 + 4 * i + k) = entries.getD (4 * i + k) 0 := fun k hk => by
    rw [show 2 + 4 * i + k = [w0, w1].length + (4 * i + k) from Nat.add_assoc 2 (4 * i) k]
    exact argW_append h (by omega)
  unfold eptArg
  dsimp only
  rw [hword 0 (by omega), hword 1 (by omega), hword 2 (by omega), hword 3 (by omega)]
  rfl

/-- Entry `i` of a bank is written on one ASIC and leaves its lookup cache (R211). -/
def eptPut (bank : Bool) (first : Nat) (e : Nat → EptEntry) (a i : Nat) (s : State) : State :=
  modFwd (fun v =>
    { v with
      ept := tabSet {} v.ept (eptKey bank a (first + i)) (e i)
      cache := tabMod [] v.cache (bank.toNat * 4 + a) fun l => l.filter (· != first + i) }) s

theorem eptPut_blind (bank : Bool) (first : Nat) (e : Nat → EptEntry) (a i : Nat) :
    MailBlind (eptPut bank first e a i) := fun _ _ => rfl

theorem forAll_congr {α : Type} {f f' : α → State → State} {l : List α} (h : ∀ a ∈ l, f a = f' a) :
    forAll l f = forAll l f' := by
  funext s
  exact List.foldl_ext _ _ _ fun s a ha => by rw [h a ha]

theorem eptWrite_completes {entries : List Nat} (h : Ready 0x0200 mb ([w0, w1] ++ entries) s)
    (hlen : entries.length = 4 * fld w0 19 12) (hlo : 1 ≤ fld w0 19 12) (hhi : fld w0 19 12 ≤ 200)
    (hasics : fld w0 7 4 ≠ 0) (hend : fld w0 31 20 + fld w0 19 12 ≤ 0x1000)
    (hvalid : ∀ i < fld w0 19 12, eptValid (eptGiven entries i) = true → badEid (fld w0 31 20 + i) = false)
    (hbusy : bankBusy s (bit w0 0) = false) :
    Completes (.eptWrite mb 0) mb s stOk false []
      (forAll (numbers 4 fun a => (fld w0 7 4).testBit a) rejudgeWiring
        (withCarts (forAll (numbers 4 fun a => (fld w0 7 4).testBit a) fun a =>
          forAll (List.range (fld w0 19 12)) (eptPut (bit w0 0) (fld w0 31 20) (eptGiven entries) a)) s)) := by
  have hblock : (cmdOf 0x0200 mb 0 s).len = 8 + 16 * fld w0 19 12 := by
    rw [len_ready h, List.length_append, hlen, List.length_cons, List.length_singleton]
    omega
  have hrange : (fld w0 19 12 == 0 || decide (200 < fld w0 19 12) || fld w0 7 4 == 0 ||
      decide (0x1000 < fld w0 31 20 + fld w0 19 12)) = false := by
    rw [beq_false_of_ne (by omega), decide_eq_false (by omega), beq_false_of_ne hasics, decide_eq_false (by omega)]
    rfl
  have hargs : ∀ x ∈ [(0, fld w0 19 12 == 0 || decide (200 < fld w0 19 12) || fld w0 7 4 == 0 ||
        decide (0x1000 < fld w0 31 20 + fld w0 19 12))] ++
      (List.range (fld w0 19 12)).map fun i =>
        (20 + 16 * i, eptValid (eptArg (cmdOf 0x0200 mb 0 s) i) && badEid (fld w0 31 20 + i)), x.2 = false := by
    intro x hx
    rcases List.mem_append.1 hx with hx | hx
    · rw [List.mem_singleton.1 hx]
      exact hrange
    · obtain ⟨i, hi, rfl⟩ := List.mem_map.1 hx
      have hi := List.mem_range.1 hi
      dsimp only
      rw [eptArg_of h hlen hi]
      cases he : eptValid (eptGiven entries i) with
      | false => rfl
      | true => rw [hvalid i hi he]; rfl
  have hput : ∀ a, forAll (List.range (fld w0 19 12))
        (eptPut (bit w0 0) (fld w0 31 20) (eptArg (cmdOf 0x0200 mb 0 s)) a) =
      forAll (List.range (fld w0 19 12)) (eptPut (bit w0 0) (fld w0 31 20) (eptGiven entries) a) := fun a =>
    forAll_congr fun i hi => by
      funext t
      rw [eptPut, eptPut, eptArg_of h hlen (List.mem_range.1 hi)]
  have hbusy' : bankBusy (popOrder s) (bit w0 0) = false := hbusy
  refine completes_blind
    (f := fun s => forAll _ rejudgeWiring (withCarts (forAll (numbers 4 fun a => (fld w0 7 4).testBit a) fun a =>
      forAll (List.range (fld w0 19 12)) (eptPut (bit w0 0) (fld w0 31 20) (eptGiven entries) a)) s))
    (body := eptWriteBody) rfl h rfl ?_
    ((MailBlind.forAll rejudgeWiring_blind _).comp (withCarts_blind (MailBlind.forAll
      (fun a => MailBlind.forAll (eptPut_blind _ _ _ a) _) _)))
  unfold eptWriteBody
  dsimp only
  rw [argW_zero (ws := w1 :: entries) h, lenIs_of_eq hblock, argChecks_of_false hargs,
    check_of_false hbusy', ← funext hput]
  rfl

theorem tableSwitch_completes (h : Ready 0x0202 mb [w0, w1, w2] s) (hgrace : fld w0 6 0 ≤ 64)
    (hp : Placeable .tableSwitch 0 (turnOf w1 w2) s) (hpend : pendingTable s = none) (hruns : graceRuns s = false) :
    Completes (.tableSwitch mb 0) mb s stOk false []
      (schedAdd ⟨.tableSwitch, 0, turnOf w1 w2, 0x0202, false, .table (fld w0 6 0)⟩ s) := by
  have hfar : turnTooFar (turnOf w1 w2) (popOrder s) = false := hp.far
  have hnear : turnTooNear (turnOf w1 w2) (popOrder s) = false := hp.near
  have hroom : schedFull (popOrder s) = false := hp.room
  have htimed : untimed (popOrder s) = false := hp.timed
  have hpend' : pendingTable (popOrder s) = none := hpend
  have hruns' : graceRuns (popOrder s) = false := hruns
  refine completes_blind (f := schedAdd _) (body := tableSwitchBody) rfl h rfl ?_ (fun _ _ => rfl)
  unfold tableSwitchBody
  dsimp only
  rw [lenIs_three h, argW_zero h, argTurn_one h, argChecks_two (decide_eq_false (Nat.not_lt.2 hgrace)) hfar,
    check_of_false htimed, check_of_false (by rw [hnear, hpend', hruns']; rfl), check_of_false hroom]
  rfl

/-! ### Queues, classes and spill settings (R206, R215 to R219) -/

theorem keepMode_blind (u cls : Nat) : MailBlind (keepMode u cls) := by
  intro g s
  unfold keepMode
  rw [show headOf (modMail g s) u cls = headOf s u cls from rfl]
  cases headOf s u cls with
  | none => rfl
  | some q => exact ite_modMail Iff.rfl rfl rfl

theorem queueConfigGet_completes (h : Ready 0x0205 mb [w0, w1] s) (hport : fld w0 6 0 < 92) (hcls : fld w1 2 0 < 5) :
    let u := asicEnd (addressUnit w0)
    let q := queueCfg s u (fld w1 2 0)
    let d := depth s u (fld w1 2 0)
    Completes (.queueConfigGet mb 0) mb s stOk true
      (leWords [put 31 16 q.limit + put 15 11 q.unspill + put 10 6 q.mark + put 1 0 q.mode,
        put 31 16 (sat 16 d) + put 15 0 (sat 16 (max d (tabGet 0 s.fwd.peaks (u * 8 + fld w1 2 0))))])
      (modFwd (fun w => { w with peaks := tabSet 0 w.peaks (u * 8 + fld w1 2 0) d }) s) := by
  intro u q d
  have hw := argW_zero h
  refine completes_blind (f := modFwd _) (body := queueConfigGetBody) rfl h rfl ?_ (fun _ _ => rfl)
  unfold queueConfigGetBody
  dsimp only
  rw [lenIs_two h, argW_one h, paAsicEnd_of hw,
    argChecks_two (paBadNoSide_of hw hport) (decide_eq_false (Nat.not_le.2 hcls))]
  rfl

theorem queueConfigSet_completes (h : Ready 0x0204 mb [w0, w1, w2] s) (hport : fld w0 6 0 < 92) (hmask : fld w1 4 0 ≠ 0)
    (hunspill : fld w2 15 11 < 16) (hmark : fld w2 10 6 < 17) (hmode : fld w2 1 0 < 2) :
    let u := asicEnd (addressUnit w0)
    let units := if bit w1 16 then asicPorts (uAsic u) else [u]
    Completes (.queueConfigSet mb 0) mb s stOk false []
      (forAll units (fun v => forAll (numbers 5 fun k => (fld w1 4 0).testBit k) fun k s => modFwd (fun w =>
        { w with qcfg := tabSet (qDefault k) w.qcfg (v * 8 + k) (qcfgArg w2) }) (keepMode v k s)) s) := by
  intro u units
  have hw := argW_zero h
  have hsettings : (decide (16 ≤ (qcfgArg w2).unspill) || decide (17 ≤ (qcfgArg w2).mark) ||
      decide (2 ≤ (qcfgArg w2).mode)) = false := by
    rw [qcfgArg, decide_eq_false (Nat.not_le.2 hunspill), decide_eq_false (Nat.not_le.2 hmark),
      decide_eq_false (Nat.not_le.2 hmode)]
    rfl
  refine completes_blind (f := fun s => forAll units _ s) (body := queueConfigSetBody) rfl h rfl ?_
    (MailBlind.forAll (fun v => MailBlind.forAll (fun k =>
      MailBlind.comp (f := modFwd _) (fun _ _ => rfl) (keepMode_blind v k)) _) _)
  unfold queueConfigSetBody
  dsimp only
  rw [lenIs_three h, argW_one h, argW_two h, paAsicEnd_of hw,
    argChecks_three (paBadNoSide_of hw hport) (beq_false_of_ne hmask) hsettings]
  rfl

theorem fwdConfigSet_sets (h : Ready 0x0206 mb [w0] s) (hwrite : bit w0 31 = false) :
    Completes (.fwdConfigSet mb 0) mb s stOk false
      (leWords [put 20 16 (fld w0 20 16) + put 12 8 (fld w0 12 8) + put 1 0 (fld w0 1 0)])
      (modFwd (fun v =>
        { v with spillClasses := fld w0 20 16, deflClasses := fld w0 12 8, deflMax := fld w0 1 0 }) s) := by
  have hw := argW_zero h
  refine completes_blind (f := modFwd _) (body := fwdConfigSetBody) rfl h (by rw [hw, hwrite]) ?_ (fun _ _ => rfl)
  unfold fwdConfigSetBody
  dsimp only
  rw [lenIs_one h, hw, if_neg (by rw [hwrite]; exact Bool.false_ne_true)]
  rfl

theorem fwdConfigSet_reads (h : Ready 0x0206 mb [w0] s) (hread : bit w0 31 = true) :
    Completes (.fwdConfigSet mb 0) mb s stOk true
      (leWords [put 20 16 s.fwd.spillClasses + put 12 8 s.fwd.deflClasses + put 1 0 s.fwd.deflMax]) s := by
  have hw := argW_zero h
  have hbody : fwdConfigSetBody (cmdOf 0x0206 mb 0 s) (popOrder s) =
      report [put 20 16 s.fwd.spillClasses + put 12 8 s.fwd.deflClasses + put 1 0 s.fwd.deflMax] (popOrder s) := by
    unfold fwdConfigSetBody
    dsimp only
    rw [lenIs_one h, hw, if_pos hread]
    rfl
  exact completes_done' (body := fwdConfigSetBody) rfl h (by rw [hw, hread]) hbody rfl rfl rfl

theorem spillConfigSet_completes (h : Ready 0x0207 mb [w0, w1, w2] s) (hmask : fld w0 3 0 ≠ 0) (hquota : w1 ≤ 786432)
    (hres : w2 ≤ w1) (hsum : ((List.range 4).map fun a =>
      if (fld w0 3 0).testBit a then w2 else (spillOf s a).reserve).sum ≤ spillPages s) :
    Completes (.spillConfigSet mb 0) mb s stOk false []
      (forAll (numbers 4 fun a => (fld w0 3 0).testBit a) (fun a => modSpill a fun sp =>
        { sp with quota := w1, reserve := w2 }) s) := by
  have hroom : decide (spillPages (popOrder s) < ((List.range 4).map fun a =>
      if (fld w0 3 0).testBit a then w2 else (spillOf (popOrder s) a).reserve).sum) = false :=
    decide_eq_false (Nat.not_lt.2 hsum)
  refine completes_blind (f := fun s => forAll _ _ s) (body := spillConfigSetBody) rfl h rfl ?_
    (MailBlind.forAll (fun a => fun _ _ => rfl) _)
  unfold spillConfigSetBody
  dsimp only
  rw [lenIs_three h, argW_zero h, argW_one h, argW_two h,
    argChecks_three (beq_false_of_ne hmask) (decide_eq_false (Nat.not_lt.2 hquota)) (decide_eq_false (Nat.not_lt.2 hres)),
    check_of_false hroom]
  rfl

theorem spillStatusGet_completes (h : Ready 0x0208 mb [w0] s) :
    let sp := spillOf s (fld w0 1 0)
    Completes (.spillStatusGet mb 0) mb s stOk true
      (leWords [sp.pages.length, sp.peak, sat 32 (sp.pages.flatMap fun p => p.frames).length, sp.dropsNoSpace,
        sp.dropsLost]) s := by
  intro sp
  have hbody : spillStatusGetBody (cmdOf 0x0208 mb 0 s) (popOrder s) =
      report [sp.pages.length, sp.peak, sat 32 (sp.pages.flatMap fun p => p.frames).length, sp.dropsNoSpace,
        sp.dropsLost] (popOrder s) := by
    unfold spillStatusGetBody
    rw [lenIs_one h, argW_zero h]
    rfl
  exact completes_done' (body := spillStatusGetBody) rfl h rfl hbody rfl rfl rfl

theorem linkStatusGet_completes (h : Ready 0x0280 mb [w0] s) (ha : AddressOk w0) :
    Completes (.linkStatusGet mb 0) mb s stOk true (leWords (linkWords s (addressUnit w0))) s := by
  have hw := argW_zero h
  have hbody : linkStatusGetBody (cmdOf 0x0280 mb 0 s) (popOrder s) =
      report (linkWords (popOrder s) (addressUnit w0)) (popOrder s) := by
    unfold linkStatusGetBody
    rw [lenIs_one h, argChecks_one (paBad_of hw ha), paUnit_of hw]
  exact completes_done' (body := linkStatusGetBody) rfl h rfl hbody rfl rfl rfl

end Forwarding

/-- Settles O24. -/
theorem forwardingCommandsComplete : Obligations.ForwardingCommandsComplete :=
  ⟨fun _ _ _ h => eptRead_completes h,
    fun _ _ h => completes_done' (body := tableStatusGetBody) rfl h rfl (lenIs_none h) rfl rfl rfl,
    fun _ _ _ _ h => queueConfigGet_completes h, fun _ _ _ h => spillStatusGet_completes h,
    fun _ _ _ h => linkStatusGet_completes h,
    fun _ _ _ _ _ h hlen hlo hhi hasics hend => eptWrite_completes h hlen hlo hhi hasics hend,
    fun _ _ _ _ _ h => tableSwitch_completes h, fun _ _ _ _ _ h => queueConfigSet_completes h,
    fun _ _ _ h => fwdConfigSet_sets h, fun _ _ _ h => fwdConfigSet_reads h,
    fun _ _ _ _ _ h => spillConfigSet_completes h⟩

end Sys2Proof.Machine
end

section
/-! The long power commands (11_power_ledger.md R472, R478), the firmware commands (14_startup_and_states.md R582 to
R585) and the tray commands (R586 to R590). -/

namespace Sys2Proof.Machine

open Sys2Proof

/-! ### The long power commands start (R466, R467, R472, R478) -/

section PowerLong

variable {mb w0 : Nat} {s : State}

theorem powerDomainSet_starts (h : Ready 0x0702 mb [w0] s) (hd : fld w0 3 0 < 10) (hon : bit w0 8 = true)
    (hoff : s.power.on.contains (fld w0 3 0) = false) (hramp : s.power.ramping = none)
    (hbusy : (s.mail.long.any fun l => l.opcode == 0x0702) = false) (hbudget : overBudget s (fld w0 3 0) = false) :
    Starts (.powerDomainSet mb 0) 0x0702 mb 0 (2 * readyTicks (fld w0 3 0)) false s
      (domainStart (fld w0 3 0) causeCommand s) := by
  have hoff' : (popOrder s).power.on.contains (fld w0 3 0) = false := hoff
  have hbusy' : ((popOrder s).mail.long.any fun l => l.opcode == 0x0702) = false := hbusy
  have hramp' : (popOrder s).power.ramping = none := hramp
  have hbudget' : overBudget (popOrder s) (fld w0 3 0) = false := hbudget
  refine starts_blind (f := domainStart _ causeCommand) (body := powerDomainSetBody) rfl h rfl ?_ (fun _ _ => rfl) rfl
  unfold powerDomainSetBody
  dsimp only
  rw [lenIs_one h, argW_zero h, argChecks_one (decide_eq_false (Nat.not_le.2 hd)), hon, hoff', hbusy', hramp', hbudget']
  rfl

theorem powerCalRun_trims (h : Ready 0x0708 mb [w0] s) (hfree : longOp s 0x0708 = none) (htarget : fld w0 1 0 = 0)
    (hst : s.tray.st = .standby) (hinlet : inletStable s = true) :
    Starts (.powerCalRun mb 0) 0x0708 mb 0 1500000000 false s s := by
  have hfree' : longOp (popOrder s) 0x0708 = none := hfree
  have hst' : (popOrder s).tray.st = .standby := hst
  have hinlet' : inletStable (popOrder s) = true := hinlet
  refine starts_blind (f := id) (body := powerCalRunBody) rfl h rfl ?_ (fun _ _ => rfl) rfl
  unfold powerCalRunBody
  dsimp only
  rw [lenIs_one h, argW_zero h, htarget, hfree', hst', hinlet']
  rfl

theorem powerCalRun_retrains (h : Ready 0x0708 mb [w0] s) (hfree : longOp s 0x0708 = none) (htarget : fld w0 1 0 = 1)
    (hidle : poolIdle s = true) :
    Starts (.powerCalRun mb 0) 0x0708 mb 1 1500000000 false s (modPool (fun p => { p with retrain := true }) s) := by
  have hfree' : longOp (popOrder s) 0x0708 = none := hfree
  have hidle' : poolIdle (popOrder s) = true := hidle
  refine starts_blind (f := modPool _) (body := powerCalRunBody) rfl h rfl ?_ (fun _ _ => rfl) rfl
  unfold powerCalRunBody
  dsimp only
  rw [lenIs_one h, argW_zero h, htarget, hfree', hidle']
  rfl

/-- Settles O39. -/
theorem powerLongCommandsStart : Obligations.PowerLongCommandsStart :=
  ⟨fun _ _ _ h hd hon hoff hramp hbusy hbudget => powerDomainSet_starts h hd hon hoff hramp hbusy hbudget,
    fun _ _ _ h hfree => ⟨powerCalRun_trims h hfree, powerCalRun_retrains h hfree⟩⟩

end PowerLong

/-! ### Firmware (R582 to R585) -/

theorem imgWrite_blind (slot : Bool) (i : Nat) (data : List Byte) : MailBlind (imgWrite slot i data) := by
  intro g s
  induction data generalizing i s with
  | nil => rfl
  | cons b data ih => exact ih (i + 1) (modImage slot (fun m => { m with bytes := tabSet none m.bytes i (some b) }) s)

theorem writeMarks_blind : MailBlind writeMarks := fun _ _ => rfl

/-- A change to a slot leaves which slot is the spare one. -/
theorem spareSlot_modImage (slot : Bool) (f : Image → Image) (s : State) : spareSlot (modImage slot f s) = spareSlot s := by
  cases slot <;> rfl

theorem spareSlot_writeMarks (s : State) : spareSlot (writeMarks s) = spareSlot s := spareSlot_modImage _ _ s

theorem spareSlot_eraseSpare (s : State) : spareSlot (eraseSpare s) = spareSlot s := spareSlot_modImage _ _ (drawFree s).2

section Firmware

variable {mb w0 w1 : Nat} {s : State}

section Write

variable {data : List Nat} (h : Ready 0x0A00 mb ([w0, w1] ++ data) s) (hbytes : fld w1 11 0 = 4 * data.length)
  (hlo : 1 ≤ data.length) (hhi : data.length ≤ 768) (halign : w0 % 4 = 0) (hend : w0 + 4 * data.length ≤ 67108864)
  (hbusy : spareBusy s = false)

include h hbytes hlo hhi halign hend hbusy

/-- With nothing against it FW_WRITE erases first at offset 0, and writes at once elsewhere. -/
theorem fwWriteBody_accepted : fwWriteBody (cmdOf 0x0A00 mb 0 s) (popOrder s) =
    if w0 = 0 then .start 0 1000000000 (modFw (fun w => { w with write := leWords data }) (writeMarks (popOrder s)))
    else applied (imgWrite (spareSlot (popOrder s)) w0 (leWords data) (writeMarks (popOrder s))) := by
  have hoff : fwOffset (cmdOf 0x0A00 mb 0 s) = w0 := argW_zero (ws := w1 :: data) h
  have hcount : fwBytes (cmdOf 0x0A00 mb 0 s) = 4 * data.length := by
    rw [fwBytes, argW_one (ws := data) h, hbytes]
  have hdata : fwData (cmdOf 0x0A00 mb 0 s) = leWords data := by
    rw [fwData, hcount, show (cmdOf 0x0A00 mb 0 s).args.drop 8 = leWords data from args_drop (a := [w0, w1]) h 0,
      ← leWords_length, List.take_length]
  have hlen : (cmdOf 0x0A00 mb 0 s).len = 8 + 4 * data.length := by
    rw [len_ready h, List.length_append, List.length_cons, List.length_singleton]
    omega
  have hblock : ¬ ((cmdOf 0x0A00 mb 0 s).len < 8 || (cmdOf 0x0A00 mb 0 s).len != 8 + 4 * data.length) = true := by
    rw [hlen, decide_eq_false (by omega), bne_self_eq_false]
    exact Bool.false_ne_true
  have hword0 : (w0 % 4 != 0 || decide (67108860 < w0) || decide (67108864 < w0 + 4 * data.length)) = false := by
    rw [halign, decide_eq_false (by omega), decide_eq_false (by omega)]
    rfl
  have hword1 : (4 * data.length % 4 != 0 || decide (4 * data.length < 4) || decide (3072 < 4 * data.length)) = false := by
    rw [Nat.mul_mod_right, decide_eq_false (by omega), decide_eq_false (by omega)]
    rfl
  have hbusy' : spareBusy (popOrder s) = false := hbusy
  unfold fwWriteBody
  dsimp only
  rw [hcount, hoff, hdata, if_neg hblock, argChecks_two hword0 hword1, check_of_false hbusy', spareSlot_writeMarks]

theorem fwWrite_starts (hzero : w0 = 0) : Starts (.fwWrite mb 0) 0x0A00 mb 0 1000000000 false s
    (modFw (fun w => { w with write := leWords data }) (writeMarks s)) :=
  starts_blind (f := fun s => modFw _ (writeMarks s)) (body := fwWriteBody) rfl h rfl
    ((fwWriteBody_accepted h hbytes hlo hhi halign hend hbusy).trans (if_pos hzero)) (fun _ _ => rfl) rfl

theorem fwWrite_completes (hne : w0 ≠ 0) : Completes (.fwWrite mb 0) mb s stOk false []
    (imgWrite (spareSlot s) w0 (leWords data) (writeMarks s)) :=
  completes_blind (f := fun t => imgWrite (spareSlot s) w0 (leWords data) (writeMarks t)) (body := fwWriteBody) rfl h rfl
    ((fwWriteBody_accepted h hbytes hlo hhi halign hend hbusy).trans (if_neg hne))
    ((imgWrite_blind _ _ _).comp writeMarks_blind)

end Write

theorem fwVerify_starts (h : Ready 0x0A01 mb [] s) (hbusy : spareBusy s = false) :
    Starts (.fwVerify mb 0) 0x0A01 mb 0 2000000000 false s s := by
  have hbusy' : spareBusy (popOrder s) = false := hbusy
  refine starts_blind (f := id) (body := fwVerifyBody) rfl h rfl ?_ (fun _ _ => rfl) rfl
  rw [fwVerifyBody, lenIs_none h, check_of_false hbusy']
  rfl

theorem fwActivate_completes (h : Ready 0x0A02 mb [w0] s)
    (hslot : bit w0 0 = s.fw.running ∨ ((imageOf s (bit w0 0)).verified = true ∧ spareBusy s = false)) :
    Completes (.fwActivate mb 0) mb s stOk false [] (modFw (fun w => { w with selected := bit w0 0 }) s) := by
  have hverified : (bit w0 0 != (popOrder s).fw.running && !(imageOf (popOrder s) (bit w0 0)).verified) = false := by
    change (bit w0 0 != s.fw.running && !(imageOf s (bit w0 0)).verified) = false
    rcases hslot with hrun | ⟨hver, -⟩
    · rw [hrun, bne_self_eq_false, Bool.false_and]
    · rw [hver, Bool.not_true, Bool.and_false]
  have hfree : (bit w0 0 == spareSlot (popOrder s) && spareBusy (popOrder s)) = false := by
    change (bit w0 0 == !s.fw.running && spareBusy s) = false
    rcases hslot with hrun | ⟨-, hbusy⟩
    · rw [hrun]
      cases s.fw.running <;> rfl
    · rw [hbusy, Bool.and_false]
  refine completes_blind (f := modFw _) (body := fwActivateBody) rfl h rfl ?_ (fun _ _ => rfl)
  unfold fwActivateBody
  dsimp only
  rw [lenIs_one h, argW_zero h, check_of_false hverified, check_of_false hfree]
  rfl

/-- The erase ends in its first or second attempt: the data of the FW_WRITE goes into the slot (R582). -/
theorem fwEraseDone_yields {l : Long} (hl : longOp s 0x0A00 = some l) (hatt : l.attempts = 1 ∨ l.attempts = 2) :
    Yields (.fwEraseDone true) s (endLong l stOk [] (imgWrite (spareSlot s) 0 s.fw.write
      (eraseSpare (modFw (fun w => { w with write := [] })
        (modMail (fun m => { m with long := (m.long.erase l) ++ [l] }) s))))) := by
  have hshown : { l with attempts := min l.attempts 2 } = l := by
    rw [Nat.min_eq_left (by omega)]
  have hthird : (l.attempts == 3) = false := beq_false_of_ne (by omega)
  refine yields_of_exec (execFwEraseDone true s) rfl ?_
  unfold execFwEraseDone act
  dsimp only
  rw [hl]
  dsimp only
  rw [hshown, if_pos rfl, onlyIf_of_false hthird, spareSlot_eraseSpare]
  rfl

theorem fwVerifyDone_yields {readFails : Bool} {l : Long} (hl : longOp s 0x0A01 = some l) :
    let e := imageError s (spareSlot s) readFails
    let gone := modMail (fun m => { m with long := (m.long.erase l) ++ [{ l with attempts := 2 }] }) s
    Yields (.fwVerifyDone readFails) s
      (if e = 0 then endLong l stOk (leBytes 4 0) (modImage (spareSlot s) (fun m => { m with verified := true }) s)
       else if e = 5 then endLongFault { l with attempts := 2 } (leBytes 4 5) gone
       else endLong l stBadArg (leBytes 4 e) s) := by
  intro e gone
  refine yields_of_exec (execFwVerifyDone readFails s) rfl ?_
  unfold execFwVerifyDone act
  dsimp only
  rw [hl]
  dsimp only
  by_cases hzero : e = 0
  · rw [if_pos hzero, if_pos hzero, show imageError s (spareSlot s) readFails = 0 from hzero]
  · rw [if_neg hzero, if_neg hzero]
    by_cases hread : e = 5
    · rw [if_pos hread, if_pos hread, show imageError s (spareSlot s) readFails = 5 from hread]
    · rw [if_neg hread, if_neg hread]

/-- Settles O52. -/
theorem firmwareComplete : Obligations.FirmwareComplete :=
  ⟨fun _ _ _ _ _ h hbytes hlo hhi halign hend hbusy => ⟨fwWrite_starts h hbytes hlo hhi halign hend hbusy,
      fwWrite_completes h hbytes hlo hhi halign hend hbusy⟩,
    fun _ _ h => fwVerify_starts h, fun _ _ _ h => fwActivate_completes h,
    fun _ _ h => completes_done' (body := fwStatusGetBody) rfl h rfl (lenIs_none h) rfl rfl rfl,
    fun _ _ => fwEraseDone_yields, fun _ _ _ => fwVerifyDone_yields⟩

end Firmware

/-! ### The tray commands (R586 to R590) -/

theorem trayTo_blind (st : TState) : MailBlind (trayTo st) := by
  intro g s
  unfold trayTo
  refine ite_modMail Iff.rfl rfl ?_
  exact (raiseUnitState_blind _ _ _).comp (MailBlind.comp (f := fun s => stick 31 (raise _ _ s)) (fun _ _ => rfl)
    (MailBlind.comp (f := onlyIf _ (modFwd _)) ((MailBlind.onlyIf fun _ _ => rfl) _) (g := modTray _) fun _ _ => rfl)) g s

section Tray

variable {mb w0 w1 w2 : Nat} {s : State}

theorem trayService_completes (h : Ready 0x0A06 mb [w0] s) (hdown : s.tray.powerDown = false)
    (hopen : (if bit w0 0 then s.tray.st != .standby || s.tray.dup else s.tray.st != .service) = false) :
    Completes (.trayService mb 0) mb s stOk false [] (trayTo (if bit w0 0 then .service else .standby) s) := by
  have hopen' : ((popOrder s).tray.powerDown || (if bit w0 0 then (popOrder s).tray.st != .standby || (popOrder s).tray.dup
      else (popOrder s).tray.st != .service)) = false := by
    change (s.tray.powerDown || (if bit w0 0 then s.tray.st != .standby || s.tray.dup else s.tray.st != .service)) = false
    rw [hdown, hopen]
    rfl
  refine completes_blind (f := trayTo _) (body := trayServiceBody) rfl h rfl ?_ (trayTo_blind _)
  unfold trayServiceBody
  dsimp only
  rw [lenIs_one h, argW_zero h, check_of_false hopen']
  rfl

theorem trayResume_completes (h : Ready 0x0A07 mb [w0, w1, w2] s) (hp : Placeable .resume 0 (turnOf w1 w2) s)
    (hhold : s.reel.st ≠ .holdover) (hbolt : resumeBoundary s (turnOf w1 w2) = true) (hst : s.tray.st = .unscheduled)
    (hplan : s.tray.returnSt = .admitted → s.plan.inForce ≠ none ∨ pendingSwap s ≠ none) :
    Completes (.trayResume mb 0) mb s stOk false []
      (schedAdd ⟨.resume, 0, turnOf w1 w2, 0x0A07, false, .none⟩ s) := by
  have hfar : turnTooFar (turnOf w1 w2) (popOrder s) = false := hp.far
  have hnear : turnTooNear (turnOf w1 w2) (popOrder s) = false := hp.near
  have hfree : schedTaken .resume 0 (turnOf w1 w2) (popOrder s) = false := hp.free
  have hroom : schedFull (popOrder s) = false := hp.room
  have hback : (s.tray.returnSt == .admitted && s.plan.inForce.isNone && (pendingSwap s).isNone) = false := by
    rw [Bool.eq_false_iff]
    intro hnone
    rw [Bool.and_eq_true, Bool.and_eq_true, beq_iff_eq, Option.isNone_iff_eq_none, Option.isNone_iff_eq_none] at hnone
    obtain ⟨⟨hret, hforce⟩, hswap⟩ := hnone
    exact (hplan hret).elim (fun hne => hne hforce) (fun hne => hne hswap)
  have hpre : (untimed (popOrder s) || (popOrder s).reel.st == .holdover || !resumeBoundary (popOrder s) (turnOf w1 w2) ||
      ((popOrder s).tray.returnSt == .admitted && (popOrder s).plan.inForce.isNone &&
        (pendingSwap (popOrder s)).isNone)) = false := by
    change (untimed s || s.reel.st == .holdover || !resumeBoundary s (turnOf w1 w2) ||
      (s.tray.returnSt == .admitted && s.plan.inForce.isNone && (pendingSwap s).isNone)) = false
    rw [hp.timed, beq_false_of_ne hhold, hbolt, hback]
    rfl
  have hst' : (popOrder s).tray.st = .unscheduled := hst
  refine completes_blind (f := schedAdd _) (body := trayResumeBody) rfl h rfl ?_ (fun _ _ => rfl)
  unfold trayResumeBody
  dsimp only
  rw [lenIs_three h, argTurn_one h, argChecks_one hfar, check_of_false hpre,
    check_of_false (by rw [hnear, hfree, hst']; rfl), check_of_false hroom]
  rfl

/-! ### Commands that end the tray's work (R573, R574, R587, R590) -/

/-- A write that is done with an effect outside the mailboxes: its mailbox is DONE, and the rest is that effect. -/
theorem writeCommand_done {op : Nat} {args : List Nat} {body : Cmd → State → Verdict} {f : State → State}
    (h : Ready op mb args s) (hb : body (cmdOf op mb 0 s) (popOrder s) = .done stOk [] (f (popOrder s)))
    (hf : MailBlind f) :
    (writeCommand op mb 0 body s).arch = (f s).arch ∧ (box (writeCommand op mb 0 body s) mb).st = .done := by
  have hguard : staleGuard mb (popOrder s) = false := h.2.2.2.2.1
  have hvia : (box s mb).via = .pcie := h.2.2.1
  have hrun : writeCommand op mb 0 body s = complete mb stOk 1 0xFFF [] (bumpGen false (f (popOrder s))) := by
    rw [writeCommand, runCommand_ready h, hb]
    unfold settle
    simp only [show (cmdOf op mb 0 s).fails = 0 from rfl, show (cmdOf op mb 0 s).mb = mb from rfl, hguard,
      Bool.false_eq_true, if_false]
    rfl
  have hbox : box (bumpGen false (f (popOrder s))) mb = box s mb := by
    unfold box
    rw [bumpGen_mail, hf.mail]
    rfl
  have hhull := completeWith_hull mb (doneHeader (bumpGen false (f (popOrder s))) mb stOk 0 1 0xFFF
    (bumpGen false (f (popOrder s))).mail.gen) [] (bumpGen false (f (popOrder s))) (by rw [hbox]; exact hvia)
  rw [hrun]
  constructor
  · refine (arch_of_hull hhull).trans ?_
    rw [doneState_arch, bumpGen_arch]
    exact (congrArg State.arch (hf _ s)).trans (modMail_arch _ _)
  · have hdone := congrArg (fun m : Mail => (tabGet (boxAtReset mb) m.boxes mb).st) (hull_mail hhull)
    exact hdone.trans (congrArg Mbox.st (doneState_box mb _ [] _))

/-- The verdict of a restart or power-down that is let through. -/
abbrev restartSet (r : Restart) : State → State := modTray fun t => { t with restart := r }

theorem afterCommand_warm {t : State} (h : t.tray.restart = .warm) : afterCommand t = t := by
  rw [afterCommand, h]

theorem afterCommand_down {t : State} (h : t.tray.restart = .down ∨ t.tray.restart = .cold)
    (hdown : t.tray.powerDown = false) (hrec : t.tray.recovery = false) (hst : stCode t.tray.st ≠ 2) :
    afterCommand t = powerDownSeq t := by
  have hcond : ¬ (t.tray.recovery || stCode t.tray.st == 2) = true := by
    rw [hrec, beq_false_of_ne hst]
    exact Bool.false_ne_true
  rcases h with h | h <;> rw [afterCommand, h] <;> dsimp only <;>
    rw [if_neg (by rw [hdown]; exact Bool.false_ne_true), if_neg hcond]

theorem trayRestart_warm (h : Ready 0x0A05 mb [w0] s) (hmode : fld w0 1 0 = 0) (hwarm : warmForbidden s = false)
    (hst : 9 ≤ stCode s.tray.st) :
    Completes (.trayRestart mb 0) mb s stOk false [] (modTray (fun t => { t with restart := .warm }) s) := by
  have hwarm' : warmForbidden (popOrder s) = false := hwarm
  have hnow : (decide (stCode (popOrder s).tray.st < 9) || (popOrder s).tray.recovery) = false := by
    change (decide (stCode s.tray.st < 9) || s.tray.recovery) = false
    rw [decide_eq_false (Nat.not_lt.2 hst), h.2.2.2.1]
    rfl
  have hbody : trayRestartBody (cmdOf 0x0A05 mb 0 s) (popOrder s) = .done stOk [] (restartSet .warm (popOrder s)) := by
    unfold trayRestartBody
    dsimp only
    rw [lenIs_one h, argW_zero h, hmode, argChecks_one (by rfl), if_pos rfl, check_of_false hwarm', check_of_false hnow]
    rfl
  have hexec : exec (.trayRestart mb 0) s = act (writeCommand 0x0A05 mb 0 trayRestartBody) s := by
    have harch := (writeCommand_done h hbody fun _ _ => rfl).1
    exact congrArg (fun t => Host.Outcome.next (finish s t))
      (afterCommand_warm (congrArg (fun t : State => t.tray.restart) harch))
  exact completes_blind (f := restartSet .warm) hexec h rfl hbody (fun _ _ => rfl)

/-- A command that sets the tray's work to end completes, and the power-down sequence follows. -/
theorem powerDown_follows {i : Instr} {op : Nat} {body : Cmd → State → Verdict} {r : Restart}
    (hexec : exec i s = act (fun s => afterCommand (writeCommand op mb 0 body s)) s) (h : Ready op mb [w0] s)
    (hbody : body (cmdOf op mb 0 s) (popOrder s) = .done stOk [] (restartSet r (popOrder s)))
    (hr : r = .down ∨ r = .cold) (hdown : s.tray.powerDown = false) (hst : stCode s.tray.st ≠ 2) :
    ∃ v, Yields i s (powerDownSeq v) ∧ v.arch = (restartSet r s).arch ∧ (box v mb).st = .done := by
  obtain ⟨harch, hdone⟩ := writeCommand_done h hbody fun _ _ => rfl
  have hrestart := congrArg (fun t : State => t.tray.restart) harch
  have hpower := congrArg (fun t : State => t.tray.powerDown) harch
  have hrecovery := congrArg (fun t : State => t.tray.recovery) harch
  have hstate := congrArg (fun t : State => stCode t.tray.st) harch
  exact ⟨_, yields_of hexec (afterCommand_down (hr.imp hrestart.trans hrestart.trans) (hpower.trans hdown)
    (hrecovery.trans h.2.2.2.1) fun htwo => hst (hstate.symm.trans htwo)), harch, hdone⟩

theorem trayRestart_cold (h : Ready 0x0A05 mb [w0] s) (hmode : fld w0 1 0 = 1) (hstalls : stallsHold (bit w0 8) s = false)
    (hst : 3 ≤ stCode s.tray.st) (hadm : s.tray.st ≠ .admitted) (hunsched : s.tray.st ≠ .unscheduled)
    (hdown : s.tray.powerDown = false) :
    ∃ v, Yields (.trayRestart mb 0) s (powerDownSeq v) ∧
      v.arch = (modTray (fun t => { t with restart := .cold }) s).arch ∧ (box v mb).st = .done := by
  have hstalls' : stallsHold (bit w0 8) (popOrder s) = false := hstalls
  have hrec : ¬ (popOrder s).tray.recovery = true := by
    rw [show (popOrder s).tray.recovery = false from h.2.2.2.1]
    exact Bool.false_ne_true
  have hnow : ((popOrder s).tray.st == .admitted || (popOrder s).tray.st == .unscheduled) = false := by
    change (s.tray.st == .admitted || s.tray.st == .unscheduled) = false
    rw [beq_false_of_ne hadm, beq_false_of_ne hunsched]
    rfl
  refine powerDown_follows (body := trayRestartBody) rfl h ?_ (.inr rfl) hdown (by omega)
  unfold trayRestartBody
  dsimp only
  rw [lenIs_one h, argW_zero h, hmode, argChecks_one (by rfl), if_neg (by decide), if_neg hrec, check_of_false hstalls',
    check_of_false hnow]
  rfl

theorem trayPowerDown_follows (h : Ready 0x0A08 mb [w0] s) (hstalls : stallsHold (bit w0 8) s = false)
    (hst : s.tray.st = .standby ∨ s.tray.st = .service) (hdown : s.tray.powerDown = false) :
    ∃ v, Yields (.trayPowerDown mb 0) s (powerDownSeq v) ∧
      v.arch = (modTray (fun t => { t with restart := .down }) s).arch ∧ (box v mb).st = .done := by
  have hstalls' : stallsHold (bit w0 8) (popOrder s) = false := hstalls
  have hnow : ((popOrder s).tray.st != .standby && (popOrder s).tray.st != .service) = false := by
    change (s.tray.st != .standby && s.tray.st != .service) = false
    rcases hst with hst | hst <;> rw [hst] <;> rfl
  have hcode : stCode s.tray.st ≠ 2 := by rcases hst with hst | hst <;> rw [hst] <;> decide
  refine powerDown_follows (body := trayPowerDownBody) rfl h ?_ (.inl rfl) hdown hcode
  unfold trayPowerDownBody
  rw [lenIs_one h, argW_zero h, check_of_false hstalls', check_of_false hnow]
  rfl

/-- Settles O53. -/
theorem trayCommandsComplete : Obligations.TrayCommandsComplete := by
  refine ⟨fun _ _ h => completes_done' (body := trayStateGetBody) rfl h rfl (lenIs_none h) rfl rfl rfl,
    fun mb w0 s h hdown => ⟨fun hbit hst hdup => ?_, fun hbit hst => ?_⟩,
    fun _ _ _ _ _ h hp hhold hbolt hst hplan => trayResume_completes h hp hhold hbolt hst hplan,
    fun _ _ _ h => trayRestart_warm h, fun _ _ _ h => trayRestart_cold h, fun _ _ _ h => trayPowerDown_follows h⟩
  · have hset := trayService_completes h hdown (by rw [hbit, hst, hdup]; rfl)
    rwa [hbit] at hset
  · have hset := trayService_completes h hdown (by rw [hbit, hst]; rfl)
    rwa [hbit] at hset

end Tray

end Sys2Proof.Machine
end

section
/-! The pool and the stalls, as operations that do not look at the mailboxes (09_session_stalls.md R362 to R371, R384 to
R391). -/

namespace Sys2Proof.Machine

open Sys2Proof

/-- An operation with an answer that neither reads nor changes the mailboxes. -/
def MailBlindAnswer {α : Type} (f : State → α × State) : Prop :=
  ∀ (g : Mail → Mail) (s : State), f (modMail g s) = ((f s).1, modMail g (f s).2)

theorem modStall_blind (n : Nat) (f : Stall → Stall) : MailBlind (modStall n f) := fun _ _ => rfl

/-! ### Traffic, faults and retired pages (R362, R384 to R387, R450) -/

theorem poolIo_blind (isWrite : Bool) (page bytes cls : Nat) : MailBlind (poolIo isWrite page bytes cls) := by
  cases isWrite <;> exact fun _ _ => rfl

theorem poolTransient_blind : MailBlind poolTransient := fun _ _ => rfl

theorem poolLasting_blind : MailBlind poolLasting := fun _ _ => rfl

theorem poolLowCheck_blind : MailBlind poolLowCheck := fun g s => by
  unfold poolLowCheck
  exact ite_modMail Iff.rfl (ite_modMail Iff.rfl rfl rfl) (ite_modMail Iff.rfl rfl rfl)

theorem replacePage_blind (page : Nat) : MailBlind (replacePage page) := by
  intro g s
  unfold replacePage
  refine ite_modMail Iff.rfl ?_ rfl
  dsimp only
  rw [show alternatePage (modMail g s) (stallBase (modMail g s)) (poolPages - stallBase (modMail g s))
      (takenStall (modMail g s)) [] 0 = alternatePage s (stallBase s) (poolPages - stallBase s) (takenStall s) [] 0 from rfl]
  cases alternatePage s (stallBase s) (poolPages - stallBase s) (takenStall s) [] 0 with
  | none => rfl
  | some q => rfl

theorem retirePage_blind (page : Nat) (moved : Bool) : MailBlind (retirePage page moved) := by
  intro g s
  unfold retirePage
  refine ite_modMail Iff.rfl rfl ?_
  refine (poolLowCheck_blind.comp (replacePage_blind page)).comp (g := fun s =>
    if s.pool.retired.length < 16384 then modPool (fun p => { p with retired := p.retired ++ [page] }) s
    else raise 0x0507 [] (modPool (fun p => { p with retiredNow := p.retiredNow ++ [page] }) s)) ?_ g
    (raise 0x0506 [(23, page), iFlag moved] (count (poolCtr 3) 1 s))
  exact fun g s => ite_modMail Iff.rfl rfl rfl

theorem renamePage_blind (old new : Nat) : MailBlind (renamePage old new) := fun _ _ => rfl

theorem evacuate_blind (page : Nat) : MailBlind (evacuate page) := by
  intro g s
  unfold evacuate
  refine ite_modMail Iff.rfl rfl ?_
  rw [show samePick (modMail g s) page = samePick s page from rfl]
  cases samePick s page with
  | none => exact retirePage_blind _ _ g s
  | some q =>
    exact ((retirePage_blind page true).comp ((renamePage_blind page q).comp
      ((poolIo_blind true q 65536 4).comp (poolIo_blind false page 65536 4)))) g s

theorem startCopy_blind (n page : Nat) (retire : Bool) : MailBlind (startCopy n page retire) := by
  intro g s
  unfold startCopy
  refine ite_modMail Iff.rfl rfl ?_
  rw [show stallPagePick (modMail g s) n ((stallOf (modMail g s) n).chanPtr.getD (37 * n % 128)) =
    stallPagePick s n ((stallOf s n).chanPtr.getD (37 * n % 128)) from rfl]
  cases stallPagePick s n ((stallOf s n).chanPtr.getD (37 * n % 128)) with
  | none => rfl
  | some q => exact (poolLowCheck_blind.comp (g := fun s => modPool _ (modStall n _ s)) fun _ _ => rfl) g s

/-- A page's correction is counted (R384). -/
def correctionNoted (page : Nat) (s : State) : State :=
  count (stackCtr (pageStack page) 2) 1 (count (poolCtr 0) 1 (modPool (fun p =>
    { p with
      corrected := sat 32 (p.corrected + 1)
      corrections := tabMod [] p.corrections page fun l =>
        s.reel.bounds :: (l.filter fun t => t != s.reel.bounds && decide (s.reel.bounds < t + 65536)) }) s))

theorem noteCorrection_eq (page : Nat) (s : State) : noteCorrection page s =
    if (tabGet [] (correctionNoted page s).pool.corrections page).length < 4 then correctionNoted page s
    else match pageOwner (correctionNoted page s) page with
      | some n => startCopy n page true (correctionNoted page s)
      | none => evacuate page (correctionNoted page s) := rfl

theorem noteCorrection_blind (page : Nat) : MailBlind (noteCorrection page) := by
  intro g s
  have hnoted : correctionNoted page (modMail g s) = modMail g (correctionNoted page s) := rfl
  rw [noteCorrection_eq, noteCorrection_eq, hnoted]
  refine ite_modMail Iff.rfl rfl ?_
  rw [show pageOwner (modMail g (correctionNoted page s)) page = pageOwner (correctionNoted page s) page from rfl]
  cases pageOwner (correctionNoted page s) page with
  | none => exact evacuate_blind page g _
  | some n => exact startCopy_blind n page true g _

theorem poolRead_blind (page bytes cls : Nat) : MailBlindAnswer (poolRead page bytes cls) := by
  intro g s
  have hio : poolIo false page bytes cls (modPool (fun p => { p with reads := p.reads.drop 1 }) (modMail g s)) =
    modMail g (poolIo false page bytes cls (modPool (fun p => { p with reads := p.reads.drop 1 }) s)) :=
    ((poolIo_blind false page bytes cls).comp (g := modPool fun p => { p with reads := p.reads.drop 1 }) fun _ _ => rfl) g s
  unfold poolRead
  dsimp only
  rw [hio, modMail_pool]
  by_cases h0 : s.pool.reads.headD 0 = 0
  · rw [if_pos h0, if_pos h0]
  rw [if_neg h0, if_neg h0]
  by_cases h1 : s.pool.reads.headD 0 = 1
  · rw [if_pos h1, if_pos h1, noteCorrection_blind page g]
  rw [if_neg h1, if_neg h1]
  by_cases h2 : s.pool.reads.headD 0 = 2
  · rw [if_pos h2, if_pos h2, poolTransient_blind g]
  · rw [if_neg h2, if_neg h2, poolLasting_blind g]

/-! ### Packing (R369 to R371, R391) -/

theorem parkCheck_blind (n : Nat) : MailBlind (parkCheck n) := by
  intro g s
  unfold parkCheck
  dsimp only
  rw [show stallOf (modMail g s) n = stallOf s n from rfl]
  split
  · exact ite_modMail Iff.rfl rfl rfl
  · rfl

theorem packHalt_blind (n cause : Nat) : MailBlind (packHalt n cause) := by
  intro g s
  unfold packHalt
  exact ite_modMail Iff.rfl rfl rfl

theorem packInto_blind (n : Nat) (blocks : List CBlock) (page : StallPage) (fresh : Bool) :
    MailBlind (packInto n blocks page fresh) := fun g s =>
  ((count_blind _ _).comp ((poolIo_blind _ _ _ _).comp (modStall_blind n _))) g s

theorem packLoop_blind (n k : Nat) : MailBlind (packLoop n k) := by
  intro g s
  induction k generalizing s with
  | zero => rfl
  | succ k ih =>
    unfold packLoop
    dsimp only
    rw [show stallOf (modMail g s) n = stallOf s n from rfl]
    refine ite_modMail Iff.rfl ?_ rfl
    split
    · rw [packInto_blind _ _ _ _ g s, parkCheck_blind n g, ih]
    · refine ite_modMail Iff.rfl (packHalt_blind n 0 g s) ?_
      rw [show stallPagePick (modMail g s) n ((stallOf s n).chanPtr.getD (37 * n % 128)) =
        stallPagePick s n ((stallOf s n).chanPtr.getD (37 * n % 128)) from rfl]
      cases stallPagePick s n ((stallOf s n).chanPtr.getD (37 * n % 128)) with
      | none => exact packHalt_blind n 1 g s
      | some q =>
        dsimp only
        rw [modStall_blind n _ g s, packInto_blind _ _ _ _ g, poolLowCheck_blind g, parkCheck_blind n g, ih]

theorem packStall_blind (n : Nat) : MailBlind (packStall n) := fun g s => packLoop_blind n _ g s

theorem resumePacking_blind : MailBlind resumePacking := fun g s =>
  (poolLowCheck_blind.comp (MailBlind.forAll
    (fun n => (packStall_blind n).comp (modStall_blind n fun x => { x with halt := false })) _)) g s

theorem emptyStall_blind (n : Nat) : MailBlind (emptyStall n) := fun g s =>
  (resumePacking_blind.comp (g := fun s => modStall n _ (modPool _ s)) fun _ _ => rfl) g s

theorem replaceAll_blind : MailBlind replaceAll := fun g s =>
  ((MailBlind.forAll replacePage_blind (s.pool.retired ++ s.pool.retiredNow)).comp
    (g := modPool fun p => { p with replaced := [] }) fun _ _ => rfl) g s

/-! ### Pushes and pages that are lost (R382, R388, R390) -/

theorem pushEnds_blind (n : Nat) : MailBlind (pushEnds n) := by
  intro g s
  unfold pushEnds
  dsimp only
  rw [show stallOf (modMail g s) n = stallOf s n from rfl]
  cases (stallOf s n).endPos with
  | none => rfl
  | some e => rfl

theorem pageLost_blind (n page : Nat) : MailBlind (pageLost n page) := by
  intro g s
  unfold pageLost
  dsimp only
  rw [show stallOf (modMail g s) n = stallOf s n from rfl]
  cases (stallOf s n).pages.find? (fun h => h.page == page && !h.lost) with
  | none => rfl
  | some h => exact ite_modMail Iff.rfl rfl (ite_modMail Iff.rfl rfl rfl)

theorem stallHalfLost_blind (half : Nat) : MailBlind (stallHalfLost half) := by
  intro g s
  have hlost := MailBlind.forAll (fun x : Nat × Nat => pageLost_blind x.1 x.2)
    (s.pool.stalls.flatMap fun e =>
      ((e.2.pages.filter fun g => !g.lost && pageHalf g.page == half).map fun g => (e.1, g.page))) g s
  unfold stallHalfLost
  dsimp only
  rw [modMail_pool, hlost]
  exact (poolLowCheck_blind.comp ((MailBlind.forAll pushEnds_blind _).comp (g := modPool _) fun _ _ => rfl)) g _

/-! ### Replication sets (R197) -/

theorem loadSet_blind (n chan : Nat) (eids : List Nat) : MailBlind (loadSet n chan eids) := by
  intro g s
  unfold loadSet
  dsimp only
  exact congrArg (modFwd _) (MailBlind.forAll (fun _ _ _ => rfl) _ g s)

theorem releaseSet_blind (n : Nat) : MailBlind (releaseSet n) := by
  intro g s
  have hforget := MailBlind.forAll (fun a => fun (_ : Mail → Mail) (_ : State) => rfl (a := modSet a n (fun _ => {}) _))
    (List.range 4) g s
  unfold releaseSet
  dsimp only
  rw [hforget]
  exact ((MailBlind.forAll (fun t : Nat × Nat => flowSet_blind t.1 _ t.2) _).comp (g := modFwd _) fun _ _ => rfl) g _

end Sys2Proof.Machine
end

section
/-! The stall and pool commands (09_session_stalls.md R394 to R402). -/

namespace Sys2Proof.Machine

open Sys2Proof

/-! ### STALL_RECALL (R376, R396) -/

section StallRecall

variable {mb : Nat} {args sets : List Nat} {s : State}

/-- Different targets in range pass their checks. -/
theorem targetChecks_pass {targets : List Nat} (hrange : ∀ t ∈ targets, t ≤ 0x8FF) (hdiff : targets.Nodup) :
    ∀ x ∈ (List.range targets.length).map fun k =>
      (16 + 4 * k, decide (0x8FF < targets.getD k 0) || (targets.take k).contains (targets.getD k 0)), x.2 = false := by
  intro x hx
  obtain ⟨k, hk, rfl⟩ := List.mem_map.1 hx
  have hk := List.mem_range.1 hk
  have hmem : targets[k] ∈ targets := List.getElem_mem hk
  have hfresh : targets[k] ∉ targets.take k := by
    intro hin
    obtain ⟨j, hj, hjk⟩ := List.mem_iff_getElem.1 hin
    rw [List.length_take] at hj
    rw [List.getElem_take] at hjk
    have := (List.Nodup.getElem_inj_iff hdiff).1 hjk
    omega
  dsimp only
  rw [List.getD_eq_getElem _ _ hk, decide_eq_false (Nat.not_lt.2 (hrange _ hmem))]
  simpa using hfresh

/-- What STALL_RECALL does once it is let through: its sets are loaded and the recall begins. -/
def recallBegun (r : Recall) (s : State) : State :=
  modPool (fun p => { p with recalls := p.recalls ++ [r] }) (modStall r.stall (fun x => { x with st := .recalling })
    (forAll (List.range r.sets.length) (fun j => loadSet (r.sets.getD j 0) ((r.chan + j) % 8) r.targets) s))

theorem recallBegun_blind (r : Recall) : MailBlind (recallBegun r) :=
  MailBlind.comp (f := fun s => modPool _ (modStall r.stall _ s)) (fun _ _ => rfl)
    (MailBlind.forAll (fun _ => loadSet_blind _ _ _) _)

theorem stallRecall_completes (h : Ready 0x0502 mb args s) (hlen : args.length = 5 + fld (args.getD 3 0) 3 0)
    (htag : fld (args.getD 0 0) 15 0 ≠ 0)
    (hend : fld (args.getD 1 0) 31 12 + fld (args.getD 2 0) 31 12 ≤ (stallOf s (fld (args.getD 0 0) 31 16)).positions)
    (hlo : 1 ≤ fld (args.getD 2 0) 31 12) (hhi : fld (args.getD 2 0) 31 12 ≤ 524288)
    (hspread : fld (args.getD 3 0) 30 29 ≠ 3) (hlinger : fld (args.getD 3 0) 25 13 ≤ 4096)
    (hrange : ∀ t ∈ recallTargets (cmdOf 0x0502 mb 0 s), t ≤ 0x8FF) (hdiff : (recallTargets (cmdOf 0x0502 mb 0 s)).Nodup)
    (hlost : touchesLost (stallOf s (fld (args.getD 0 0) 31 16)) (fld (args.getD 1 0) 31 12) (fld (args.getD 2 0) 31 12) =
      false)
    (hasics : (recallAsics s (recallTargets (cmdOf 0x0502 mb 0 s))).take (2 ^ fld (args.getD 3 0) 30 29) ≠ [])
    (hst : (stallOf s (fld (args.getD 0 0) 31 16)).st = .parked ∨ (stallOf s (fld (args.getD 0 0) 31 16)).st = .damaged)
    (hroom : s.pool.recalls.length < 256)
    (hsets : freeSets s ((recallAsics s (recallTargets (cmdOf 0x0502 mb 0 s))).take
      (2 ^ fld (args.getD 3 0) 30 29)).length = some sets) :
    let chan := fld (args.getD 3 0) 28 26
    let targets := recallTargets (cmdOf 0x0502 mb 0 s)
    let t := forAll (List.range sets.length) (fun j => loadSet (sets.getD j 0) ((chan + j) % 8) targets) s
    let r : Recall :=
      { stall := fld (args.getD 0 0) 31 16, tag := fld (args.getD 0 0) 15 0, first := fld (args.getD 1 0) 31 12
        count := fld (args.getD 2 0) 31 12, targets := targets, chan := chan
        linger := if fld (args.getD 3 0) 25 13 = 0 then 16 else fld (args.getD 3 0) 25 13
        release := bit (args.getD 3 0) 31, pmax := pmaxOf t targets
        asics := (recallAsics s targets).take (2 ^ fld (args.getD 3 0) 30 29), sets := sets }
    Completes (.stallRecall mb 0) mb s stOk false [] (recallBegun r s) := by
  intro chan targets t r
  have hword : ∀ i < 4, argW (cmdOf 0x0502 mb 0 s) i = args.getD i 0 := fun i hi => argW_ready h i (by omega)
  have hblock : (cmdOf 0x0502 mb 0 s).len = 16 + 4 * (fld (args.getD 3 0) 3 0 + 1) := by
    rw [len_ready h, hlen]
    omega
  have hchecks : ∀ x ∈ [(0, fld (args.getD 0 0) 15 0 == 0),
      (4, decide ((stallOf s (fld (args.getD 0 0) 31 16)).positions <
        fld (args.getD 1 0) 31 12 + fld (args.getD 2 0) 31 12)),
      (8, fld (args.getD 2 0) 31 12 == 0 || decide (524288 < fld (args.getD 2 0) 31 12)),
      (12, fld (args.getD 3 0) 30 29 == 3 || decide (4096 < fld (args.getD 3 0) 25 13))] ++
      (List.range targets.length).map fun k =>
        (16 + 4 * k, decide (0x8FF < targets.getD k 0) || (targets.take k).contains (targets.getD k 0)), x.2 = false := by
    refine List.forall_mem_append.2 ⟨?_, targetChecks_pass hrange hdiff⟩
    simp only [List.forall_mem_cons]
    refine ⟨beq_false_of_ne htag, decide_eq_false (Nat.not_lt.2 hend), ?_, ?_, by simp⟩
    · rw [beq_false_of_ne (by omega), decide_eq_false (Nat.not_lt.2 hhi)]
      rfl
    · rw [beq_false_of_ne hspread, decide_eq_false (Nat.not_lt.2 hlinger)]
      rfl
  have hstall : stallOf (popOrder s) (fld (args.getD 0 0) 31 16) = stallOf s (fld (args.getD 0 0) 31 16) := rfl
  have hadmitted : recallAsics (popOrder s) targets = recallAsics s targets := rfl
  have hfree : freeSets (popOrder s) ((recallAsics s targets).take (2 ^ fld (args.getD 3 0) 30 29)).length = some sets :=
    hsets
  have hpre : (touchesLost (stallOf s (fld (args.getD 0 0) 31 16)) (fld (args.getD 1 0) 31 12)
      (fld (args.getD 2 0) 31 12) || ((recallAsics s targets).take (2 ^ fld (args.getD 3 0) 30 29)).isEmpty) = false := by
    rw [hlost, Bool.false_or, List.isEmpty_eq_false_iff]
    exact hasics
  have hnow : ((stallOf s (fld (args.getD 0 0) 31 16)).st != .parked &&
      (stallOf s (fld (args.getD 0 0) 31 16)).st != .damaged) = false := by
    rcases hst with hst | hst <;> rw [hst] <;> rfl
  have hspace : (decide (256 ≤ (popOrder s).pool.recalls.length) || (some sets).isNone) = false := by
    rw [show (popOrder s).pool.recalls = s.pool.recalls from rfl, decide_eq_false (Nat.not_le.2 hroom)]
    rfl
  have hpmax : pmaxOf (forAll (List.range sets.length) (fun j => loadSet (sets.getD j 0) ((chan + j) % 8) targets)
      (popOrder s)) targets = pmaxOf t targets := by
    rw [show popOrder s = modMail (fun m => { m with order := m.order.drop 1 }) s from rfl,
      MailBlind.forAll (fun j => loadSet_blind (sets.getD j 0) ((chan + j) % 8) targets) _ _ s]
    rfl
  refine completes_blind (f := recallBegun r) (body := stallRecallBody) rfl h rfl ?_ (recallBegun_blind r)
  unfold stallRecallBody stallArg
  dsimp only
  rw [hword 0 (by omega), hword 1 (by omega), hword 2 (by omega), hword 3 (by omega), lenIs_of_eq hblock, hstall,
    hadmitted, hfree, argChecks_of_false hchecks, check_of_false hpre, check_of_false hnow, check_of_false hspace,
    Option.getD_some, hpmax]
  rfl

/-- Settles O32. -/
theorem stallRecallCompletes : Obligations.StallRecallCompletes :=
  fun _ _ _ _ h hlen htag hend hlo hhi hspread hlinger hrange hdiff hlost hasics hst hroom hsets =>
    stallRecall_completes h hlen htag hend hlo hhi hspread hlinger hrange hdiff hlost hasics hst hroom hsets

end StallRecall

/-! ### The other stall commands (R394, R395, R397 to R400) -/

section Stalls

variable {mb w0 w1 w2 : Nat} {s : State}

theorem stallArg_of {op : Nat} {ws : List Nat} (h : Ready op mb (w0 :: ws) s) :
    stallArg (cmdOf op mb 0 s) = fld w0 31 16 := by rw [stallArg, argW_zero h]

theorem stallOf_popOrder (n : Nat) : stallOf (popOrder s) n = stallOf s n := rfl

theorem stallGet_completes (h : Ready 0x0505 mb [w0] s) :
    Completes (.stallGet mb 0) mb s stOk true (leWords (stallWords s (fld w0 31 16))) s := by
  have hbody : stallGetBody (cmdOf 0x0505 mb 0 s) (popOrder s) =
      report (stallWords (popOrder s) (fld w0 31 16)) (popOrder s) := by
    rw [stallGetBody, lenIs_one h, stallArg_of h]
  exact completes_done' (body := stallGetBody) rfl h rfl hbody rfl rfl rfl

theorem stallMapRead_completes (h : Ready 0x0506 mb [w0, w1] s) :
    let pages := (stallOf s (fld w0 31 16)).pages
    let got := (pages.drop w1).take 500
    Completes (.stallMapRead mb 0) mb s stOk true
      (leWords ((put 31 23 got.length + put 22 0 pages.length) :: got.flatMap fun g =>
        [put 31 31 g.lost.toNat + put 22 0 g.page, put 31 12 g.first + put 11 6 g.positions])) s := by
  intro pages got
  have hbody : stallMapReadBody (cmdOf 0x0506 mb 0 s) (popOrder s) =
      report ((put 31 23 got.length + put 22 0 pages.length) :: got.flatMap fun g =>
        [put 31 31 g.lost.toNat + put 22 0 g.page, put 31 12 g.first + put 11 6 g.positions]) (popOrder s) := by
    unfold stallMapReadBody
    dsimp only
    rw [lenIs_two h, stallArg_of h, argW_one h, stallOf_popOrder]
  exact completes_done' (body := stallMapReadBody) rfl h rfl hbody rfl rfl rfl

theorem stallOpen_completes (h : Ready 0x0500 mb [w0, w1, w2] s) (hcomp : fld w0 11 8 < 2) (helem : fld w0 7 4 < 3)
    (hpair : fld w0 11 8 = 1 → fld w0 7 4 ≠ 2) (hstride : fld w1 4 0 ≠ 0) (hbudget : w2 ≠ 0)
    (hregion : w2 ≤ stallRegion s) (hst : (stallOf s (fld w0 31 16)).st = .empty) :
    Completes (.stallOpen mb 0) mb s stOk false []
      (modStall (fld w0 31 16) (fun x =>
        { st := .filling, gen := (x.gen + 1) % 65536, comp := fld w0 11 8, elem := fld w0 7 4, stride := fld w1 4 0
          budget := w2, timeout := if fld w1 31 16 = 0 then 1024 else fld w1 31 16, idleAt := s.reel.bounds }) s) := by
  have hformat : (decide (2 ≤ fld w0 11 8) || decide (3 ≤ fld w0 7 4) || (fld w0 11 8 == 1 && fld w0 7 4 == 2)) = false := by
    rw [decide_eq_false (Nat.not_le.2 hcomp), decide_eq_false (Nat.not_le.2 helem), Bool.false_or, Bool.false_or]
    by_cases hone : fld w0 11 8 = 1
    · rw [beq_false_of_ne (hpair hone), Bool.and_false]
    · rw [beq_false_of_ne hone, Bool.false_and]
  have hregion' : (w2 == 0 || decide (stallRegion (popOrder s) < w2)) = false := by
    rw [show stallRegion (popOrder s) = stallRegion s from rfl, beq_false_of_ne hbudget,
      decide_eq_false (Nat.not_lt.2 hregion)]
    rfl
  refine completes_blind (f := modStall _ _) (body := stallOpenBody) rfl h rfl ?_ (modStall_blind _ _)
  unfold stallOpenBody
  dsimp only
  rw [lenIs_three h, stallArg_of h, argW_zero h, argW_one h, argW_two h,
    argChecks_three hformat (beq_false_of_ne hstride) hregion', stallOf_popOrder, check_of_false (by rw [hst]; rfl)]
  rfl

theorem stallBudgetSet_completes (h : Ready 0x0501 mb [w0, w1] s) (hbudget : w1 ≠ 0) (hregion : w1 ≤ stallRegion s)
    (hpages : (stallOf s (fld w0 31 16)).pages.length ≤ w1) (hst : (stallOf s (fld w0 31 16)).st ≠ .empty) :
    let t := modStall (fld w0 31 16) (fun x => { x with budget := w1 }) s
    Completes (.stallBudgetSet mb 0) mb s stOk false []
      (if (stallOf s (fld w0 31 16)).halt then
        packStall (fld w0 31 16) (modStall (fld w0 31 16) (fun x => { x with halt := false }) t) else t) := by
  intro t
  have hregion' : (w1 == 0 || decide (stallRegion (popOrder s) < w1)) = false := by
    rw [show stallRegion (popOrder s) = stallRegion s from rfl, beq_false_of_ne hbudget,
      decide_eq_false (Nat.not_lt.2 hregion)]
    rfl
  have hbody : stallBudgetSetBody (cmdOf 0x0501 mb 0 s) (popOrder s) =
      applied (if (stallOf s (fld w0 31 16)).halt then
        packStall (fld w0 31 16) (modStall (fld w0 31 16) (fun x => { x with halt := false })
          (modStall (fld w0 31 16) (fun x => { x with budget := w1 }) (popOrder s)))
        else modStall (fld w0 31 16) (fun x => { x with budget := w1 }) (popOrder s)) := by
    unfold stallBudgetSetBody
    dsimp only
    rw [lenIs_two h, stallArg_of h, argW_one h, argChecks_one hregion', stallOf_popOrder,
      check_of_false (decide_eq_false (Nat.not_lt.2 hpages)), check_of_false (beq_false_of_ne hst)]
  refine completes_blind (f := fun s' => if (stallOf s (fld w0 31 16)).halt then
      packStall (fld w0 31 16) (modStall (fld w0 31 16) (fun x => { x with halt := false })
        (modStall (fld w0 31 16) (fun x => { x with budget := w1 }) s'))
      else modStall (fld w0 31 16) (fun x => { x with budget := w1 }) s') (body := stallBudgetSetBody) rfl h rfl hbody ?_
  intro g s'
  refine ite_modMail Iff.rfl ?_ rfl
  exact ((packStall_blind _).comp ((modStall_blind _ _).comp (modStall_blind _ _))) g s'

/-- A stall is cut to its first positions: the header of the page that is cut is written anew (R397). -/
def stallCut (n p : Nat) (s : State) : State :=
  forAll ((stallOf s n).pages.filter fun g => decide (g.first < p) && decide (p < g.first + g.positions) && !g.lost)
    (fun g => poolIo true g.page 64 4) (modStall n (trimStall p) s)

/-- Copies of pages that left the stall end. -/
def copiesEnded (n : Nat) (pages : List Nat) (s : State) : State :=
  modPool (fun q =>
    { q with
      copying := q.copying.filter fun k =>
        !(pages.filter fun g => !((stallOf s n).pages.map (·.page)).contains g).contains k.1 }) s

theorem stallCut_blind (n p : Nat) : MailBlind (stallCut n p) := fun g s =>
  ((MailBlind.forAll (fun _ => poolIo_blind _ _ _ _) _).comp (modStall_blind n (trimStall p))) g s

theorem copiesEnded_blind (n : Nat) (pages : List Nat) : MailBlind (copiesEnded n pages) := fun _ _ => rfl

theorem stallTrim_completes (h : Ready 0x0503 mb [w0, w1] s) (hpos : fld w1 31 12 ≤ (stallOf s (fld w0 31 16)).positions)
    (hst : (stallOf s (fld w0 31 16)).st = .parked ∨ (stallOf s (fld w0 31 16)).st = .damaged) :
    Completes (.stallTrim mb 0) mb s stOk false []
      (resumePacking (copiesEnded (fld w0 31 16) ((stallOf s (fld w0 31 16)).pages.map (·.page))
        (stallCut (fld w0 31 16) (fld w1 31 12) s))) := by
  have hnow : ((stallOf s (fld w0 31 16)).st != .parked && (stallOf s (fld w0 31 16)).st != .damaged) = false := by
    rcases hst with hst | hst <;> rw [hst] <;> rfl
  refine completes_blind (f := fun t => resumePacking (copiesEnded _ _ (stallCut _ _ t))) (body := stallTrimBody) rfl h rfl
    ?_ (resumePacking_blind.comp ((copiesEnded_blind _ _).comp (stallCut_blind _ _)))
  unfold stallTrimBody
  dsimp only
  rw [lenIs_two h, stallArg_of h, argW_one h, stallOf_popOrder, argChecks_one (decide_eq_false (Nat.not_lt.2 hpos)),
    check_of_false hnow]
  rfl

theorem stallFree_completes (h : Ready 0x0504 mb [w0] s) (hst : (stallOf s (fld w0 31 16)).st ≠ .recalling) :
    Completes (.stallFree mb 0) mb s stOk false [] (emptyStall (fld w0 31 16) s) := by
  refine completes_blind (f := emptyStall _) (body := stallFreeBody) rfl h rfl ?_ (emptyStall_blind _)
  rw [stallFreeBody, lenIs_one h, stallArg_of h, stallOf_popOrder, check_of_false (beq_false_of_ne hst)]
  rfl

/-! ### The pool's regions (R401) -/

theorem poolRegionsSet_completes (h : Ready 0x0507 mb [w0, w1] s) (hspill : fld w0 7 0 ≤ 192) (hscratch : fld w1 6 0 ≠ 0)
    (hsixty : fld w1 6 0 ≤ 64)
    (hregion : 1048576 ≤ stallRegion (modPool (fun p => { p with spillGib := fld w0 7 0, scratchGib := fld w1 6 0 }) s))
    (hreserve : ((List.range 4).map fun a => (spillOf s a).reserve).sum ≤
      spillPages (modPool (fun p => { p with spillGib := fld w0 7 0, scratchGib := fld w1 6 0 }) s))
    (hst : s.tray.st = .standby) (hempty : ∀ e ∈ s.pool.stalls, e.2.st = .empty) (hspilled : usedSpill s = [])
    (hinsts : s.twine.insts = []) :
    Completes (.poolRegionsSet mb 0) mb s stOk false []
      (poolLowCheck (replaceAll (modPool (fun p => { p with spillGib := fld w0 7 0, scratchGib := fld w1 6 0 }) s))) := by
  have hscratch' : (fld w1 6 0 == 0 || decide (64 < fld w1 6 0)) = false := by
    rw [beq_false_of_ne hscratch, decide_eq_false (Nat.not_lt.2 hsixty)]
    rfl
  have hsizes : (decide (stallRegion (modPool (fun p => { p with spillGib := fld w0 7 0, scratchGib := fld w1 6 0 })
        (popOrder s)) < 1048576) ||
      decide (spillPages (modPool (fun p => { p with spillGib := fld w0 7 0, scratchGib := fld w1 6 0 }) (popOrder s)) <
        ((List.range 4).map fun a => (spillOf (popOrder s) a).reserve).sum)) = false := by
    rw [Bool.or_eq_false_iff]
    exact ⟨decide_eq_false (Nat.not_lt.2 hregion), decide_eq_false (Nat.not_lt.2 hreserve)⟩
  have hunused : ((popOrder s).tray.st != .standby || ((popOrder s).pool.stalls.any fun e => e.2.st != .empty) ||
      !(usedSpill (popOrder s)).isEmpty || !(popOrder s).twine.insts.isEmpty) = false := by
    change (s.tray.st != .standby || (s.pool.stalls.any fun e => e.2.st != .empty) || !(usedSpill s).isEmpty ||
      !s.twine.insts.isEmpty) = false
    have hall : (s.pool.stalls.any fun e => e.2.st != .empty) = false := by
      rw [List.any_eq_false]
      intro e he
      rw [hempty e he]
      exact Bool.false_ne_true
    rw [hst, hall, hspilled, hinsts]
    rfl
  refine completes_blind (f := fun s => poolLowCheck (replaceAll (modPool _ s))) (body := poolRegionsSetBody) rfl h rfl ?_
    (poolLowCheck_blind.comp (replaceAll_blind.comp (g := modPool _) fun _ _ => rfl))
  unfold poolRegionsSetBody
  dsimp only
  rw [lenIs_two h, argW_zero h, argW_one h, argChecks_two (decide_eq_false (Nat.not_lt.2 hspill)) hscratch',
    check_of_false hsizes, check_of_false hunused]
  rfl

/-- Settles O33. -/
theorem stallCommandsComplete : Obligations.StallCommandsComplete :=
  ⟨fun _ _ _ h => stallGet_completes h, fun _ _ _ _ h => stallMapRead_completes h,
    fun _ _ h => completes_done' (body := poolStatusGetBody) rfl h rfl (lenIs_none h) rfl rfl rfl,
    fun _ _ _ _ _ h => stallOpen_completes h, fun _ _ _ _ h => stallBudgetSet_completes h,
    fun _ _ _ _ h => stallTrim_completes h, fun _ _ _ h => stallFree_completes h,
    fun _ _ _ _ h hspill hscratch hsixty => poolRegionsSet_completes h hspill hscratch hsixty⟩

end Stalls

end Sys2Proof.Machine
end

section
/-! The collective commands (08_collectives.md R345, R349, R350, R354 to R359). -/

namespace Sys2Proof.Machine

open Sys2Proof

/-! ### Abandoning and groups, without a look at the mailboxes (R330, R345, R350) -/

/-- A collective is noted and reported as abandoned (R345, R357). -/
def abandonNoted (key cause : Nat) (s : State) : State :=
  raise 0x0401 [(12, keyGroup key), (16, keyInstance key), (4, cause)]
    (count (collCtr 11) 1 (modTwine (fun t => { t with abandoned := sat 32 (t.abandoned + 1) })
      (modInst key (fun c => { c with st := .abandoned, cause := cause, stateAt := s.reel.bounds }) s)))

/-- The markers of an abandoned collective are sent (R345). -/
def sendMarkers (key : Nat) (c : Coll) (l : List Nat) : State → State :=
  forAll l fun e s => hc8Post (asOwn s (markerFrame key c e)) s

theorem abandon_eq (key cause : Nat) (but : Option Nat) (s : State) : abandon key cause but s =
    if (instOf s key).st = .free ∨ (instOf s key).st = .abandoned then s
    else sendMarkers key (instOf s key) (markerTargets (instOf s key) but) (abandonNoted key cause s) := rfl

theorem sendMarkers_blind (key : Nat) (c : Coll) (l : List Nat) : MailBlind (sendMarkers key c l) :=
  MailBlind.forAll (fun e g s => hc8Post_blind (asOwn s (markerFrame key c e)) g s) l

theorem abandon_blind (key cause : Nat) (but : Option Nat) : MailBlind (abandon key cause but) := by
  intro g s
  rw [abandon_eq, abandon_eq, show instOf (modMail g s) key = instOf s key from rfl]
  refine ite_modMail Iff.rfl rfl ?_
  rw [show abandonNoted key cause (modMail g s) = modMail g (abandonNoted key cause s) from rfl]
  exact sendMarkers_blind _ _ _ g _

theorem abandonGroup_blind (n cause : Nat) : MailBlind (abandonGroup n cause) := fun g s =>
  MailBlind.forAll (fun e : Nat × Coll => abandon_blind e.1 cause none)
    (s.twine.insts.filter fun e => keyGroup e.1 == n && e.2.st == .opened) g s

/-- The sets of a group are loaded (R330). -/
def groupSetsLoaded (g : Group) (sets : List Nat) : State → State :=
  forAll (List.range sets.length) fun i =>
    loadSet (sets.getD i 0) g.chan (((g.locals.drop (16 * i)).take 16).map (·.2))

theorem groupSetsLoaded_blind (g : Group) (sets : List Nat) : MailBlind (groupSetsLoaded g sets) :=
  MailBlind.forAll (fun _ => loadSet_blind _ _ _) _

theorem groupApply_blind (n : Nat) (g : Group) (sets : List Nat) : MailBlind (groupApply n g sets) := fun m s =>
  (MailBlind.comp (f := modTwine fun t =>
      { t with groups := tabSet {} t.groups n (if g.valid then { g with sets := sets } else {}) }) (fun _ _ => rfl) <|
    (groupSetsLoaded_blind g sets).comp <| (MailBlind.forAll releaseSet_blind (groupOf s n).sets).comp <|
    (abandonGroup_blind n causeEpoch).onlyIf
      ((groupOf s n).valid && (!g.valid || g.gepoch != (groupOf s n).gepoch))) m s

theorem scratchReads_blind (key : Nat) (l : List (Nat × Nat)) : MailBlindAnswer (scratchReads key l) := by
  intro g s
  induction l generalizing s with
  | nil => rfl
  | cons x l ih =>
    unfold scratchReads
    dsimp only
    rw [poolRead_blind x.1 x.2 1 g s]
    obtain ⟨ok, t⟩ := poolRead x.1 x.2 1 s
    cases ok with
    | true => exact ih t
    | false => exact congrArg (Prod.mk false) (((abandon_blind key causePool none).comp (retirePage_blind x.1 false)) g t)

theorem tallyScan_blind (c : Cmd) : MailBlindAnswer (tallyScan c) := fun g s => scratchReads_blind _ _ g s

/-! ### The collective commands -/

section Collectives

variable {mb w0 w1 w2 w3 : Nat} {s : State}

theorem groupSet_completes {args sets : List Nat} (h : Ready 0x0400 mb args s)
    (hlen : args.length = 24 + fld (args.getD 3 0) 13 7) :
    let n := fld (args.getD 0 0) 31 20
    let g := groupArg (cmdOf 0x0400 mb 0 s)
    let old := groupOf s n
    (∀ x ∈ groupChecks (cmdOf 0x0400 mb 0 s) s, x.2 = false) →
    (g.valid = false ∨ old.valid = false ∨ g.gepoch ≠ old.gepoch ∨ groupOpen s n = false) →
    (g.valid = true →
      freeSets (modTwine (fun t => { t with groups := tabSet {} t.groups n { old with sets := [] } }) s)
        (ceilDiv g.locals.length 16) = some sets) →
    (g.valid = false → sets = []) →
    Completes (.groupSet mb 0) mb s stOk false [] (groupApply n g sets s) := by
  intro n g old hchecks hopen hsets hnone
  have hword : ∀ i < 4, argW (cmdOf 0x0400 mb 0 s) i = args.getD i 0 := fun i hi => argW_ready h i (by omega)
  have hblock : (cmdOf 0x0400 mb 0 s).len = 96 + 4 * fld (args.getD 3 0) 13 7 := by
    rw [len_ready h, hlen]
    omega
  have hnow : (g.valid && old.valid && g.gepoch == old.gepoch && groupOpen (popOrder s) n) = false := by
    change (g.valid && old.valid && g.gepoch == old.gepoch && groupOpen s n) = false
    rcases hopen with hv | hv | hne | hclosed
    · rw [hv]
      rfl
    · rw [hv, Bool.and_false]
      rfl
    · rw [beq_false_of_ne hne, Bool.and_false]
      rfl
    · rw [hclosed, Bool.and_false]
  have hfree : (if g.valid then
      freeSets (modTwine (fun t => { t with groups := tabSet {} t.groups n { old with sets := [] } }) (popOrder s))
        (ceilDiv g.locals.length 16) else some []) = some sets := by
    cases hv : g.valid with
    | true => exact hsets hv
    | false => rw [hnone hv]; rfl
  refine completes_blind (f := groupApply n g sets) (body := groupSetBody) rfl h rfl ?_ (groupApply_blind _ _ _)
  unfold groupSetBody
  dsimp only
  rw [hword 0 (by omega), hword 3 (by omega), lenIs_of_eq hblock,
    argChecks_of_false (show ∀ x ∈ groupChecks (cmdOf 0x0400 mb 0 s) (popOrder s), x.2 = false from hchecks)]
  change check stNotNow (g.valid && old.valid && g.gepoch == old.gepoch && groupOpen (popOrder s) n) (check stNoRoom
    (if g.valid then
      freeSets (modTwine (fun t => { t with groups := tabSet {} t.groups n { old with sets := [] } }) (popOrder s))
        (ceilDiv g.locals.length 16) else some []).isNone (applied (groupApply n g ((if g.valid then
      freeSets (modTwine (fun t => { t with groups := tabSet {} t.groups n { old with sets := [] } }) (popOrder s))
        (ceilDiv g.locals.length 16) else some []).getD []) (popOrder s)))) = _
  rw [hfree, check_of_false hnow, check_of_false (by rfl)]
  rfl

theorem groupGet_completes (h : Ready 0x0401 mb [w0] s) :
    Completes (.groupGet mb 0) mb s stOk true (groupBytes (fld w0 31 20) (groupOf s (fld w0 31 20))) s := by
  have hbody : groupGetBody (cmdOf 0x0401 mb 0 s) (popOrder s) =
      .done stOk (groupBytes (fld w0 31 20) (groupOf s (fld w0 31 20))) (popOrder s) := by
    unfold groupGetBody
    rw [lenIs_one h, argW_zero h]
    rfl
  exact completes_done' (body := groupGetBody) rfl h rfl hbody rfl rfl rfl

theorem instArg_of {op : Nat} {ws : List Nat} (h : Ready op mb (w0 :: w1 :: ws) s) :
    instArg (cmdOf op mb 0 s) = fld w0 31 12 * 2 ^ 16 + fld w1 15 0 := by rw [instArg, argW_zero h, argW_one h]

theorem instOf_popOrder (key : Nat) : instOf (popOrder s) key = instOf s key := rfl

theorem instanceGet_completes (h : Ready 0x0402 mb [w0, w1] s) :
    Completes (.instanceGet mb 0) mb s stOk true
      (leWords (instWords s (instOf s (fld w0 31 12 * 2 ^ 16 + fld w1 15 0)))) s := by
  have hbody : instanceGetBody (cmdOf 0x0402 mb 0 s) (popOrder s) =
      report (instWords (popOrder s) (instOf (popOrder s) (fld w0 31 12 * 2 ^ 16 + fld w1 15 0))) (popOrder s) := by
    rw [instanceGetBody, lenIs_two h, instArg_of h]
  exact completes_done' (body := instanceGetBody) rfl h rfl hbody rfl rfl rfl

theorem instanceAbandon_completes (h : Ready 0x0403 mb [w0, w1] s)
    (hst : (instOf s (fld w0 31 12 * 2 ^ 16 + fld w1 15 0)).st = .opened) :
    Completes (.instanceAbandon mb 0) mb s stOk false []
      (abandon (fld w0 31 12 * 2 ^ 16 + fld w1 15 0) causeDriver none s) := by
  refine completes_blind (f := abandon _ causeDriver none) (body := instanceAbandonBody) rfl h rfl ?_ (abandon_blind _ _ _)
  rw [instanceAbandonBody, lenIs_two h, instArg_of h, instOf_popOrder, check_of_false (by rw [hst]; rfl)]
  rfl

/-! ### TALLY_READ (R349, R358, R612) -/

/-- What the pool reads of the step will find. -/
abbrev findsReads (reads : List Nat) : State → State := modPool fun p => { p with reads := reads }

/-- A completion of a host's mailbox, from a state with the tray as `u` and its order moved on, is what `Completes`
asks for. -/
theorem completes_of_complete {i : Instr} {s t u : State} {st attempts : Nat} {res : List Byte} (hs : Clean s)
    (he : exec i s = .next (finish s (complete mb st attempts 0xFFF res t))) (harch : t.arch = u.arch)
    (hmail : t.mail = { u.mail with order := u.mail.order.drop 1 }) (hvia : (box t mb).via = .pcie)
    (hwrites : t.mail.writes = []) (hwipe : t.mail.wipe = false) : Completes i mb s st true res u := by
  obtain ⟨hsame, hafter, hstatus, hresult, hrest⟩ := complete_spec (attempts := attempts) (argFault := 0xFFF) (st := st)
    (res := res) hs hvia hwrites hwipe rfl
  exact ⟨_, he, hsame.trans harch, by rw [hafter, hmail]; rfl, hstatus, hresult, hrest⟩

/-- A read-only command of ready words, with pool reads to come, comes to its body's verdict. -/
theorem runCommand_reads {op fails : Nat} {args reads : List Nat} {onFault : Cmd → State → State}
    {body : Cmd → State → Verdict} {st : Nat} {res : List Byte} {t : State} (h : Ready op mb args s)
    (hb : body (cmdOf op mb fails s) (popOrder (findsReads reads s)) = .done st res t) :
    runCommand op mb fails (fun _ => true) onFault body (findsReads reads s) =
      if 2 ≤ fails then
        faultCommand (cmdOf op mb fails s) res (onFault (cmdOf op mb fails s) (popOrder (findsReads reads s)))
      else complete mb st (fails + 1) 0xFFF res (noteTransient fails t) := by
  obtain ⟨-, hpoint, -, hrec, hguard, -, hlen, hmax, -, -⟩ := h
  have hpoint' : atPoint op mb (findsReads reads s) = true := hpoint
  have hrec' : (popOrder (findsReads reads s)).tray.recovery = false := hrec
  have hguard' : staleGuard (cmdOf op mb fails s).mb (popOrder (findsReads reads s)) = false := hguard
  have hcmd : cmdOf op mb fails (findsReads reads s) = cmdOf op mb fails s := rfl
  have hbytes : (cmdOf op mb fails s).len = 4 * args.length := hlen
  have hblock : lengthBad (cmdOf op mb fails s) (.done st res t) = false := by
    unfold lengthBad
    rw [hbytes, Nat.mul_mod_right, decide_eq_false (by omega)]
    rfl
  unfold runCommand
  rw [if_pos hpoint']
  dsimp only
  rw [hcmd, hb, hrec', hblock, if_neg (by rw [Bool.false_and]; exact Bool.false_ne_true), if_neg Bool.false_ne_true]
  unfold settle
  dsimp only
  rw [hguard', if_neg Bool.false_ne_true]
  rfl

/-- A lasting fault of a mailbox's command is counted (R612). -/
abbrev faultCounted : State → State := modMail fun m => { m with faults := sat 32 (m.faults + 1) }

/-- What a lasting fault notes beside its count is in the records alone. -/
theorem faultNoted_arch (op : Nat) (t : State) :
    (raise 0x0000 [(5, mb), (16, op)] (count (hc8Ctr 11) 1 (faultCounted (popOrder t)))).arch = (faultCounted t).arch :=
  (arch_of_hull ((raise_hull _ _ _).trans (count_hull _ _ _))).trans (modMail_arch _ _)

theorem faultNoted_mail (op : Nat) (t : State) :
    (raise 0x0000 [(5, mb), (16, op)] (count (hc8Ctr 11) 1 (faultCounted (popOrder t)))).mail =
      { (faultCounted t).mail with order := t.mail.order.drop 1 } := by
  rw [raise_mail, count_mail]
  rfl

section TallyRead

variable {reads : List Nat} (h : Ready 0x0404 mb [w0, w1, w2, w3] s)
  (htally : (groupOf s (keyGroup (fld w0 31 12 * 2 ^ 16 + fld w1 15 0))).tally = true)
  (hst : (instOf s (fld w0 31 12 * 2 ^ 16 + fld w1 15 0)).st ≠ .free)

/-- The tally entries of the chunk that the command names. -/
def tallyEntries (w0 w1 w2 : Nat) (s : State) : List Nat :=
  match chunkAt (instOf s (fld w0 31 12 * 2 ^ 16 + fld w1 15 0)) (fld w2 31 8) with
  | some k => k.tally
  | none => []

/-- The words that TALLY_READ returns. -/
def tallyWords (w0 w1 w2 w3 : Nat) (s : State) : List Nat :=
  let all := tallyEntries w0 w1 w2 s
  let got := (all.drop (fld w3 15 0)).take 960
  (put 31 16 got.length + put 15 0 (sat 16 all.length)) :: got

include h

theorem tallyTaken_ready {t : State} (hinsts : t.twine = s.twine) :
    tallyTaken (cmdOf 0x0404 mb 0 s) t =
      (((tallyEntries w0 w1 w2 s).drop (fld w3 15 0)).take 960, (tallyEntries w0 w1 w2 s).length) := by
  have hinst : ∀ key, instOf t key = instOf s key := fun key => by rw [instOf, instOf, hinsts]
  unfold tallyTaken tallyEntries
  rw [instArg_of h, argW_two h, argW_three h, hinst] <;> rfl

include htally hst

/-- TALLY_READ reports the entries, whatever its pool reads find. -/
theorem tallyReadBody_reports (fails : Nat) :
    tallyReadBody (cmdOf 0x0404 mb fails s) (popOrder (findsReads reads s)) =
      report (tallyWords w0 w1 w2 w3 s) (tallyScan (cmdOf 0x0404 mb 0 s) (popOrder (findsReads reads s))).2 := by
  change tallyReadBody (cmdOf 0x0404 mb 0 s) (popOrder (findsReads reads s)) = _
  have htally' : (!(groupOf (popOrder (findsReads reads s)) (keyGroup (fld w0 31 12 * 2 ^ 16 + fld w1 15 0))).tally) =
      false := by
    rw [show groupOf (popOrder (findsReads reads s)) = groupOf s from rfl, htally]
    rfl
  have hst' : ((instOf (popOrder (findsReads reads s)) (fld w0 31 12 * 2 ^ 16 + fld w1 15 0)).st == .free) = false :=
    beq_false_of_ne hst
  unfold tallyReadBody
  rw [lenIs_four h, tallyTaken_ready h (t := popOrder (findsReads reads s)) rfl]
  dsimp only
  rw [instArg_of h, check_of_false htally', check_of_false hst']
  rfl

theorem tallyRead_completes (hok : (tallyScan (cmdOf 0x0404 mb 0 s) (findsReads reads s)).1 = true) :
    Completes (.tallyRead mb ⟨0, reads⟩) mb s stOk true (leWords (tallyWords w0 w1 w2 w3 s))
      (tallyScan (cmdOf 0x0404 mb 0 s) (findsReads reads s)).2 := by
  have hscan := tallyScan_blind (cmdOf 0x0404 mb 0 s)
  have hpop : (tallyScan (cmdOf 0x0404 mb 0 s) (popOrder (findsReads reads s))).2 =
      popOrder (tallyScan (cmdOf 0x0404 mb 0 s) (findsReads reads s)).2 := congrArg Prod.snd (hscan _ _)
  have hmail : (tallyScan (cmdOf 0x0404 mb 0 s) (findsReads reads s)).2.mail = s.mail :=
    MailBlind.mail (f := fun s => (tallyScan _ s).2) (fun g s => congrArg Prod.snd (hscan g s)) (findsReads reads s)
  have hrun := runCommand_reads (reads := reads) (fails := 0) (onFault := fun c t => t) h
    (tallyReadBody_reports h htally hst 0)
  have hexec : exec (.tallyRead mb ⟨0, reads⟩) s = .next (finish s (complete mb stOk 1 0xFFF
      (leWords (tallyWords w0 w1 w2 w3 s)) (popOrder (tallyScan (cmdOf 0x0404 mb 0 s) (findsReads reads s)).2))) := by
    rw [← hpop]
    refine congrArg (fun t => Host.Outcome.next (finish s t)) (Eq.trans ?_ hrun)
    have hbad : (!(tallyScan (cmdOf 0x0404 mb 0 (findsReads reads s)) (findsReads reads s)).1) = false := by
      rw [show cmdOf 0x0404 mb 0 (findsReads reads s) = cmdOf 0x0404 mb 0 s from rfl, hok]
      rfl
    unfold withReads
    dsimp only
    rw [hbad]
    rfl
  refine completes_of_complete h.1 hexec (modMail_arch _ _) rfl ?_ ?_ ?_
  · unfold box
    rw [show ∀ t : State, (popOrder t).mail.boxes = t.mail.boxes from fun _ => rfl, hmail]
    exact h.2.2.1
  · exact (congrArg Mail.writes hmail).trans h.1.2.1
  · exact (congrArg Mail.wipe hmail).trans h.1.2.2.1

/-- A tally page that cannot be read fails both attempts: FAULT, a lasting fault counted (R349, R612). -/
theorem tallyRead_faults (hbad : (tallyScan (cmdOf 0x0404 mb 0 s) (findsReads reads s)).1 = false) :
    Completes (.tallyRead mb ⟨0, reads⟩) mb s stFault true []
      (faultCounted (tallyScan (cmdOf 0x0404 mb 0 s) (findsReads reads s)).2) := by
  have hscan := tallyScan_blind (cmdOf 0x0404 mb 0 s)
  have hpop : (tallyScan (cmdOf 0x0404 mb 0 s) (popOrder (findsReads reads s))).2 =
      popOrder (tallyScan (cmdOf 0x0404 mb 0 s) (findsReads reads s)).2 := congrArg Prod.snd (hscan _ _)
  have hmail : (tallyScan (cmdOf 0x0404 mb 0 s) (findsReads reads s)).2.mail = s.mail :=
    MailBlind.mail (f := fun s => (tallyScan _ s).2) (fun g s => congrArg Prod.snd (hscan g s)) (findsReads reads s)
  have hrun := runCommand_reads (reads := reads) (fails := 2) (onFault := fun c t => (tallyScan c t).2) h
    (tallyReadBody_reports h htally hst 2)
  have hexec : exec (.tallyRead mb ⟨0, reads⟩) s = .next (finish s (complete mb stFault 2 0xFFF []
      (raise 0x0000 [(5, mb), (16, 0x0404)] (count (hc8Ctr 11) 1
        (faultCounted (popOrder (tallyScan (cmdOf 0x0404 mb 0 s) (findsReads reads s)).2)))))) := by
    rw [← hpop]
    refine congrArg (fun t => Host.Outcome.next (finish s t)) (Eq.trans ?_ hrun)
    have hbad' : (!(tallyScan (cmdOf 0x0404 mb 0 (findsReads reads s)) (findsReads reads s)).1) = true := by
      rw [show cmdOf 0x0404 mb 0 (findsReads reads s) = cmdOf 0x0404 mb 0 s from rfl, hbad]
      rfl
    unfold withReads
    dsimp only
    rw [hbad']
    rfl
  clear hrun hpop hscan
  revert hexec hmail
  generalize (tallyScan (cmdOf 0x0404 mb 0 s) (findsReads reads s)).2 = t
  intro hmail hexec
  refine completes_of_complete h.1 hexec (faultNoted_arch _ t) (faultNoted_mail _ t) ?_ ?_ ?_
  · unfold box
    rw [faultNoted_mail, modMail_mail, hmail]
    exact h.2.2.1
  · rw [faultNoted_mail, modMail_mail, hmail]
    exact h.1.2.1
  · rw [faultNoted_mail, modMail_mail, hmail]
    exact h.1.2.2.1

end TallyRead

/-- Settles O30. -/
theorem collectiveCommandsComplete : Obligations.CollectiveCommandsComplete :=
  ⟨fun _ _ _ _ h hlen => groupSet_completes h hlen, fun _ _ _ h => groupGet_completes h,
    fun _ _ _ _ h => instanceGet_completes h, fun _ _ _ _ h hst => instanceAbandon_completes h hst,
    fun _ _ _ _ _ _ h htally hst _ => ⟨tallyRead_completes h htally hst, tallyRead_faults h htally hst⟩,
    fun _ _ h => completes_done' (body := collStatusGetBody) rfl h rfl (lenIs_none h) rfl rfl rfl⟩

end Collectives

end Sys2Proof.Machine
end

section
/-! A domain that is switched off, as an operation that does not look at the mailboxes (R204, R246, R349, R390, R428,
R441), and the power commands (11_power_ledger.md R465, R470 to R476). -/

namespace Sys2Proof.Machine

open Sys2Proof

/-! ### Frames that are dropped or leave their context (R192, R228, R235, R236) -/

/-- What a discarded frame of a reason adds to the counters (R192). -/
def dropCounted (reason u : Nat) (f : Frame) (s : State) : State :=
  onlyIf (reason == 3) (modFwd fun w =>
      { w with spill := tabMod {} w.spill (uAsic u) fun p => { p with dropsLost := sat 32 (p.dropsLost + 1) } })
    (onlyIf (reason == 2) (fun s => modFwd (fun w =>
        { w with spill := tabMod {} w.spill (uAsic u) fun p => { p with dropsNoSpace := sat 32 (p.dropsNoSpace + 1) } })
        (count (queueCtr u (f.cls % 5) 7) 1 s))
      (count (fwdCtr (uAsic u) (reason - 1)) 1 s))

/-- A discarded frame is kept for a notice of its flow (R235). -/
def lossKept (reason : Nat) (f : Frame) (s : State) : State :=
  onlyIf (!(f.cls == 0 && ctypeOf f == 4)) (modFwd (fun w => { w with losses := w.losses ++
    [{ flow := flowKey f, bound := s.reel.bounds, turn := s.reel.turn, reason := reason, cls := f.cls, seq := f.flowSeq }] })) s

/-- A discarded notice of the tray's own is counted (R236). -/
def ownNoticeLost (f : Frame) (s : State) : State :=
  onlyIf (f.cls == 0 && ctypeOf f == 4 && f.src == ownEid s) (noticeLost f.dst) s

theorem dropFrame_eq (reason u : Nat) (f : Frame) (s : State) : dropFrame reason u f s =
    if reason = 2 ∨ reason = 3 ∨ reason = 7 then
      raiseOnce (eventKey 0x0205 + flowKey f) 0x0205 (dropDetail reason u f)
        (lossKept reason f (ownNoticeLost f (dropCounted reason u f s)))
    else raise 0x0205 (dropDetail reason u f) (ownNoticeLost f (dropCounted reason u f s)) := rfl

theorem dropCounted_blind (reason u : Nat) (f : Frame) : MailBlind (dropCounted reason u f) :=
  (MailBlind.onlyIf (fun _ _ => rfl) _).comp ((MailBlind.onlyIf (fun _ _ => rfl) _).comp (count_blind _ _))

theorem lossKept_blind (reason : Nat) (f : Frame) : MailBlind (lossKept reason f) := fun g s =>
  MailBlind.onlyIf (f := modFwd _) (fun _ _ => rfl) _ g s

theorem noticeLost_blind (src : Nat) : MailBlind (noticeLost src) :=
  (raiseOnce_blind (eventKey 0x090A) 0x090A [(12, src)]).comp (count_blind (hc8Ctr 1) 1)

theorem ownNoticeLost_blind (f : Frame) : MailBlind (ownNoticeLost f) := fun g s =>
  (noticeLost_blind f.dst).onlyIf _ g s

theorem dropFrame_blind (reason u : Nat) (f : Frame) : MailBlind (dropFrame reason u f) := by
  intro g s
  have hnoted := (ownNoticeLost_blind f).comp (dropCounted_blind reason u f)
  rw [dropFrame_eq, dropFrame_eq]
  exact ite_modMail Iff.rfl (((raiseOnce_blind _ _ _).comp ((lossKept_blind reason f).comp hnoted)) g s)
    (((raise_blind _ _).comp hnoted) g s)

theorem retire_blind (asic : Nat) (q : QFrame) : MailBlind (retire asic q) := by
  intro g s
  unfold retire
  rw [show contextOf (modMail g s) asic q = contextOf s asic q from rfl]
  cases contextOf s asic q with
  | none => rfl
  | some c => exact ite_modMail Iff.rfl rfl rfl

/-! ### What a domain held (R204, R246, R349, R390, R428) -/

/-- The slots and runs of the annealing engine are gone (R419). -/
def slotsLost : State → State :=
  modAnneal fun a => { a with slots := [], order := [], running := none, paused := false, stopAt := none, faultAt := none }

theorem annealOff_eq (s : State) : annealOff s =
    slotsLost (forAll (numbers 4 fun n => (slotOf s n).st != .empty) (fun n => raise 0x0602 [(2, n)]) s) := rfl

theorem annealOff_blind : MailBlind annealOff := by
  intro g s
  rw [annealOff_eq, annealOff_eq]
  exact (MailBlind.comp (f := slotsLost) (fun _ _ => rfl) (MailBlind.forAll (fun n => raise_blind 0x0602 [(2, n)])
    (numbers 4 fun n => (slotOf s n).st != .empty))) g s

/-- A chunk has scratch on a half. -/
def chunkLies (half : Nat) (k : Chunk) : Bool := k.scratch.any fun p => pageHalf p.2 == half

/-- Instances no longer keep the chunks that lay on a half (R347, R352). -/
def keptLostOn (half : Nat) : State → State :=
  modTwine fun t => { t with insts := t.insts.map fun e =>
    (e.1, { e.2 with kept := e.2.kept.map fun x =>
      { x with gone := x.gone || (chunkAt e.2 x.chunk).any (chunkLies half) } }) }

theorem collHalfLost_eq (half : Nat) (s : State) : collHalfLost half s =
    forAll ((keptLostOn half s).twine.insts.filter fun e => e.2.st == .opened && e.2.chunks.any (chunkLies half))
      (fun e => abandon e.1 causePool none) (keptLostOn half s) := rfl

theorem collHalfLost_blind (half : Nat) : MailBlind (collHalfLost half) := by
  intro g s
  rw [collHalfLost_eq, collHalfLost_eq, show keptLostOn half (modMail g s) = modMail g (keptLostOn half s) from rfl]
  exact MailBlind.forAll (fun e : Nat × Coll => abandon_blind e.1 causePool none) _ g (keptLostOn half s)

/-- The spill pages of an ASIC on a lost half are gone (R204). -/
def pagesLost (half a : Nat) : State → State :=
  modSpill a fun sp => { sp with pages := sp.pages.filter fun g => pageHalf g.page != half }

/-- The frames of an ASIC that were spilled on a half, with their queue keys. -/
def spilledOn (half a : Nat) (s : State) : List (Nat × QFrame) :=
  ((spillOf s a).pages.filter fun g => pageHalf g.page == half).flatMap (·.frames)

/-- The spilled frames of an ASIC on a lost half go with its pages (R204). -/
def spillHalfLost (half a : Nat) (s : State) : State :=
  forAll (spilledOn half a s)
    (fun e s => retire a e.2 (dropFrame dropSpillLost (e.1 / 8) e.2.f s)) (pagesLost half a s)

theorem poolHalfLost_eq (half : Nat) (s : State) : poolHalfLost half s =
    forAll (List.range 4) (spillHalfLost half)
      (modFwd (fun w => { w with spillOut := w.spillOut.filter (· != half) ++ [half] })
        (collHalfLost half (stallHalfLost half s))) := rfl

theorem spillHalfLost_blind (half a : Nat) : MailBlind (spillHalfLost half a) := fun g s =>
  ((MailBlind.forAll (fun e : Nat × QFrame =>
      (retire_blind a e.2).comp (dropFrame_blind dropSpillLost (e.1 / 8) e.2.f))
    (spilledOn half a s)).comp
      (g := pagesLost half a) fun _ _ => rfl) g s

theorem poolHalfLost_blind (half : Nat) : MailBlind (poolHalfLost half) := by
  intro g s
  have hlost := (MailBlind.comp (f := modFwd fun w => { w with spillOut := w.spillOut.filter (· != half) ++ [half] })
    (fun _ _ => rfl) ((collHalfLost_blind half).comp (stallHalfLost_blind half))) g s
  rw [poolHalfLost_eq, poolHalfLost_eq]
  exact (congrArg _ hlost).trans (MailBlind.forAll (spillHalfLost_blind half) _ g _)

/-- The cells and contexts of an ASIC that goes down empty (R246). -/
def cellsLost (a : Nat) (s : State) : State :=
  modSpill a (fun sp => { sp with pages := [] }) (modFwd (fun w => { w with
    queues := w.queues.filter fun e => !(e.1 / 8 < 2 ^ 15 && uAsic (e.1 / 8) == a)
    sending := w.sending.filter fun e => uAsic e.1 != a
    reseq := tabMod {} w.reseq a fun r => { r with contexts := [] } })
    (forAll (asicPorts a) (fun u => modLink u fun l => { l with unacked := [], waiting := none }) s))

/-- The ports of an ASIC that goes down are DARK, their holds and settings forgotten (R246). -/
def portsLost (a : Nat) : State → State :=
  forAll ((asicPorts a) ++ (List.range 8).map fun i => hc8End (unitOf a (72 + i)))
    (fun u s => portDark u (modPunit u (fun p => { p with hold := none, disabled := false }) s))

/-- The ASIC that goes down is DARK, and the ports that the others require are fewer (R246). -/
def asicLost (a : Nat) (s : State) : State :=
  forAll ((List.range 4).filter (· != a)) asicCheck
    (asicTo a .dark (modAsic a (fun x => { x with answered := false, present := false, mismatches := 0 }) s))

theorem asicDown_eq (a : Nat) (s : State) : asicDown a s =
    asicLost a (portsLost a (forAll (spilledOf s a) (fun e => dropFrame dropSpillLost (e.1 / 8) e.2.f) (cellsLost a s))) :=
  rfl

theorem cellsLost_blind (a : Nat) : MailBlind (cellsLost a) :=
  MailBlind.comp (f := fun s => modSpill a _ (modFwd _ s)) (fun _ _ => rfl)
    (MailBlind.forAll (fun u => fun _ _ => modLink_modMail u _ _ _) _)

theorem portsLost_blind (a : Nat) : MailBlind (portsLost a) :=
  MailBlind.forAll (fun u => (portDark_blind u).comp fun _ _ => rfl) _

theorem asicLost_blind (a : Nat) : MailBlind (asicLost a) :=
  (MailBlind.forAll asicCheck_blind _).comp ((asicTo_blind a .dark).comp fun _ _ => rfl)

theorem asicDown_blind (a : Nat) : MailBlind (asicDown a) := by
  intro g s
  rw [asicDown_eq, asicDown_eq]
  exact ((asicLost_blind a).comp ((portsLost_blind a).comp ((MailBlind.forAll
    (fun e : Nat × QFrame => dropFrame_blind dropSpillLost (e.1 / 8) e.2.f) (spilledOf s a)).comp (cellsLost_blind a)))) g s

/-! ### Switching a domain off (R441, R472) -/

/-- A domain is noted and reported as off (R479). -/
def domainNoted (d cause : Nat) (s : State) : State :=
  raiseDomain d cause (modPower (fun p =>
    { p with on := p.on.filter (· != d), ramping := if p.ramping = some d then none else p.ramping }) s)

/-- What a domain that goes off held is lost. -/
def domainLost (d : Nat) (s : State) : State :=
  if d = 1 then annealOff s
  else if d = 2 then poolHalfLost 0 s
  else if d = 3 then poolHalfLost 1 s
  else if 4 ≤ d && d ≤ 7 then asicDown (d - 4) s
  else s

theorem domainOff_eq (d cause : Nat) (s : State) : domainOff d cause s =
    if !s.power.on.contains d then s else domainLost d (domainNoted d cause s) := rfl

theorem domainLost_blind (d : Nat) : MailBlind (domainLost d) := by
  intro g s
  unfold domainLost
  refine ite_modMail Iff.rfl (annealOff_blind g s) ?_
  refine ite_modMail Iff.rfl (poolHalfLost_blind 0 g s) ?_
  refine ite_modMail Iff.rfl (poolHalfLost_blind 1 g s) ?_
  exact ite_modMail Iff.rfl (asicDown_blind (d - 4) g s) rfl

theorem domainOff_blind (d cause : Nat) : MailBlind (domainOff d cause) := by
  intro g s
  rw [domainOff_eq, domainOff_eq]
  refine ite_modMail Iff.rfl rfl ?_
  exact ((domainLost_blind d).comp (g := domainNoted d cause) fun _ _ => rfl) g s

/-! ### The power commands -/

section PowerCommands

variable {mb w0 w1 w2 w3 : Nat} {s : State}

theorem powerConfigSet_reads (h : Ready 0x0700 mb [w0, w1, w2, w3] s) (hread : bit w0 31 = true) :
    Completes (.powerConfigSet mb 0) mb s stOk true (leWords (powerCfgWords s.power.cfg)) s := by
  have hw := argW_zero h
  have hbody : powerConfigSetBody (cmdOf 0x0700 mb 0 s) (popOrder s) =
      report (powerCfgWords (popOrder s).power.cfg) (popOrder s) := by
    unfold powerConfigSetBody
    rw [lenIs_four h, hw, if_pos hread]
  exact completes_done' (body := powerConfigSetBody) rfl h (by rw [hw, hread]) hbody rfl rfl rfl

theorem powerCalGet_completes (h : Ready 0x0707 mb [w0] s) (hitem : fld w0 7 0 < 0x2C) :
    let i := fld w0 7 0
    Completes (.powerCalGet mb 0) mb s stOk true
      (leWords [put 31 16 (enc 16 (calBase i)) + put 15 0 (enc 16 (calStored s i)), put 31 16 (enc 16 (calEffective s i))])
      s := by
  intro i
  have hbody : powerCalGetBody (cmdOf 0x0707 mb 0 s) (popOrder s) =
      report [put 31 16 (enc 16 (calBase i)) + put 15 0 (enc 16 (calStored (popOrder s) i)),
        put 31 16 (enc 16 (calEffective (popOrder s) i))] (popOrder s) := by
    unfold powerCalGetBody calItem
    dsimp only
    rw [lenIs_one h, argW_zero h, argChecks_one (decide_eq_false (Nat.not_le.2 hitem))]
  exact completes_done' (body := powerCalGetBody) rfl h rfl hbody rfl rfl rfl

section PowerDomainSet

variable (h : Ready 0x0702 mb [w0] s) (hd : fld w0 3 0 < 10)
  (hbusy : (s.mail.long.any fun l => l.opcode == 0x0702) = false)

include h hd hbusy

theorem powerDomainSet_off (hoff : bit w0 8 = false) (hallowed : offForbidden s (fld w0 3 0) = false) :
    Completes (.powerDomainSet mb 0) mb s stOk false [] (domainOff (fld w0 3 0) causeCommand s) := by
  have hallowed' : offForbidden (popOrder s) (fld w0 3 0) = false := hallowed
  have hbusy' : ((popOrder s).mail.long.any fun l => l.opcode == 0x0702) = false := hbusy
  refine completes_blind (f := domainOff _ causeCommand) (body := powerDomainSetBody) rfl h rfl ?_ (domainOff_blind _ _)
  unfold powerDomainSetBody
  dsimp only
  rw [lenIs_one h, argW_zero h, argChecks_one (decide_eq_false (Nat.not_le.2 hd)), hoff, hbusy', hallowed', Bool.and_false]
  rfl

theorem powerDomainSet_stays (hon : bit w0 8 = true) (hisOn : s.power.on.contains (fld w0 3 0) = true) :
    Completes (.powerDomainSet mb 0) mb s stOk false [] s := by
  have hisOn' : (popOrder s).power.on.contains (fld w0 3 0) = true := hisOn
  have hbusy' : ((popOrder s).mail.long.any fun l => l.opcode == 0x0702) = false := hbusy
  have hbody : powerDomainSetBody (cmdOf 0x0702 mb 0 s) (popOrder s) = applied (popOrder s) := by
    unfold powerDomainSetBody
    dsimp only
    rw [lenIs_one h, argW_zero h, argChecks_one (decide_eq_false (Nat.not_le.2 hd)), hon, hisOn', hbusy']
    rfl
  exact completes_blind (f := id) (body := powerDomainSetBody) rfl h rfl hbody (fun _ _ => rfl)

end PowerDomainSet

theorem powerFreqSet_completes (h : Ready 0x0703 mb [w0, w1, w2] s) (hlevel : fld w0 1 0 ≠ 3)
    (hp : Placeable .freqStep 0 (turnOf w1 w2) s) :
    Completes (.powerFreqSet mb 0) mb s stOk false []
      (schedAdd ⟨.freqStep, 0, turnOf w1 w2, 0x0703, false, .freq (fld w0 1 0) 0⟩ s) := by
  have hfar : turnTooFar (turnOf w1 w2) (popOrder s) = false := hp.far
  have hnear : turnTooNear (turnOf w1 w2) (popOrder s) = false := hp.near
  have hfree : schedTaken .freqStep 0 (turnOf w1 w2) (popOrder s) = false := hp.free
  have hroom : schedFull (popOrder s) = false := hp.room
  have htimed : untimed (popOrder s) = false := hp.timed
  refine completes_blind (f := schedAdd _) (body := powerFreqSetBody) rfl h rfl ?_ (fun _ _ => rfl)
  unfold powerFreqSetBody
  dsimp only
  rw [lenIs_three h, argW_zero h, argTurn_one h, argChecks_two (beq_false_of_ne hlevel) hfar, check_of_false htimed,
    check_of_false (by rw [hnear, hfree]; rfl), check_of_false hroom]
  rfl

theorem powerIdleSet_completes (h : Ready 0x0704 mb [w0, w1] s) (hmode : fld w1 1 0 ≠ 3)
    (ha : bit w1 16 = false → AddressOk w0) :
    let ports :=
      if bit w1 16 = false then [addressUnit w0]
      else if bit w0 11 then (List.range 8).map fun i => hc8End (unitOf (fld w0 8 7) (72 + i))
      else asicPorts (fld w0 8 7)
    Completes (.powerIdleSet mb 0) mb s stOk false []
      (forAll ports (fun u => modPunit u fun p => { p with idleMode := fld w1 1 0 }) s) := by
  intro ports
  have hw := argW_zero h
  have haddress : (!bit w1 16 && paBad (cmdOf 0x0704 mb 0 s)) = false := by
    cases hall : bit w1 16 with
    | true => rfl
    | false => rw [paBad_of hw (ha hall)]; rfl
  have hports : idlePorts (cmdOf 0x0704 mb 0 s) = ports := by
    unfold idlePorts
    dsimp only
    rw [argW_one h, hw, paUnit_of hw]
    by_cases hall : bit w1 16 = true
    · rw [if_pos hall]
      exact (if_neg (by rw [hall]; exact nofun)).symm
    · rw [if_neg hall]
      exact (if_pos (Bool.eq_false_iff.2 hall)).symm
  refine completes_blind (f := forAll ports _) (body := powerIdleSetBody) rfl h rfl ?_
    (MailBlind.forAll (fun u g s => modPunit_modMail u _ g s) _)
  unfold powerIdleSetBody
  dsimp only
  rw [lenIs_two h, argW_one h, argChecks_two haddress (beq_false_of_ne hmode), hports]
  rfl

theorem powerCalSet_completes (h : Ready 0x0706 mb [w0, w1] s) (hitem : fld w0 7 0 < 0x2C)
    (hfree : longOp s 0x0708 = none) (hlo : (calRange (fld w0 7 0)).1 ≤ sgn 16 (fld w1 15 0))
    (hhi : sgn 16 (fld w1 15 0) ≤ (calRange (fld w0 7 0)).2) :
    Completes (.powerCalSet mb 0) mb s stOk false [] (calStore (fld w0 7 0) (sgn 16 (fld w1 15 0)) s) := by
  have hfree' : (longOp (popOrder s) 0x0708).isSome = false := by
    rw [show longOp (popOrder s) 0x0708 = none from hfree]
    rfl
  have hrange : (decide (sgn 16 (fld w1 15 0) < (calRange (fld w0 7 0)).1) ||
      decide ((calRange (fld w0 7 0)).2 < sgn 16 (fld w1 15 0))) = false := by
    rw [decide_eq_false (Int.not_lt.2 hlo), decide_eq_false (Int.not_lt.2 hhi)]
    rfl
  refine completes_blind (f := calStore _ _) (body := powerCalSetBody) rfl h rfl ?_ (fun _ _ => rfl)
  unfold powerCalSetBody calItem
  dsimp only
  rw [lenIs_two h, argW_zero h, argW_one h, argChecks_two (decide_eq_false (Nat.not_le.2 hitem)) hrange,
    check_of_false hfree']
  rfl

/-- Settles O38. -/
theorem powerCommandsComplete : Obligations.PowerCommandsComplete :=
  ⟨fun _ _ _ _ _ _ h => powerConfigSet_reads h,
    fun _ _ h => completes_done' (body := powerStatusGetBody) rfl h rfl (lenIs_none h) rfl rfl rfl,
    fun _ _ h => completes_done' (body := sensorReadBody) rfl h rfl (lenIs_none h) rfl rfl rfl,
    fun _ _ _ h => powerCalGet_completes h,
    fun _ _ _ _ _ _ h hset hcap hcap' hbank hdebt hrec himb himb' =>
      powerConfigSet_completes h hset ⟨hcap, hcap', hbank, hdebt, hrec, himb, himb'⟩,
    fun _ _ _ h hd hbusy => ⟨powerDomainSet_off h hd hbusy, powerDomainSet_stays h hd hbusy⟩,
    fun _ _ _ _ _ h => powerFreqSet_completes h, fun _ _ _ _ h => powerIdleSet_completes h,
    fun _ _ _ _ h hitem hfree hlo hhi => powerCalSet_completes h hitem hfree hlo hhi⟩

end PowerCommands

end Sys2Proof.Machine
end
